-- ==== Sys2Proof/Word.lean ====
section
/-! DEFINITION. The words of the module (R6, R8): 64-bit register words, bytes, and sparse tables. -/

namespace Sys2Proof

/-- A 64-bit control-space word (R9). -/
abbrev Word := BitVec 64

/-- One byte. -/
abbrev Byte := BitVec 8

/-- A tile ID: die in [12:10], row in [9:5], column in [4:0] (R2). -/
abbrev TileId := BitVec 13

/-- A sparse table: keys strictly rising, no entry equal to the default its reader names.
    Tile stores, register files and every numbered set of parts are held in this form. -/
abbrev Tbl (α : Type) := List (Nat × α)

end Sys2Proof
end

