-- ==== Sys2Proof/Syntax.lean ====
section
/-! DEFINITION. The commands of the module (spec/opcode_table.json) and the things they carry. -/

namespace Sys2Proof

/-! ## Tiles and engines (chapters 03 to 07) -/

/-- An engine of a tile: 0 = L, 1 = C, 2 = V, 3 = S (R71). -/
structure At where
  tile : TileId
  eng  : BitVec 2
  deriving DecidableEq, Repr

/-- The comparisons of BEQ to BGEU (Table 4.3). -/
inductive Cmp where
  | eq | ne | lt | ge | ltu | geu
  deriving DecidableEq, Repr

/-- Control slot (Table 4.3). Offsets are signed 13-bit words. -/
inductive Ctl where
  | endE
  | j (off : BitVec 13)
  | jal (xd : BitVec 5) (off : BitVec 13)
  | jr (xa : BitVec 5)
  | br (c : Cmp) (xa xb : BitVec 5) (off : BitVec 13)
  | loop (xa : BitVec 5) (lc : BitVec 2) (exit : BitVec 12)
  | loopi (lc : BitVec 2) (exit : BitVec 12) (count : BitVec 32)
  | lcset (xa : BitVec 5) (lc : BitVec 2)
  | wait (sem : BitVec 4) (n : BitVec 8)
  | signal (sem : BitVec 4) (n : BitVec 8)
  | signalt (sem : BitVec 4) (n : BitVec 8) (tile : TileId)
  | drain
  | gbar
  | swapb (target : BitVec 12)
  | trap (code : BitVec 16)
  deriving DecidableEq, Repr

/-- Address generator slot (Table 4.6). -/
inductive Agu where
  | base (ag : BitVec 3) (b : BitVec 20)
  | dim (ag : BitVec 3) (k : BitVec 2) (cntm1 : BitVec 16) (str : BitVec 24)
  | step (ag : BitVec 3) (n : BitVec 16)
  | rst (ag : BitVec 3)
  | basex (ag : BitVec 3) (xa : BitVec 5)
  deriving DecidableEq, Repr

/-- Register form of the scalar slot, opcodes 0x01 to 0x0D (Table 4.7). -/
inductive AluR where
  | add | sub | and | or | xor | shl | shr | sra | mul | slt | sltu | min | max
  deriving DecidableEq, Repr

/-- Immediate form of the scalar slot (Table 4.7). -/
inductive AluI where
  | addi | andi | ori | xori
  deriving DecidableEq, Repr

/-- Immediate shifts of the scalar slot (Table 4.7). -/
inductive ShI where
  | shli | shri | srai
  deriving DecidableEq, Repr

/-- Scalar slot (Table 4.7). An `addr` is an address operand of Table 4.5. -/
inductive Scl where
  | r (f : AluR) (xd xa xb : BitVec 5)
  | i (f : AluI) (xd xa : BitVec 5) (imm : BitVec 14)
  | sh (f : ShI) (xd xa : BitVec 5) (n : BitVec 6)
  | movi (xd : BitVec 5) (imm : BitVec 32)
  | movhi (xd : BitVec 5) (imm : BitVec 32)
  | rdlc (xd : BitVec 5) (lc : BitVec 2)
  | agrd (xd : BitVec 5) (ag : BitVec 3)
  | ldx (xd : BitVec 5) (addr : BitVec 8)
  | stx (xb : BitVec 5) (addr : BitVec 8)
  | ldg (xd xa : BitVec 5)
  | stg (xa xb : BitVec 5)
  deriving DecidableEq, Repr

/-- The functions of VFN (Table 4.12). -/
inductive VFn where
  | exp2 | log2 | reciprocal | rsqrt | sigmoid
  deriving DecidableEq, Repr

/-- Operation slot of the four engines (Tables 4.8 to 4.10 and 4.12). -/
inductive Op where
  | ldma (dst : BitVec 8) (xa xn : BitVec 5) (sem : BitVec 4) (tcnt : BitVec 8) (loc : Bool)
  | ldma2 (dst : BitVec 8) (xa xn : BitVec 5) (sem : BitVec 4) (tcnt : BitVec 8) (xr xs : BitVec 5) (loc : Bool)
  | lgath (dst : BitVec 8) (xa xn : BitVec 5) (sem : BitVec 4) (tcnt idx : BitVec 8) (xc : BitVec 5) (loc : Bool)
  | sdma (src : BitVec 8) (xa xn : BitVec 5) (sem : BitVec 4) (tcnt rcnt : BitVec 8) (rsem : BitVec 4)
      (xt : BitVec 5) (loc : Bool)
  | msg (src : BitVec 8) (xa xn : BitVec 5) (sem : BitVec 4) (tcnt : BitVec 8)
  | lpush (src : BitVec 8) (xa xd : BitVec 5)
  | cmma (a b : BitVec 8) (acc : BitVec 3) (clr : Bool) (fmt : BitVec 4) (exact : Bool) (fd : BitVec 4)
      (ksteps : BitVec 16)
  | ccvt (dst : BitVec 8) (acc : BitVec 3) (ofmt fd : BitVec 4)
  | csta (dst : BitVec 8) (acc : BitVec 3)
  | clda (src : BitVec 8) (acc : BitVec 3)
  | czero (acc : BitVec 3)
  | canch (anchor : BitVec 9) (acc : BitVec 3)
  | canchs (scale : BitVec 8) (acc : BitVec 3)
  | cfin (dst : BitVec 8) (fd : BitVec 4) (rows : BitVec 16)
  | valu (vd va vb : BitVec 5) (ty : BitVec 3) (fn : BitVec 6)
  | vfma (vd va vb : BitVec 5) (ty : BitVec 3) (vc : BitVec 5)
  | vcmp (vd va vb : BitVec 5) (ty : BitVec 3) (fn : BitVec 6)
  | vlogic (vd va vb : BitVec 5) (fn : BitVec 6)
  | vshift (vd va vb : BitVec 5) (ty : BitVec 3) (fn : BitVec 6)
  | vcvt (vd va : BitVec 5) (ty : BitVec 3) (fn : BitVec 6)
  | vfn (f : VFn) (vd va : BitVec 5) (ty : BitVec 3)
  | vred (xd va : BitVec 5) (ty : BitVec 3) (fn : BitVec 6)
  | vbcast (vd xa : BitVec 5) (ty : BitVec 3)
  | vsel (vd va vb : BitVec 5) (ty : BitVec 3) (vc : BitVec 5)
  | vld (vd : BitVec 5) (addr : BitVec 8)
  | vst (vs : BitVec 5) (addr : BitVec 8)
  deriving DecidableEq, Repr

/-- A bundle: one header and up to four slots (R104, Table 4.2). -/
structure Bundle where
  ctl : Option Ctl := none
  agu : Option Agu := none
  op  : Option Op := none
  scl : Option Scl := none
  deriving DecidableEq, Repr

/-- Who makes an access, a push or a write (R75, R103, R255, R272). -/
inductive Req where
  | host
  | mgmt
  | firmware
  | engine (e : At)
  | remote (module : BitVec 16) (port : BitVec 4)
  | reed (n : BitVec 9)
  | chanter (lane : BitVec 2)
  | dma (q : BitVec 4)
  deriving DecidableEq, Repr
/-! ## Fabric (chapter 11) -/

/-- A fabric packet: the four header words of Table 11.3, its payload, and whether its CRC (R308) holds. -/
structure Packet where
  w0 : Word
  w1 : Word
  w2 : Word
  w3 : Word
  payload : List Byte := []
  crcOk : Bool := true
  deriving DecidableEq, Repr

/-! ## Tenon (chapter 10) -/

/-- A Tenon message: the header of Table 10.3 and its LEN body bytes. -/
structure TMsg where
  head : BitVec 192
  body : List Byte := []
  deriving DecidableEq, Repr

/-- A link end: its die, 0 to 11, and its port, 0 west, 1 east, 2 the other row (R274). -/
structure LinkEnd where
  die  : BitVec 4
  port : BitVec 2
  deriving DecidableEq, Repr

/-- A wire that an interconnect test finds failed: link, direction, and wire 0 to 1,023 (data) or 1,024 + g (spare Sg). -/
structure BadWire where
  link : BitVec 4
  dir  : Bool
  wire : Nat
  deriving DecidableEq, Repr

/-! ## Bells (chapter 12) -/

/-- A STAT message (Table 12.8). -/
structure Stat where
  modId : BitVec 16
  port  : BitVec 8
  arith : BitVec 8
  state : BitVec 8
  rxok  : BitVec 32
  steq  : BitVec 32
  dis   : BitVec 32
  deriving DecidableEq, Repr

/-- A lane block as it arrives (Table 12.7), with how many of the 544 symbols of each codeword came wrong (R353). -/
structure LaneBlock where
  bseq  : BitVec 16
  mode  : BitVec 2
  start : BitVec 85
  valid : BitVec 85
  ctl   : List (List Byte)           -- four control messages of 72 B
  cells : List (List Byte)           -- 85 cells of 64 B
  errs  : List Nat := []             -- by codeword; none listed is none wrong
  deriving DecidableEq, Repr

/-- A UDP datagram that arrives at the management port: its sender's address, both ports, and its bytes (R415). -/
structure Datagram where
  sender : BitVec 128
  sport  : BitVec 16 := 24880
  dport  : BitVec 16 := 24880
  data   : List Byte
  deriving DecidableEq, Repr

/-- What begins an SMBus transfer: the 7-bit address it is sent to, the command code, and the packet error code that follows
    a write (R20, R418). -/
structure SmbCmd where
  addr : BitVec 7
  code : Byte
  pec  : Option Byte := none
  deriving DecidableEq, Repr

/-- A word write, as TROFF is. -/
structure SmbWord extends SmbCmd where
  value : BitVec 16
  deriving DecidableEq, Repr

/-- A byte write, or a byte read, as ALERTMASK is. -/
structure SmbByte extends SmbCmd where
  write : Option Byte
  deriving DecidableEq, Repr

/-- Why a lane leaves service, in the order of Table 12.5. -/
inductive LeaveCause where
  | nolight | rxlos | pinned | fec | peer
  deriving DecidableEq, Repr

/-! ## Rebrios Link (chapter 14) -/

/-- A host-link frame (Table 14.1): header words, body, and whether its CRC holds. -/
structure Frame where
  w0 : Word
  w1 : Word
  w2 : Word
  body : List Byte := []
  crcOk : Bool := true
  deriving DecidableEq, Repr

/-! ## Boot, power and heat (chapters 01, 15 and 16) -/

/-- What a boot sequence meets: failed wires (R285), the PUF (R467), and channels that do not train. -/
structure BootIn where
  wires : List BadWire := []
  pufOk : Bool := true
  seed : List Byte := []             -- what the PUF and its helper data give, 32 B
  noTrain : List (BitVec 9) := []
  deriving DecidableEq, Repr

/-- A Calipers sample: readings in 1/16 °C by die and sensor, stacks in °C, Bells in °C, and the input. -/
structure Sample where
  dies   : List (List Int)           -- 8 dies of 64 sensors, then 4 of 16
  stackT : List Int
  bells  : List Int
  vin    : BitVec 16                 -- 10 mV
  iin    : BitVec 16                 -- 10 mA
  power  : Nat                       -- W, mean since the last sample
  deriving DecidableEq, Repr

/-- The commands: one constructor per row of spec/opcode_table.json, in the table's words. -/
inductive Instr where
  | inputRise46v
  | bulkCapacitanceCharged (slot : BitVec 3)
  | inputLowBand
  | inputHighBand
  | inputOvervoltage (vin : BitVec 16)
  | powerLoss
  | holdUpExpiry
  | modResetNLow
  | modResetNHigh
  | coreRailsInRegulation
  | railRegulationTimeout
  | railOutOfRegulation
  | mreset (req : Req)
  | bootSequence (b : BootIn)
  | ident
  | smbusStatus
  | temps
  | trdata
  | troff (m : SmbWord)
  | alertmask (m : SmbByte)
  | alertResponseAddress
  | timeAlignmentFrameSend
  | time (port : BitVec 3) (tx : Word)
  | launchPush (t : TileId) (e : BitVec 2) (w0 w1 w2 w3 : Word) (req : Req)
  | groupPush (g : BitVec 6) (e : BitVec 2) (w0 w1 w2 w3 : Word) (req : Req)
  | entryStart (a : At)
  | entrySignal (a : At)
  | semaphoreWaitGrant (a : At)
  | tokenArrival (t : TileId) (sem : BitVec 4) (n : BitVec 8)
  | tileSemaddWrite (req : Req) (t : TileId) (value : Word)
  | tileSemWrite (req : Req) (t : TileId) (n : BitVec 4) (value : Word)
  | engineAbort (req : Req) (t : TileId) (mask : BitVec 4)
  | engineAbortComplete (a : At)
  | tileReset (req : Req) (t : TileId)
  | tileGrpWrite (req : Req) (g : BitVec 6) (value : Word)
  | gbarRelease (g : BitVec 6) (e : BitVec 2)
  | tileClockGate (t : TileId)
  | tileActivation (t : TileId)
  | clusterClockStop (cl : BitVec 6)
  | clusterClockStart (cl : BitVec 6)
  | endOp (a : At) (rest : Bundle)
  | j (a : At) (off : BitVec 13) (rest : Bundle)
  | jal (a : At) (xd : BitVec 5) (off : BitVec 13) (rest : Bundle)
  | jr (a : At) (xa : BitVec 5) (rest : Bundle)
  | beq (a : At) (xa xb : BitVec 5) (off : BitVec 13) (rest : Bundle)
  | bne (a : At) (xa xb : BitVec 5) (off : BitVec 13) (rest : Bundle)
  | blt (a : At) (xa xb : BitVec 5) (off : BitVec 13) (rest : Bundle)
  | bge (a : At) (xa xb : BitVec 5) (off : BitVec 13) (rest : Bundle)
  | bltu (a : At) (xa xb : BitVec 5) (off : BitVec 13) (rest : Bundle)
  | bgeu (a : At) (xa xb : BitVec 5) (off : BitVec 13) (rest : Bundle)
  | loop (a : At) (xa : BitVec 5) (lc : BitVec 2) (exit : BitVec 12) (rest : Bundle)
  | loopi (a : At) (lc : BitVec 2) (exit : BitVec 12) (count : BitVec 32) (rest : Bundle)
  | lcset (a : At) (xa : BitVec 5) (lc : BitVec 2) (rest : Bundle)
  | wait (a : At) (sem : BitVec 4) (n : BitVec 8) (rest : Bundle)
  | signal (a : At) (sem : BitVec 4) (n : BitVec 8) (rest : Bundle)
  | signalt (a : At) (sem : BitVec 4) (n : BitVec 8) (tile : TileId) (rest : Bundle)
  | drain (a : At) (rest : Bundle)
  | gbar (a : At) (rest : Bundle)
  | swapb (a : At) (target : BitVec 12) (rest : Bundle)
  | bankSwap (t : TileId)
  | hostBankSwap (req : Req) (t : TileId)
  | trap (a : At) (code : BitVec 16) (rest : Bundle)
  | agbase (a : At) (ag : BitVec 3) (base : BitVec 20) (rest : Bundle)
  | agdim (a : At) (ag : BitVec 3) (dim : BitVec 2) (cntm1 : BitVec 16) (str : BitVec 24) (rest : Bundle)
  | agstep (a : At) (ag : BitVec 3) (n : BitVec 16) (rest : Bundle)
  | agrst (a : At) (ag : BitVec 3) (rest : Bundle)
  | agbasex (a : At) (ag : BitVec 3) (xa : BitVec 5) (rest : Bundle)
  | add (a : At) (xd xa xb : BitVec 5) (rest : Bundle)
  | sub (a : At) (xd xa xb : BitVec 5) (rest : Bundle)
  | and (a : At) (xd xa xb : BitVec 5) (rest : Bundle)
  | or (a : At) (xd xa xb : BitVec 5) (rest : Bundle)
  | xor (a : At) (xd xa xb : BitVec 5) (rest : Bundle)
  | shl (a : At) (xd xa xb : BitVec 5) (rest : Bundle)
  | shr (a : At) (xd xa xb : BitVec 5) (rest : Bundle)
  | sra (a : At) (xd xa xb : BitVec 5) (rest : Bundle)
  | mul (a : At) (xd xa xb : BitVec 5) (rest : Bundle)
  | slt (a : At) (xd xa xb : BitVec 5) (rest : Bundle)
  | sltu (a : At) (xd xa xb : BitVec 5) (rest : Bundle)
  | min (a : At) (xd xa xb : BitVec 5) (rest : Bundle)
  | max (a : At) (xd xa xb : BitVec 5) (rest : Bundle)
  | addi (a : At) (xd xa : BitVec 5) (imm : BitVec 14) (rest : Bundle)
  | andi (a : At) (xd xa : BitVec 5) (imm : BitVec 14) (rest : Bundle)
  | ori (a : At) (xd xa : BitVec 5) (imm : BitVec 14) (rest : Bundle)
  | xori (a : At) (xd xa : BitVec 5) (imm : BitVec 14) (rest : Bundle)
  | shli (a : At) (xd xa : BitVec 5) (n : BitVec 6) (rest : Bundle)
  | shri (a : At) (xd xa : BitVec 5) (n : BitVec 6) (rest : Bundle)
  | srai (a : At) (xd xa : BitVec 5) (n : BitVec 6) (rest : Bundle)
  | movi (a : At) (xd : BitVec 5) (imm : BitVec 32) (rest : Bundle)
  | movhi (a : At) (xd : BitVec 5) (imm : BitVec 32) (rest : Bundle)
  | rdlc (a : At) (xd : BitVec 5) (lc : BitVec 2) (rest : Bundle)
  | agrd (a : At) (xd : BitVec 5) (ag : BitVec 3) (rest : Bundle)
  | ldx (a : At) (xd : BitVec 5) (addr : BitVec 8) (rest : Bundle)
  | stx (a : At) (xb : BitVec 5) (addr : BitVec 8) (rest : Bundle)
  | ldg (a : At) (xd xa : BitVec 5) (rest : Bundle)
  | stg (a : At) (xa xb : BitVec 5) (rest : Bundle)
  | ldma (t : TileId) (dst : BitVec 8) (xa xn : BitVec 5) (sem : BitVec 4) (tcnt : BitVec 8) (loc : Bool)
      (rest : Bundle)
  | ldma2 (t : TileId) (dst : BitVec 8) (xa xn : BitVec 5) (sem : BitVec 4) (tcnt : BitVec 8) (xr xs : BitVec 5)
      (loc : Bool) (rest : Bundle)
  | lgath (t : TileId) (dst : BitVec 8) (xa xn : BitVec 5) (sem : BitVec 4) (tcnt idx : BitVec 8) (xc : BitVec 5)
      (loc : Bool) (rest : Bundle)
  | sdma (t : TileId) (src : BitVec 8) (xa xn : BitVec 5) (sem : BitVec 4) (tcnt rcnt : BitVec 8) (rsem : BitVec 4)
      (xt : BitVec 5) (loc : Bool) (rest : Bundle)
  | msg (t : TileId) (src : BitVec 8) (xa xn : BitVec 5) (sem : BitVec 4) (tcnt : BitVec 8) (rest : Bundle)
  | lpush (t : TileId) (src : BitVec 8) (xa xd : BitVec 5) (rest : Bundle)
  | transferComplete (a : At) (xid : Nat)
  | cmma (t : TileId) (av bv : BitVec 8) (acc : BitVec 3) (clr : Bool) (fmt : BitVec 4) (exact : Bool)
      (fd : BitVec 4) (ksteps : BitVec 16) (rest : Bundle)
  | ccvt (t : TileId) (dst : BitVec 8) (acc : BitVec 3) (ofmt fd : BitVec 4) (rest : Bundle)
  | csta (t : TileId) (dst : BitVec 8) (acc : BitVec 3) (rest : Bundle)
  | clda (t : TileId) (src : BitVec 8) (acc : BitVec 3) (rest : Bundle)
  | czero (t : TileId) (acc : BitVec 3) (rest : Bundle)
  | canch (t : TileId) (anchor : BitVec 9) (acc : BitVec 3) (rest : Bundle)
  | canchs (t : TileId) (scale : BitVec 8) (acc : BitVec 3) (rest : Bundle)
  | cfin (t : TileId) (dst : BitVec 8) (fd : BitVec 4) (rows : BitVec 16) (rest : Bundle)
  | resultReady (a : At)
  | valu (t : TileId) (vd va vb : BitVec 5) (ty : BitVec 3) (fn : BitVec 6) (rest : Bundle)
  | vfma (t : TileId) (vd va vb : BitVec 5) (ty : BitVec 3) (vc : BitVec 5) (rest : Bundle)
  | vcmp (t : TileId) (vd va vb : BitVec 5) (ty : BitVec 3) (fn : BitVec 6) (rest : Bundle)
  | vlogic (t : TileId) (vd va vb : BitVec 5) (fn : BitVec 6) (rest : Bundle)
  | vshift (t : TileId) (vd va vb : BitVec 5) (ty : BitVec 3) (fn : BitVec 6) (rest : Bundle)
  | vcvt (t : TileId) (vd va : BitVec 5) (ty : BitVec 3) (fn : BitVec 6) (rest : Bundle)
  | vfnExp2 (t : TileId) (vd va : BitVec 5) (ty : BitVec 3) (rest : Bundle)
  | vfnLog2 (t : TileId) (vd va : BitVec 5) (ty : BitVec 3) (rest : Bundle)
  | vfnReciprocal (t : TileId) (vd va : BitVec 5) (ty : BitVec 3) (rest : Bundle)
  | vfnReciprocalSquareRoot (t : TileId) (vd va : BitVec 5) (ty : BitVec 3) (rest : Bundle)
  | vfnSigmoid (t : TileId) (vd va : BitVec 5) (ty : BitVec 3) (rest : Bundle)
  | vred (t : TileId) (xd va : BitVec 5) (ty : BitVec 3) (fn : BitVec 6) (rest : Bundle)
  | vbcast (t : TileId) (vd xa : BitVec 5) (ty : BitVec 3) (rest : Bundle)
  | vsel (t : TileId) (vd va vb : BitVec 5) (ty : BitVec 3) (vc : BitVec 5) (rest : Bundle)
  | vld (t : TileId) (vd : BitVec 5) (addr : BitVec 8) (rest : Bundle)
  | vst (t : TileId) (vs : BitVec 5) (addr : BitVec 8) (rest : Bundle)
  | emptyBundle (a : At)
  | reedRingWrite (req : Req) (n : BitVec 9) (value : Word)
  | reedTailWrite (req : Req) (n : BitVec 9) (value : Word)
  | reedAbort (req : Req) (n : BitVec 9)
  | vload (n : BitVec 9)
  | mv (n : BitVec 9)
  | reedSignal (n : BitVec 9)
  | reedBlockDelivery (n : BitVec 9)
  | reedToken (n : BitVec 9)
  | hbmRead (req : Req) (addr : BitVec 48) (len : BitVec 16) (ecc : BitVec 2)
  | hbmWrite (req : Req) (addr : BitVec 48) (bytes : List Byte)
  | wcDrain (c : BitVec 9) (gran : BitVec 34)
  | atomicRecord (req : Req) (w0 w1 w2 w3 : Word)
  | arbiterRound (pc : BitVec 10) (ready : BitVec 5)
  | refreshDue (pc : BitVec 10)
  | stackTemperatureReading (stack : BitVec 4) (temp : BitVec 8)
  | ceWindowStart
  | regionEnable (req : Req) (n : BitVec 4) (value : Word)
  | regionDisable (req : Req) (n : BitVec 4) (value : Word)
  | regionCloseComplete (n : BitVec 4)
  | hbmExclWrite (req : Req) (stack : BitVec 4) (value : Word)
  | channelPolicyWrite (req : Req) (c : BitVec 9) (value : Word)
  | retrain (req : Req) (c : BitVec 9)
  | retrainingStart (c : BitVec 9)
  | retrainingEnd (c : BitVec 9) (us : BitVec 16)
  | retrainingFailure (c : BitVec 9)
  | flush (req : Req) (die : BitVec 3)
  | flushComplete (die : BitVec 3)
  | tenonFlitReceive (e : LinkEnd) (lane : BitVec 4) (flit : BitVec 256)
  | tenonNak (e : LinkEnd) (lane : BitVec 4) (ack : BitVec 8)
  | tenonMessageSend (e : LinkEnd) (m : TMsg)
  | tenonRd (m : TMsg)
  | tenonWr (m : TMsg)
  | tenonAtom (m : TMsg)
  | tenonPush (m : TMsg)
  | tenonToken (m : TMsg)
  | tenonRdrsp (m : TMsg)
  | tenonWrack (m : TMsg)
  | tenonCol (m : TMsg)
  | tenonFabin (m : TMsg)
  | tenonFabout (m : TMsg)
  | tenonCrd (m : TMsg)
  | tenonCwr (m : TMsg)
  | laneRetest (link : BitVec 4) (lane : BitVec 4)
  | laneRetestComplete (link : BitVec 4) (lane : BitVec 4) (bad : List BadWire)
  | linkRetrainComplete (link : BitVec 4)
  | clockLoss (die : BitVec 4)
  | routesInForce (die : BitVec 4)
  | dresetSet (req : Req) (die : BitVec 4)
  | dresetClear (req : Req) (die : BitVec 4)
  | test (req : Req) (die : BitVec 4)
  | train (req : Req) (die : BitVec 4)
  | admitOp (req : Req) (die : BitVec 4)
  | dieBooted (die : BitVec 4) (ok : Bool)
  | dieTested (die : BitVec 4) (ok : Bool) (bad : List BadWire)
  | dieTrained (die : BitVec 4)
  | dieAdmitted (die : BitVec 4) (ok : Bool) (noTrain : List (BitVec 9))
  | packetSend (n : BitVec 16)
  | routerForward (port : BitVec 4) (p : Packet)
  | multicastPacket (port : BitVec 4) (p : Packet)
  | put (port : BitVec 4) (p : Packet)
  | putend (port : BitVec 4) (p : Packet)
  | get (port : BitVec 4) (p : Packet)
  | ld (port : BitVec 4) (p : Packet)
  | st (port : BitVec 4) (p : Packet)
  | getdata (port : BitVec 4) (p : Packet)
  | getend (port : BitVec 4) (p : Packet)
  | opack (port : BitVec 4) (p : Packet)
  | ldrsp (port : BitVec 4) (p : Packet)
  | fack (port : BitVec 4) (p : Packet)
  | colPacket (port : BitVec 4) (p : Packet)
  | msgPacket (port : BitVec 4) (p : Packet)
  | fackSend (n : BitVec 16)
  | retransmit (n seq : BitVec 16)
  | answerTimeout (n opid : BitVec 16)
  | portDown (port : BitVec 4)
  | routeEntryWrite (req : Req) (copyB : Bool) (d : BitVec 16) (value : Word)
  | injWrite (req : Req) (inj : Bool)
  | multicastEntryWrite (req : Req) (g : BitVec 12) (value : Word)
  | flowEnable (req : Req) (n : BitVec 16) (value : Word)
  | flowRst (req : Req) (n : BitVec 16)
  | mqHeadWrite (req : Req) (q : BitVec 8) (value : Word)
  | fabCfgWrite (req : Req) (value : Word)
  | laserMeasurement (port : BitVec 2) (uw : List Nat)
  | laserLineReturn (port : BitVec 2) (line : BitVec 3)
  | bellEnable (req : Req) (b : BitVec 3) (value : Word)
  | bellDisable (req : Req) (b : BitVec 3) (value : Word)
  | bellRetrain (req : Req) (b : BitVec 3)
  | lockIteration (b : BitVec 3) (steps : List Int)
  | txRingLock (b : BitVec 3) (lane : BitVec 5) (heat : BitVec 10) (found : Bool)
  | rxRingScan (b : BitVec 3) (lane : BitVec 5) (heat : BitVec 10) (found : Bool) (idx : Option (BitVec 3))
  | ringStep (b : BitVec 3) (row : BitVec 2)
  | ringStepComplete (b : BitVec 3) (lane : BitVec 5) (heat : BitVec 10) (found : Bool)
  | laneBlock (b : BitVec 3) (lane : BitVec 5) (blk : LaneBlock)
  | stat (b : BitVec 3) (m : Stat)
  | credit (b : BitVec 3) (freed : List (BitVec 32))
  | laneLeavesService (b : BitVec 3) (lane : BitVec 5) (cause : LeaveCause)
  | laneServiceSample (b : BitVec 3)
  | trainingTimeout (b : BitVec 3)
  | failedRetry (b : BitVec 3)
  | eyehUpdate (b : BitVec 3) (lane : BitVec 5) (eye : BitVec 5)
  | chanterPush (lane : BitVec 2) (w0 w1 w2 w3 : Word) (req : Req)
  | allreduce (lane : BitVec 2)
  | reduceScatter (lane : BitVec 2)
  | allgather (lane : BitVec 2)
  | broadcast (lane : BitVec 2)
  | reduce (lane : BitVec 2)
  | alltoall (lane : BitVec 2)
  | barrier (lane : BitVec 2)
  | reshard (lane : BitVec 2)
  | collectiveComplete (g : BitVec 8) (seq : BitVec 16)
  | chk (port : BitVec 4) (p : Packet)
  | rel (port : BitVec 4) (p : Packet)
  | data1 (port : BitVec 4) (p : Packet)
  | cred (port : BitVec 4) (p : Packet)
  | data2 (port : BitVec 4) (p : Packet)
  | resend (port : BitVec 4) (p : Packet)
  | fail (port : BitVec 4) (p : Packet)
  | xdata (port : BitVec 4) (p : Packet)
  | phaseGapTimeout (g : BitVec 8) (seq : BitVec 16) (kind : BitVec 4) (src : BitVec 16)
  | groupEnable (req : Req) (g : BitVec 8) (value : Word)
  | groupDisable (req : Req) (g : BitVec 8) (value : Word)
  | laneAbort (req : Req) (lane : BitVec 2)
  | nop (f : Frame)
  | nak (f : Frame)
  | cwr (f : Frame)
  | crd (f : Frame)
  | cack
  | crsp
  | push (f : Frame)
  | pstat
  | dbell (f : Frame)
  | dfetch (q : BitVec 4)
  | hrd (q : BitVec 4)
  | hdata (f : Frame)
  | hwr (q : BitVec 4)
  | event
  | fab (f : Frame)
  | linkReplayTimeout
  | nopTimer
  | hostLinkHoldTimeout
  | h2m (q : BitVec 4)
  | m2h (q : BitVec 4)
  | dmaDescriptorComplete (q : BitVec 4)
  | dqTailWrite (req : Req) (q : BitVec 4) (value : Word)
  | dqAbort (req : Req) (q : BitVec 4)
  | eventHeadWrite (req : Req) (value : Word)
  | siteDone (req : Req) (value : Word)
  | hello
  | mgtRead (d : Datagram)
  | mgtWrite (sender : BitVec 128) (ports : BitVec 16 × BitVec 16) (data : List Byte)
  | trec (d : Datagram)
  | neighbourSolicitation (target : BitVec 128)
  | domainPowerOff (req : Req) (d : BitVec 7)
  | domainPowerOn (req : Req) (d : BitVec 7)
  | domainSwitchComplete (d : BitVec 7)
  | calipersSample (x : Sample)
  | thermalTrip
  | divisionTakesEffect (cl : BitVec 6)
  | thermalCoalesceWindowEnd (die : BitVec 4) (code : BitVec 16)
  | bellowsHold (rising : BitVec 64)
  | bellowsRelease
  | softWrite (req : Req) (value : Word)
  | capWrite (req : Req) (value : Word)
  | keyWrite (req : Req) (key : BitVec 32)
  | thermalHoldCleared
  | standbyGo (req : Req) (value : Word)
  | standbyEntered
  | wakeTime
  | update (req : Req)
  | confirm (req : Req)
  | minver (req : Req)
  | calwr (req : Req) (kind : BitVec 8)
  | read (req : Req) (kind : BitVec 8)
  | nvsCommandDone (flashOk : Bool)
  | recordCommit
  | ext (req : Req) (sel : Bool)
  | quote (req : Req)
  | quoteDone
  | lock (req : Req)
  | remoteWindowEnd (peer : BitVec 16) (code : BitVec 16)
  | kfnPost (req : Req) (value : Word)
  | kfnWithdraw (req : Req) (slot : BitVec 4)
  | chatterGo (req : Req) (value : Word)
  | chatterTileDone (t : TileId) (upset : Bool)
  | pairEnable (req : Req) (p : BitVec 4) (value : Word)
  | registerWrite (req : Req) (addr : BitVec 48) (value : Word)
  deriving DecidableEq, Repr

end Sys2Proof
end

