-- ==== Sys2Proof/Machine/Table.lean ====
section
/-! DEFINITION. Sparse tables in one canonical form: keys strictly rising, defaults not listed. -/

namespace Sys2Proof.Machine

/-- The value at key `k`, or the default `d` where nothing is listed. -/
def tget {α : Type} (d : α) : Tbl α → Nat → α
  | [], _ => d
  | (j, v) :: rest, k => if j = k then v else tget d rest k

/-- Removes every entry of key `k`. -/
def terase {α : Type} : Tbl α → Nat → Tbl α
  | [], _ => []
  | (j, v) :: rest, k => if j = k then terase rest k else (j, v) :: terase rest k

/-- Inserts or replaces the entry of key `k`, keeping keys in rising order. -/
def tinsert {α : Type} : Tbl α → Nat → α → Tbl α
  | [], k, v => [(k, v)]
  | (j, w) :: rest, k, v =>
    if k < j then (k, v) :: (j, w) :: rest
    else if k = j then (k, v) :: rest
    else (j, w) :: tinsert rest k v

/-- Writes `v` at key `k`; writing the default removes the entry, so equal tables are equal data. -/
def tset {α : Type} [DecidableEq α] (d : α) (m : Tbl α) (k : Nat) (v : α) : Tbl α :=
  if v = d then terase m k else tinsert m k v

/-- Changes the value at key `k` by `f`. -/
def tmod {α : Type} [DecidableEq α] (d : α) (m : Tbl α) (k : Nat) (f : α → α) : Tbl α :=
  tset d m k (f (tget d m k))

/-- Every key of the table is above `lo`, in rising order, and no value is the default. -/
def twfFrom {α : Type} [DecidableEq α] (d : α) : Nat → Tbl α → Bool
  | _, [] => true
  | lo, (k, v) :: rest => decide (lo ≤ k) && decide (v ≠ d) && twfFrom d (k + 1) rest

/-- The canonical form of a table. -/
def twf {α : Type} [DecidableEq α] (d : α) (m : Tbl α) : Bool := twfFrom d 0 m

/-- The canonical form of a memory whose unlisted bytes read as `d`. -/
abbrev Memory.wf (d : Byte) (m : Tbl Byte) : Bool := twf d m

/-- Sets the values at the keys of `ks` to what `f` makes of the values in `m`. -/
def tmapOn {α : Type} [DecidableEq α] (d : α) (f : Nat → α → α) (m : Tbl α) : Tbl α → Tbl α → Tbl α
  | [], out => out
  | (k, _) :: ks, out => tmapOn d f m ks (tset d out k (f k (tget d m k)))

/-- Applies `f` to every listed value and drops the ones that became the default. -/
def tmap {α : Type} [DecidableEq α] (d : α) (f : Nat → α → α) (m : Tbl α) : Tbl α := tmapOn d f m m []

/-- Keeps the entries whose key satisfies `p`. -/
def tkeep {α : Type} (p : Nat → Bool) : Tbl α → Tbl α
  | [] => []
  | (k, v) :: rest => if p k then (k, v) :: tkeep p rest else tkeep p rest

/-- The byte at address `a`; memory that nothing has written reads 0 (R452). -/
def rdByte (m : Tbl Byte) (a : Nat) : Byte := tget 0 m a

/-- Reads `n` bytes from `a` as one little-endian number (R6). -/
def rdLE (m : Tbl Byte) (a : Nat) : Nat → Nat
  | 0 => 0
  | n + 1 => (rdByte m a).toNat + 256 * rdLE m (a + 1) n

/-- Writes the low `n` bytes of `v` from `a` on, little-endian (R6). -/
def wrLE (m : Tbl Byte) (a : Nat) (v : Nat) : Nat → Tbl Byte
  | 0 => m
  | n + 1 => wrLE (tset 0 m a (BitVec.ofNat 8 v)) (a + 1) (v / 256) n

/-- Reads `n` bytes from `a` as a list, lowest address first. -/
def rdBytes (m : Tbl Byte) (a : Nat) : Nat → List Byte
  | 0 => []
  | n + 1 => rdByte m a :: rdBytes m (a + 1) n

/-- Writes a list of bytes from `a` on. -/
def wrBytes (m : Tbl Byte) (a : Nat) : List Byte → Tbl Byte
  | [] => m
  | b :: bs => wrBytes (tset 0 m a b) (a + 1) bs

end Sys2Proof.Machine
end

