-- ==== Sys2Proof/Machine/Bits.lean ====
section
/-! DEFINITION. Bit fields (R6), byte order, and the manual's CRCs (R277, R308, R488). -/

namespace Sys2Proof.Machine

/-- Bits [hi:lo] of a word as an unsigned number (R6). -/
def fld (w : Word) (hi lo : Nat) : Nat := (w.toNat / 2 ^ lo) % 2 ^ (hi + 1 - lo)

/-- Bit `i` of a word. -/
def bit (w : Word) (i : Nat) : Bool := w.getLsbD i

/-- The word whose bits [hi:lo] are 1 and whose other bits are 0. -/
def maskW (hi lo : Nat) : Word := BitVec.ofNat 64 ((2 ^ (hi + 1 - lo) - 1) * 2 ^ lo)

/-- `w` with bits [hi:lo] replaced by the low bits of `v`. -/
def setFld (w : Word) (hi lo v : Nat) : Word :=
  (w &&& ~~~(maskW hi lo)) ||| (BitVec.ofNat 64 (v % 2 ^ (hi + 1 - lo) * 2 ^ lo))

/-- `w` with bit `i` set to `b`. -/
def setBit (w : Word) (i : Nat) (b : Bool) : Word := setFld w i i (if b then 1 else 0)

/-- The low `n` bits of `v` read as two's complement. -/
def sext (n v : Nat) : Int :=
  if v % 2 ^ n < 2 ^ (n - 1) then (v % 2 ^ n : Nat) else ((v % 2 ^ n : Nat) : Int) - (2 ^ n : Nat)

/-- The low `n` bits of an integer in two's complement. -/
def low (n : Nat) (v : Int) : Nat := (v % (2 ^ n : Nat)).toNat

/-- A list of bytes as one little-endian number (R6). -/
def leNat : List Byte → Nat
  | [] => 0
  | b :: bs => b.toNat + 256 * leNat bs

/-- The low `n` bytes of `v`, lowest first. -/
def natLE : Nat → Nat → List Byte
  | 0, _ => []
  | n + 1, v => BitVec.ofNat 8 v :: natLE n (v / 256)

/-- The 8 bytes of a word, lowest first. -/
def wordLE (w : Word) : List Byte := natLE 8 w.toNat

/-- The bytes of several words in order. -/
def wordsLE : List Word → List Byte
  | [] => []
  | w :: ws => wordLE w ++ wordsLE ws

/-- The little-endian word at byte offset `o` of a list of bytes. -/
def wordAt (bs : List Byte) (o : Nat) : Word := BitVec.ofNat 64 (leNat ((bs.drop o).take 8))

/-- Number of 1 bits among the low `n` bits of `v`. -/
def popcount : Nat → Nat → Nat
  | 0, _ => 0
  | n + 1, v => v % 2 + popcount n (v / 2)

/-- `n` saturated at `m`. -/
def satAt (m n : Nat) : Nat := if n ≤ m then n else m

/-- One bit of a most-significant-first CRC of width `w` with polynomial `poly`. -/
def crcBit (w poly crc : Nat) (b : Bool) : Nat :=
  let top := crc.testBit (w - 1) != b
  let sh := (crc * 2) % 2 ^ w
  if top then sh ^^^ poly else sh

/-- Feeds bits `n - 1` down to 0 of `v`. -/
def crcBits (w poly : Nat) : Nat → Nat → Nat → Nat
  | 0, _, crc => crc
  | n + 1, v, crc => crcBits w poly n v (crcBit w poly crc (v.testBit n))

/-- CRC-16 of a flit's bits [239:0], taken from bit 239 down, polynomial 0x8BB7, initial 0xFFFF (R277). -/
def crc16 (v : Nat) : Nat := crcBits 16 0x8BB7 240 v 0xFFFF

/-- CRC-64 of a list of bytes, each from its most significant bit (R488), continued from `crc`. -/
def crc64 : Nat → List Byte → Nat
  | crc, [] => crc
  | crc, b :: bs => crc64 (crcBits 64 0x42F0E1EBA9EA3693 8 b.toNat crc) bs

/-- The initial value of a signature: all ones (R488). -/
def crc64Init : Nat := 2 ^ 64 - 1

/-- Eight shifts of the reflected CRC-32 register. -/
def crc32Shift : Nat → Nat → Nat
  | 0, c => c
  | n + 1, c => crc32Shift n (if c % 2 = 1 then (c / 2) ^^^ 0xEDB88320 else c / 2)

/-- The reflected register of CRC-32 after a list of bytes. -/
def crc32Reg : Nat → List Byte → Nat
  | c, [] => c
  | c, b :: bs => crc32Reg (crc32Shift 8 (c ^^^ b.toNat)) bs

/-- CRC-32 of IEEE 802.3 as R308 defines it. -/
def crc32 (bs : List Byte) : Nat := crc32Reg 0xFFFFFFFF bs ^^^ 0xFFFFFFFF

end Sys2Proof.Machine
end

