-- ==== Sys2Proof/Machine/Numbers.lean ====
section
/-! DEFINITION. Element formats (R145, Table 4.11), exact values, rounding (R161, R167, R203) and VL128 (R154 to R156). -/

namespace Sys2Proof.Machine

/-- An exact value: a special, a signed zero, or `m * 2 ^ e` with `m ≠ 0`. -/
inductive FNum where
  | nan
  | inf (neg : Bool)
  | zero (neg : Bool)
  | fin (m e : Int)
  deriving DecidableEq, Repr

/-- How a float format spends its top exponent (Table 5.2). -/
inductive TopCode where
  | ieee   -- infinities and NaNs
  | e4m3   -- one NaN, no infinity
  | plain  -- neither
  deriving DecidableEq, Repr

/-- A float format of Table 5.2. -/
structure Fmt where
  ebits : Nat
  mbits : Nat
  bias  : Nat
  top   : TopCode
  deriving DecidableEq, Repr

def fp32 : Fmt := ⟨8, 23, 127, .ieee⟩
def bf16 : Fmt := ⟨8, 7, 127, .ieee⟩
def fp16 : Fmt := ⟨5, 10, 15, .ieee⟩
def e4m3 : Fmt := ⟨4, 3, 7, .e4m3⟩
def e5m2 : Fmt := ⟨5, 2, 15, .ieee⟩
def e2m3 : Fmt := ⟨2, 3, 1, .plain⟩
def e3m2 : Fmt := ⟨3, 2, 3, .plain⟩
def e2m1 : Fmt := ⟨2, 1, 1, .plain⟩

/-- The kind of element a format code of Table 4.11 names; `int n e` is an n-bit integer times 2^e. -/
inductive Elem where
  | flt (f : Fmt)
  | int (n : Nat) (e : Int)
  deriving DecidableEq, Repr

/-- Table 4.11. -/
def elemOf : Nat → Elem
  | 0 => .flt e4m3 | 1 => .flt e5m2 | 2 => .flt e2m3 | 3 => .flt e3m2 | 4 => .flt e2m1
  | 5 => .int 8 0 | 6 => .int 4 0 | 7 => .flt bf16 | 8 => .flt fp16
  | 9 => .flt e4m3 | 10 => .flt e5m2 | 11 => .flt e2m3 | 12 => .flt e3m2 | 13 => .flt e2m1
  | 14 => .int 8 (-6) | _ => .flt fp32

/-- Bits of one element. -/
def elemBits (c : Nat) : Nat :=
  match elemOf c with
  | .flt f => 1 + f.ebits + f.mbits
  | .int n _ => n

/-- Codes 9 to 14 are the microscaling formats (Table 4.11). -/
def isMX (c : Nat) : Bool := 9 ≤ c && c ≤ 14

/-- Codes 0 to 6 have a fixed anchor (R151). -/
def fixedAnchorFmt (c : Nat) : Bool := c ≤ 6

/-- K elements per cube step (Table 5.1). -/
def stepK (c : Nat) : Nat :=
  match c with
  | 2 | 3 | 4 | 6 | 11 | 12 | 13 => 16
  | 7 | 8 => 2
  | _ => 8

/-- Operand bytes per step (Table 5.1). -/
def stepBytes (c : Nat) : Nat := 8 * stepK c * elemBits c / 8

/-- Steps per K-block of 32 elements (R149). -/
def stepsPerBlock (c : Nat) : Nat := 32 / stepK c

def signed (neg : Bool) (m : Nat) : Int := if neg then -(m : Int) else m

/-- Decodes a float code (R145); subnormals are kept. -/
def decodeFloat (f : Fmt) (c : Nat) : FNum :=
  let neg := c.testBit (f.ebits + f.mbits)
  let ex := (c / 2 ^ f.mbits) % 2 ^ f.ebits
  let mant := c % 2 ^ f.mbits
  let allOnes := ex = 2 ^ f.ebits - 1
  if f.top = .ieee ∧ allOnes then (if mant = 0 then .inf neg else .nan)
  else if f.top = .e4m3 ∧ allOnes ∧ mant = 2 ^ f.mbits - 1 then .nan
  else if ex = 0 then
    if mant = 0 then .zero neg else .fin (signed neg mant) (1 - (f.bias : Int) - f.mbits)
  else .fin (signed neg (2 ^ f.mbits + mant)) ((ex : Int) - f.bias - f.mbits)

def ofInt (n e : Int) : FNum := if n = 0 then .zero false else .fin n e

/-- Decodes an element of format code `c` (Table 5.2). -/
def decodeElem (c v : Nat) : FNum :=
  match elemOf c with
  | .flt f => decodeFloat f v
  | .int n e => ofInt (sext n v) e

/-- Magnitude divided by 2^k, to nearest with ties to even. -/
def rneShift (mag k : Nat) : Nat :=
  match k with
  | 0 => mag
  | k + 1 =>
    let q := mag / 2 ^ (k + 1)
    let r := mag % 2 ^ (k + 1)
    if r > 2 ^ k ∨ (r = 2 ^ k ∧ q % 2 = 1) then q + 1 else q

/-- Rounding modes of VCVT (R208). -/
inductive RMode where
  | nearestEven
  | towardZero
  deriving DecidableEq, Repr

/-- Magnitude times 2^(e - u), rounded to an integer. -/
def roundAt (rm : RMode) (mag : Nat) (e u : Int) : Nat :=
  if u ≤ e then mag * 2 ^ (e - u).toNat
  else match rm with
    | .nearestEven => rneShift mag (u - e).toNat
    | .towardZero => mag / 2 ^ (u - e).toNat

/-- Exponent of the leading bit of `mag * 2^e`. -/
def leadExp (mag : Nat) (e : Int) : Int := (Nat.log2 mag : Int) + e

/-- Exponent of the unit in the last place of a format at a value, with the top exponent unbounded. -/
def ulpExp (f : Fmt) (mag : Nat) (e : Int) : Int :=
  max (leadExp mag e - f.mbits) (1 - (f.bias : Int) - f.mbits)

/-- Largest finite significand of a format. -/
def maxSig (f : Fmt) : Nat :=
  match f.top with
  | .e4m3 => 2 ^ (f.mbits + 1) - 2
  | _ => 2 ^ (f.mbits + 1) - 1

/-- Exponent of the unit in the last place of the largest finite value. -/
def maxUlp (f : Fmt) : Int :=
  match f.top with
  | .ieee => (2 ^ f.ebits - 2 : Nat) - (f.bias : Int) - f.mbits
  | _ => (2 ^ f.ebits - 1 : Nat) - (f.bias : Int) - f.mbits

/-- The largest finite value of a format. -/
def maxFin (f : Fmt) (neg : Bool) : FNum := .fin (signed neg (maxSig f)) (maxUlp f)

/-- Outcome of rounding a nonzero finite value into a format. -/
inductive Rounded where
  | small (neg : Bool)          -- rounds to zero
  | fits  (m e : Int)           -- a finite value of the format
  | past  (neg : Bool)          -- beyond the largest finite value
  deriving DecidableEq, Repr

/-- Rounds `m * 2^e` onto a format's grid, exponent range unbounded above, then checks the range (R167, R209). -/
def roundFin (f : Fmt) (rm : RMode) (m e : Int) : Rounded :=
  let neg := decide (m < 0)
  let u := ulpExp f m.natAbs e
  let q := roundAt rm m.natAbs e u
  if q = 0 then .small neg
  else if maxUlp f < u ∨ (u = maxUlp f ∧ maxSig f < q) then .past neg
  else .fits (signed neg q) u

/-- Rounds an exact value into a format: to nearest even, overflow to infinity, subnormals kept (R161, R182, R203). -/
def rnd (f : Fmt) : FNum → FNum
  | .fin m e =>
    match roundFin f .nearestEven m e with
    | .small neg => .zero neg
    | .fits q u => .fin q u
    | .past neg => .inf neg
  | x => x

/-- The canonical NaN of a format (Table 5.8), 0 where it has none. -/
def nanCode (f : Fmt) : Nat :=
  match f.top with
  | .ieee => (2 ^ f.ebits - 1) * 2 ^ f.mbits + 2 ^ (f.mbits - 1)
  | .e4m3 => 2 ^ (f.ebits + f.mbits) - 1
  | .plain => 0

def signBit (f : Fmt) (neg : Bool) : Nat := if neg then 2 ^ (f.ebits + f.mbits) else 0

/-- The code of a value that the format holds exactly. -/
def encodeFloat (f : Fmt) : FNum → Nat
  | .nan => nanCode f
  | .inf neg => signBit f neg + (2 ^ f.ebits - 1) * 2 ^ f.mbits
  | .zero neg => signBit f neg
  | .fin m e =>
    let u := ulpExp f m.natAbs e
    let q := roundAt .nearestEven m.natAbs e u
    let (q, u) := if q = 2 ^ (f.mbits + 1) then (2 ^ f.mbits, u + 1) else (q, u)
    signBit f (decide (m < 0)) +
      (if q < 2 ^ f.mbits then q
       else (u + f.mbits + f.bias).toNat * 2 ^ f.mbits + (q - 2 ^ f.mbits))

/-- Bits of `x` rounded once into a format. -/
def toBits (f : Fmt) (x : FNum) : Nat := encodeFloat f (rnd f x)

def isNan : FNum → Bool
  | .nan => true
  | _ => false

def isInf : FNum → Bool
  | .inf _ => true
  | _ => false

def isFinite : FNum → Bool
  | .zero _ => true
  | .fin _ _ => true
  | _ => false

def isZero : FNum → Bool
  | .zero _ => true
  | _ => false

def isNeg : FNum → Bool
  | .inf n => n
  | .zero n => n
  | .fin m _ => decide (m < 0)
  | .nan => false

def fneg : FNum → FNum
  | .nan => .nan
  | .inf n => .inf !n
  | .zero n => .zero !n
  | .fin m e => .fin (-m) e

def fabs (x : FNum) : FNum := if isNeg x then fneg x else x

/-- The exact product (Table 5.7 for special operands). -/
def fmul : FNum → FNum → FNum
  | .nan, _ => .nan
  | _, .nan => .nan
  | .inf a, y => if isZero y then .nan else .inf (a != isNeg y)
  | x, .inf b => if isZero x then .nan else .inf (isNeg x != b)
  | .zero a, y => .zero (a != isNeg y)
  | x, .zero b => .zero (isNeg x != b)
  | .fin m e, .fin n g => .fin (m * n) (e + g)

/-- The sum of two scaled integers. -/
def addFin (m e n g : Int) : FNum :=
  let lo := min e g
  ofInt (m * (2 ^ (e - lo).toNat : Nat) + n * (2 ^ (g - lo).toNat : Nat)) lo

/-- The exact sum by IEEE 754 rules; an exact zero of unlike signs is +0. -/
def fadd : FNum → FNum → FNum
  | .nan, _ => .nan
  | _, .nan => .nan
  | .inf a, .inf b => if a = b then .inf a else .nan
  | .inf a, _ => .inf a
  | _, .inf b => .inf b
  | .zero a, .zero b => .zero (a && b)
  | .zero _, y => y
  | x, .zero _ => x
  | .fin m e, .fin n g => addFin m e n g

/-- `x * 2^k`, exact. -/
def fscale (x : FNum) (k : Int) : FNum :=
  match x with
  | .fin m e => .fin m (e + k)
  | y => y

/-- Compares two finite or infinite values; zeros are equal. -/
def fltLt (x y : FNum) : Bool :=
  match x, y with
  | .nan, _ => false
  | _, .nan => false
  | .inf a, .inf b => a && !b
  | .inf a, _ => a
  | _, .inf b => !b
  | .zero _, .zero _ => false
  | .zero _, .fin n _ => decide (0 < n)
  | .fin m _, .zero _ => decide (m < 0)
  | .fin m e, .fin n g =>
    let lo := min e g
    decide (m * (2 ^ (e - lo).toNat : Nat) < n * (2 ^ (g - lo).toNat : Nat))

/-- Equality of values; zeros of either sign are equal, a NaN equals nothing (R207). -/
def fltEq (x y : FNum) : Bool := !isNan x && !isNan y && !fltLt x y && !fltLt y x

/-- Order for MIN and MAX, with -0 below +0 (R206). -/
def fltBelow (x y : FNum) : Bool :=
  match x, y with
  | .zero a, .zero b => a && !b
  | _, _ => fltLt x y

def fmin (x y : FNum) : FNum :=
  if isNan x || isNan y then .nan else if fltBelow y x then y else x

def fmax (x y : FNum) : FNum :=
  if isNan x || isNan y then .nan else if fltBelow x y then y else x

/-- floor of a finite value. -/
def ffloor : FNum → Int
  | .fin m e => if 0 ≤ e then m * (2 ^ e.toNat : Nat) else m / (2 ^ (-e).toNat : Nat)
  | _ => 0

/-- floor(log2 |x|) of a nonzero finite value. -/
def floorLog2 : FNum → Int
  | .fin m e => leadExp m.natAbs e
  | _ => 0

/-- Integer nearest to a finite value under a rounding mode. -/
def roundInt (rm : RMode) : FNum → Int
  | .fin m e => signed (decide (m < 0)) (roundAt rm m.natAbs e 0)
  | _ => 0

def iclamp (lo hi v : Int) : Int := if v < lo then lo else if hi < v then hi else v

/-- The flags an operation may set. -/
structure Flg where
  nan : Bool := false
  inf : Bool := false
  ovf : Bool := false
  cvt : Bool := false
  deriving DecidableEq, Repr

def Flg.or (a b : Flg) : Flg := ⟨a.nan || b.nan, a.inf || b.inf, a.ovf || b.ovf, a.cvt || b.cvt⟩

/-- Flags of one rounded float result (R221): NAN from no NaN, INF from finite inputs, OVF where a finite value overflows.
    (DEDUCED, log entry 27.) -/
def fltFlags (ins : List FNum) (exact res : FNum) : Flg :=
  { nan := isNan res && !ins.any isNan
    inf := isInf res && ins.all isFinite
    ovf := isInf res && isFinite exact }

/-! FP32 operations on bit patterns, each rounded once (R210). -/

def f32 (b : Nat) : FNum := decodeFloat fp32 b

def add32 (a b : FNum) : FNum := rnd fp32 (fadd a b)
def mul32 (a b : FNum) : FNum := rnd fp32 (fmul a b)
def fma32 (a b c : FNum) : FNum := rnd fp32 (fadd (fmul a b) c)
def scale32 (y : FNum) (k : Int) : FNum := rnd fp32 (fscale y k)

/-! VL128 (R154, R155). -/

abbrev VL := BitVec 128

def vlMax : Int := 2 ^ 127 - 3
def vlPosSat : Int := 2 ^ 127 - 2
def vlNegSat : Int := -(2 ^ 127) + 2
def vlPosInf : Int := 2 ^ 127 - 1
def vlNegInf : Int := -(2 ^ 127) + 1
def vlNan : Int := -(2 ^ 127)

/-- What a VL128 word stands for (Table 5.4). -/
inductive VClass where
  | fin (w : Int)
  | sat (neg : Bool)
  | inf (neg : Bool)
  | nan
  deriving DecidableEq, Repr

def vclass (w : VL) : VClass :=
  let v := w.toInt
  if v = vlNan then .nan
  else if v = vlNegInf then .inf true
  else if v = vlPosInf then .inf false
  else if v = vlNegSat then .sat true
  else if v = vlPosSat then .sat false
  else .fin v

def vword : VClass → VL
  | .nan => BitVec.ofInt 128 vlNan
  | .inf true => BitVec.ofInt 128 vlNegInf
  | .inf false => BitVec.ofInt 128 vlPosInf
  | .sat true => BitVec.ofInt 128 vlNegSat
  | .sat false => BitVec.ofInt 128 vlPosSat
  | .fin w => BitVec.ofInt 128 w

/-- A finite exact sum, saturated where it leaves the finite range. -/
def vfin (w : Int) : VClass := if vlMax < w then .sat false else if w < -vlMax then .sat true else .fin w

/-- Table 5.5. -/
def vaddClass : VClass → VClass → VClass
  | .nan, _ => .nan
  | _, .nan => .nan
  | .inf a, .inf b => if a = b then .inf a else .nan
  | .inf a, _ => .inf a
  | _, .inf b => .inf b
  | .sat a, .sat b => if a = b then .sat a else .nan
  | .sat a, .fin _ => .sat a
  | .fin _, .sat b => .sat b
  | .fin x, .fin y => vfin (x + y)

/-- Flags of a VL128 result (Table 5.5). -/
def vflags : VClass → Flg
  | .nan => { nan := true }
  | .inf _ => { inf := true }
  | .sat _ => { ovf := true }
  | .fin _ => {}

/-- VL128 addition with its flags (R155). -/
def vladd (x y : VL) : VL × Flg :=
  let c := vaddClass (vclass x) (vclass y)
  (vword c, vflags c)

/-- `p / 2^anchor` truncated toward zero (R158). -/
def truncAt (m e anchor : Int) : Int :=
  if anchor ≤ e then m * (2 ^ (e - anchor).toNat : Nat)
  else Int.tdiv m (2 ^ (anchor - e).toNat : Nat)

/-- The contribution of one exact product to a VL128 sum (R158, Table 5.7). -/
def vcontrib (anchor : Int) : FNum → VClass
  | .nan => .nan
  | .inf n => .inf n
  | .zero _ => .fin 0
  | .fin m e =>
    let t := truncAt m e anchor
    if vlPosSat ≤ t then .sat false else if t ≤ vlNegSat then .sat true else .fin t

/-- A sum of contributions before it meets the accumulator: exact on finite words, by Table 5.5 on the others (R164). -/
def vaddExact : VClass → VClass → VClass
  | .fin x, .fin y => .fin (x + y)
  | a, b => vaddClass a b

/-- A value on its way out of an accumulator: an exact value, or a saturated sum. -/
inductive OutVal where
  | num (x : FNum)
  | sat (neg : Bool)
  deriving DecidableEq, Repr

/-- The value of a VL128 word under an anchor (Table 5.4). -/
def vvalue (w : VL) (anchor : Int) : OutVal :=
  match vclass w with
  | .nan => .num .nan
  | .inf n => .num (.inf n)
  | .sat n => .sat n
  | .fin v => .num (ofInt v anchor)

/-- Conversion out of an accumulator (R167, Table 5.8): the code, and whether CVT is set. -/
def convOut (c : Nat) (v : OutVal) : Nat × Bool :=
  match elemOf c with
  | .flt f =>
    let beyond (neg : Bool) : Nat × Bool :=
      if f.top = .ieee then (encodeFloat f (.inf neg), false) else (encodeFloat f (maxFin f neg), true)
    match v with
    | .sat neg => beyond neg
    | .num (.inf neg) => beyond neg
    | .num .nan => (nanCode f, f.top = .plain)
    | .num (.zero _) => (0, false)
    | .num (.fin m e) =>
      match roundFin f .nearestEven m e with
      | .small neg => (signBit f neg, false)
      | .fits q u => (encodeFloat f (.fin q u), false)
      | .past neg => beyond neg
  | .int n _ =>
    let hi : Int := 2 ^ (n - 1) - 1
    let lo : Int := -(2 ^ (n - 1))
    match v with
    | .sat neg => (low n (if neg then lo else hi), true)
    | .num (.inf neg) => (low n (if neg then lo else hi), true)
    | .num .nan => (0, true)
    | .num x =>
      let r := roundInt .nearestEven x
      (low n (iclamp lo hi r), decide (r < lo ∨ hi < r))

/-- EMAX of Table 6.8. -/
def emaxOf : Nat → Int
  | 0 | 9 => 8
  | 1 | 10 => 15
  | 2 | 11 => 2
  | 3 | 12 => 4
  | 4 | 13 => 2
  | 5 => 6
  | 14 => 0
  | 6 => 2
  | _ => 0

/-- R188: the E8M0 byte of a block or row whose largest magnitude is `m`. -/
def scaleByte (m : FNum) (fmt : Nat) : Nat :=
  match m with
  | .nan => 0xFF
  | .inf _ => 0xFF
  | .zero _ => 0
  | x => (iclamp (-127) 127 (floorLog2 x - emaxOf fmt) + 127).toNat

/-- R188: quantizes `v` under scale byte `s`; a zero of either sign gives +0 (R187). A NaN under a scale other than 0xFF
    gives the format's NaN, or 0 where it has none (DESIGN CHOICE, log entry 131). -/
def quant (v : FNum) (s fmt : Nat) : Nat :=
  match elemOf fmt with
  | .flt f =>
    if s = 0xFF then nanCode f
    else match fscale v (127 - (s : Int)) with
      | .nan => nanCode f
      | .inf neg => encodeFloat f (maxFin f neg)
      | .zero _ => 0
      | .fin m e =>
        match roundFin f .nearestEven m e with
        | .small neg => signBit f neg
        | .fits q u => encodeFloat f (.fin q u)
        | .past neg => encodeFloat f (maxFin f neg)
  | .int n sc =>
    let hi : Int := 2 ^ (n - 1) - 1
    if s = 0xFF then 0
    else match fscale v (127 - (s : Int) - sc) with
      | .nan => 0
      | .inf neg => low n (if neg then -hi else hi)
      | x => low n (iclamp (-hi) hi (roundInt .nearestEven x))

/-- The value of an E8M0 scale byte: its exponent, or NaN for 0xFF (R148). -/
def e8m0 (b : Nat) : FNum := if b = 0xFF then .nan else .fin 1 ((b : Int) - 127)

/-- Element `n` of a packed run of elements of `w` bits, read as one little-endian number (R146). -/
def packedAt (bytes w n : Nat) : Nat := (bytes / 2 ^ (w * n)) % 2 ^ w

/-- Packs element codes, the first lowest (R146). -/
def packCodes (w : Nat) : List Nat → Nat
  | [] => 0
  | c :: cs => c % 2 ^ w + 2 ^ w * packCodes w cs

end Sys2Proof.Machine
end

