-- ==== Sys2Proof/Machine/Flags.lean ====
section
/-! DEFINITION. How the flags of an operation land in the status registers: VEC_STATUS (Table 7.8), CUB_STATUS
(Table 5.9), HBM_CH_ATOM and HBM_SC STATUS. -/

namespace Sys2Proof.Machine

def flagBit (b : Bool) (n : Nat) : Nat := if b then 2 ^ n else 0

/-- VEC_STATUS bits: NAN 0, INF 1, OVF 2, CVT 3. -/
def Flg.vec (f : Flg) : Word :=
  BitVec.ofNat 64 (flagBit f.nan 0 + flagBit f.inf 1 + flagBit f.ovf 2 + flagBit f.cvt 3)

/-- CUB_STATUS bits of accumulator `n`: INF n, OVF 8 + n, NAN 16 + n, CVT 24 + n. -/
def Flg.cub (f : Flg) (n : Nat) : Word :=
  BitVec.ofNat 64 (flagBit f.inf n + flagBit f.ovf (8 + n) + flagBit f.nan (16 + n) + flagBit f.cvt (24 + n))

/-- The flags of a list of elements together. -/
def Flg.all : List Flg → Flg
  | [] => {}
  | f :: fs => f.or (Flg.all fs)

end Sys2Proof.Machine
end

