-- ==== Sys2Proof/Config.lean ====
section
/-! DEFINITION. What the spec leaves open: constants with no body, so that no proof can see a value. -/

namespace Sys2Proof.Config

/-- Cycles of a unit's PLL output since the Drone tick edge or since its last item, by draw (R41; DESIGN CHOICE, log entry 1). -/
opaque cycles : Nat → Nat

/-- A byte the spec leaves undefined, by draw (R113, R219, R487; DESIGN CHOICE, log entry 1). -/
opaque freeByte : Nat → Byte

/-- A word the spec leaves undefined, by draw (DESIGN CHOICE, log entry 1). -/
opaque freeWord : Nat → BitVec 64

/-- A choice the spec leaves open, by draw (DESIGN CHOICE, log entry 1). -/
opaque choice : Nat → Bool

/-- A byte of an HBM device whose contents a die reset has left undefined (Table 16.3), by draw and place (DESIGN CHOICE, log entry 1). -/
opaque lostByte : Nat → Nat → Byte

/-- The shared-cache set that a granule of HBM falls in (R248 gives 16 ways and no index function; DESIGN CHOICE, log entry 6). -/
opaque cacheSet : Nat → Nat

/-- Cells of a fabric VC's buffer at a port of the Tenon crossing beyond those of the longest packet (R297 gives no size;
    DESIGN CHOICE, log entry 138). -/
opaque fabCells : Nat → Nat

/-- A place in what is left of a list to be taken in an order that the spec leaves open, by draw and step (DESIGN CHOICE, log entry 31). -/
opaque pick : Nat → Nat → Nat

/-- A code of the spec's classes 0x1 to 0xA (R474): where the bits given lie in a reserved class, class 0x1 takes its place. -/
def inClass (c : BitVec 16) : BitVec 16 :=
  if 0x1000 ≤ c.toNat ∧ c.toNat < 0xB000 then c else BitVec.ofNat 16 (0x1000 + c.toNat % 0x1000)

/-- CODE of a credit-return record (R79) and of a queue's NOTE record (R306, Table 14.3): the spec names no code (DESIGN CHOICE, log entry 7). -/
opaque creditBits : BitVec 16
opaque noteBits : BitVec 16
def creditCode : BitVec 16 := inClass creditBits
def noteCode : BitVec 16 := inClass noteBits

/-- The engine of a tile whose unit field a report about the tile as a whole carries (0x1_041, 0x1_042, 0x1_0A0,
    0x1_0A1: the spec names no unit; DESIGN CHOICE, log entry 8). -/
opaque tileReporter : Nat → BitVec 2

/-- The source unit of a code for which no rule names one (0x1_043, 0x1_0C0 to 0x1_0C2, 0x1_0D0 to 0x1_0D2 and others;
    DESIGN CHOICE, log entry 8). -/
opaque openUnit : Nat → BitVec 16

/-- The code with which an access completes where the spec says that it completes with error and names no code
    (R425 for a powered-off Reed's registers, R227 for a ring entry that cannot be read; DESIGN CHOICE, log entry 8). -/
opaque openCodeBits : Nat → BitVec 16
def openCode (n : Nat) : BitVec 16 := inClass (openCodeBits n)

/-- The manufacture area of flash, by offset (R455): fixed when the module is made. -/
opaque factoryByte : Nat → Byte

/-- The CERTS item (R455), and the public key in its leaf certificate. -/
opaque certs : List Byte
opaque leafKey : List Byte → List Byte

/-- The boot ROM's contents (R466) and the image-key digest that it holds (R459). -/
opaque romContents : List Byte
opaque imageKeyDigest : List Byte

/-- The requests that the known-answer table of a firmware image answers: KIND, ITER, SEED and ARITH_REV of each (R490). -/
opaque katKeys : List Byte → List (BitVec 64)

/-- A Chatter kernel in a firmware image, by KIND (R490). -/
opaque kernel : List Byte → Nat → List Byte

/-- A tile's Chatter signature: image and request decide it (R488, R490). -/
opaque chatterSig : List Byte → BitVec 64 → BitVec 64

end Sys2Proof.Config
end

