-- ==== Sys2Proof/Machine/RegMap.lean ====
section
/-! DEFINITION. Control space: every register's address, and its fields with type, reset value and reset code
(R9 to R13, R34, R102, R139, R169, R172, R184, R198, R221, R225, R272, R295, R333, R359, R394, R420, R444, R472, R496). -/

namespace Sys2Proof.Machine

/-- Register field types (Table 0.6). -/
inductive RType where
  | rw | ro | w1c | wo | rwl
  deriving DecidableEq, Repr

/-- Reset codes (R13), widest first. -/
inductive RCode where
  | kept | c | m | d | t
  deriving DecidableEq, Repr

/-- One field of a register map. -/
structure RField where
  hi : Nat
  lo : Nat
  ty : RType
  reset : Nat
  code : RCode
  deriving DecidableEq, Repr

/-- The registers of the module, one name per register map. -/
inductive Kind where
  | paramId
  | paramDie
  | paramTile
  | paramMem
  | paramUnit
  | paramNet
  | paramClk
  | drnNow
  | drnAlign
  | tileStatus
  | tileCtrl
  | tileLq
  | tileSem
  | tileSemadd
  | tileGrp
  | tileIbank
  | cubStatus
  | cubAcc
  | cubFstat
  | cubFdW0
  | cubFdW1
  | cubFdW2
  | cubFdW3
  | cubAct
  | cubCexp
  | cubRmax
  | vecStatus
  | reedRing
  | reedTail
  | reedStatus
  | reedCtrl
  | hbmRgnBase
  | hbmRgnSize
  | hbmRgnCtrl
  | hbmRgnDev
  | hbmExcl
  | hbmCap
  | hbmChCtrl
  | hbmChStatus
  | hbmChAtom
  | hbmScCtrl
  | hbmScStatus
  | tenLinkStatus
  | tenLinkCnt
  | tenLinkSpare
  | tenDieCtrl
  | tenDieStatus
  | tenModstat
  | tenMap
  | fabCfg
  | fabBoard
  | fabEpoch
  | fabTimer
  | fabPortStatus
  | fabPortDrop
  | fabPortPkts
  | fabMqRing
  | fabMqPtr
  | fabMqNote
  | fabRouteA
  | fabRouteB
  | fabMc
  | fabFlowCfg
  | fabFlowState
  | belCtrl
  | belPeer
  | belStatus
  | belLanes
  | belLockmap
  | belFec
  | belTemp
  | belRingT
  | belRingR
  | belXt
  | belLp
  | chnGrpCtrl
  | chnGrpBlk
  | chnGrpStage
  | chnGrpStat
  | chnLaneStatus
  | chnLaneBar
  | chnLaneLate
  | chnLaneCtrl
  | chnMap
  | chnRsd
  | hlStatus
  | hlDqRing
  | hlDqPtr
  | hlDqCtrl
  | hlEvtRing
  | hlEvtPtr
  | mgtSite
  | mgtFmHi
  | mgtFmLo
  | mgtCtrl
  | mgtDly
  | pwrCtrl
  | pwrStatus
  | pwrDom
  | thmCtrl
  | thmHold
  | thmDie
  | thmSens
  | nvsCmd
  | nvsAddr
  | nvsLen
  | nvsStatus
  | nvsCtrl
  | secCtrl
  | secStatus
  | secQaddr
  | secNonce
  | secExtd
  | secM
  | vrxState
  | vrxStby
  | mgtStorm
  | mgtKfn
  | mgtKfns
  | mgtChatc
  | mgtChats
  | mgtChatx
  | mgtChata
  | mgtPairCtrl
  | mgtPairStat
  deriving DecidableEq, Repr

/-- A register: its map, and its two indices within the block (instance, and place within the instance). -/
structure Reg where
  kind : Kind
  i : Nat
  j : Nat
  deriving DecidableEq, Repr

/-- Where a map's registers lie: `base + i * si + j * sj`. -/
structure Place where
  kind : Kind
  base : Nat
  ni : Nat
  si : Nat
  nj : Nat
  sj : Nat
  deriving DecidableEq, Repr

/-- The fields of a register map, high to low; bits in no field are reserved (R10). -/
def kindFields : Kind → List RField
  | .paramId => [⟨63, 48, .ro, 0x2700, .kept⟩, ⟨47, 40, .ro, 8, .kept⟩, ⟨39, 36, .ro, 2, .kept⟩, ⟨35, 32, .ro, 1, .kept⟩, ⟨31, 24, .ro, 0, .m⟩, ⟨23, 16, .ro, 1, .kept⟩]
  | .paramDie => [⟨19, 16, .ro, 2, .kept⟩, ⟨15, 8, .ro, 0x10, .kept⟩, ⟨7, 4, .ro, 4, .kept⟩, ⟨3, 0, .ro, 8, .kept⟩]
  | .paramTile => [⟨63, 56, .ro, 0x10, .kept⟩, ⟨55, 48, .ro, 0x10, .kept⟩, ⟨47, 44, .ro, 8, .kept⟩, ⟨43, 40, .ro, 8, .kept⟩, ⟨39, 32, .ro, 0x20, .kept⟩, ⟨31, 24, .ro, 0x20, .kept⟩, ⟨23, 20, .ro, 2, .kept⟩, ⟨17, 12, .ro, 0x10, .kept⟩, ⟨11, 6, .ro, 0xf, .kept⟩, ⟨5, 0, .ro, 0x12, .kept⟩]
  | .paramMem => [⟨63, 48, .ro, 0x9000, .kept⟩, ⟨47, 40, .ro, 0x20, .kept⟩, ⟨39, 32, .ro, 0x10, .kept⟩, ⟨31, 28, .ro, 2, .kept⟩, ⟨27, 22, .ro, 0x19, .kept⟩, ⟨21, 16, .ro, 6, .kept⟩, ⟨15, 8, .ro, 0x40, .kept⟩, ⟨7, 0, .ro, 0x40, .kept⟩]
  | .paramUnit => [⟨63, 48, .ro, 0x200, .kept⟩, ⟨47, 42, .ro, 0x11, .kept⟩, ⟨35, 32, .ro, 4, .kept⟩, ⟨31, 24, .ro, 0x40, .kept⟩, ⟨23, 16, .ro, 0x80, .kept⟩, ⟨15, 0, .ro, 0x100, .kept⟩]
  | .paramNet => [⟨63, 48, .ro, 0x1000, .kept⟩, ⟨47, 44, .ro, 6, .kept⟩, ⟨43, 40, .ro, 4, .kept⟩, ⟨39, 32, .ro, 0x20, .kept⟩, ⟨31, 24, .ro, 8, .kept⟩, ⟨23, 16, .ro, 0x10, .kept⟩, ⟨15, 0, .ro, 0x1000, .kept⟩]
  | .paramClk => [⟨63, 48, .ro, 0x44c, .kept⟩, ⟨47, 32, .ro, 0x640, .kept⟩, ⟨31, 16, .ro, 0x320, .kept⟩, ⟨15, 0, .ro, 0x61a8, .kept⟩]
  | .drnNow => [⟨63, 0, .ro, 0, .c⟩]
  | .drnAlign => [⟨63, 63, .ro, 0, .m⟩, ⟨62, 62, .ro, 0, .m⟩, ⟨61, 61, .ro, 0, .m⟩, ⟨60, 60, .ro, 1, .m⟩, ⟨55, 48, .ro, 0, .m⟩, ⟨45, 40, .ro, 0, .m⟩, ⟨31, 0, .ro, 0, .m⟩]
  | .tileStatus => [⟨63, 63, .ro, 0, .t⟩, ⟨62, 62, .ro, 1, .c⟩, ⟨61, 61, .ro, 1, .c⟩, ⟨47, 32, .w1c, 0, .t⟩, ⟨15, 12, .ro, 0, .t⟩, ⟨11, 8, .ro, 0, .t⟩, ⟨7, 4, .ro, 0, .t⟩, ⟨3, 0, .ro, 0, .t⟩]
  | .tileCtrl => [⟨8, 8, .wo, 0, .t⟩, ⟨3, 0, .wo, 0, .t⟩]
  | .tileLq => [⟨63, 48, .ro, 0, .t⟩, ⟨47, 44, .ro, 0, .t⟩, ⟨43, 32, .ro, 0, .t⟩, ⟨31, 31, .ro, 0, .c⟩, ⟨20, 16, .ro, 0, .t⟩, ⟨15, 0, .ro, 0, .t⟩]
  | .tileSem => [⟨15, 0, .rw, 0, .t⟩]
  | .tileSemadd => [⟨19, 16, .wo, 0, .t⟩, ⟨7, 0, .wo, 0, .t⟩]
  | .tileGrp => [⟨63, 63, .rw, 0, .m⟩, ⟨39, 32, .rw, 0, .m⟩, ⟨29, 24, .rw, 0, .m⟩, ⟨20, 16, .rw, 0, .m⟩, ⟨13, 8, .rw, 0, .m⟩, ⟨4, 0, .rw, 0, .m⟩]
  | .tileIbank => [⟨8, 8, .w1c, 0, .t⟩, ⟨7, 4, .ro, 0, .t⟩, ⟨1, 1, .wo, 0, .t⟩, ⟨0, 0, .ro, 0, .c⟩]
  | .cubStatus => [⟨31, 24, .w1c, 0, .t⟩, ⟨23, 16, .w1c, 0, .t⟩, ⟨15, 8, .w1c, 0, .t⟩, ⟨7, 0, .w1c, 0, .t⟩]
  | .cubAcc => [⟨63, 63, .ro, 0, .t⟩, ⟨56, 48, .ro, 0, .t⟩, ⟨47, 47, .ro, 0, .t⟩, ⟨40, 32, .ro, 0, .t⟩, ⟨31, 31, .ro, 0, .t⟩, ⟨24, 16, .ro, 0, .t⟩, ⟨15, 15, .ro, 0, .t⟩, ⟨8, 0, .ro, 0, .t⟩]
  | .cubFstat => [⟨2, 2, .w1c, 0, .t⟩, ⟨1, 1, .w1c, 0, .t⟩, ⟨0, 0, .w1c, 0, .t⟩]
  | .cubFdW0 => [⟨63, 63, .rw, 0, .t⟩, ⟨62, 62, .rw, 0, .t⟩, ⟨61, 60, .rw, 0, .t⟩, ⟨59, 56, .rw, 0, .t⟩, ⟨55, 55, .rw, 0, .t⟩, ⟨54, 54, .rw, 0, .t⟩, ⟨53, 52, .rw, 0, .t⟩, ⟨50, 48, .rw, 0, .t⟩, ⟨47, 46, .rw, 0, .t⟩, ⟨45, 45, .rw, 0, .t⟩, ⟨44, 42, .rw, 0, .t⟩, ⟨41, 41, .rw, 0, .t⟩, ⟨40, 40, .rw, 0, .t⟩, ⟨39, 38, .rw, 0, .t⟩, ⟨37, 35, .rw, 0, .t⟩, ⟨34, 34, .rw, 0, .t⟩, ⟨33, 33, .rw, 0, .t⟩, ⟨32, 32, .rw, 0, .t⟩, ⟨31, 30, .rw, 0, .t⟩, ⟨29, 27, .rw, 0, .t⟩, ⟨26, 25, .rw, 0, .t⟩, ⟨24, 24, .rw, 0, .t⟩, ⟨23, 21, .rw, 0, .t⟩, ⟨20, 18, .rw, 0, .t⟩, ⟨17, 16, .rw, 0, .t⟩]
  | .cubFdW1 => [⟨63, 32, .rw, 0, .t⟩, ⟨31, 0, .rw, 0, .t⟩]
  | .cubFdW2 => [⟨63, 48, .rw, 0, .t⟩, ⟨47, 32, .rw, 0, .t⟩, ⟨31, 24, .rw, 0, .t⟩, ⟨23, 20, .rw, 0, .t⟩, ⟨19, 0, .rw, 0, .t⟩]
  | .cubFdW3 => []
  | .cubAct => [⟨63, 32, .rw, 0, .t⟩, ⟨31, 0, .rw, 0, .t⟩]
  | .cubCexp => [⟨63, 56, .ro, 0, .t⟩, ⟨55, 48, .ro, 0, .t⟩, ⟨47, 40, .ro, 0, .t⟩, ⟨39, 32, .ro, 0, .t⟩, ⟨31, 24, .ro, 0, .t⟩, ⟨23, 16, .ro, 0, .t⟩, ⟨15, 8, .ro, 0, .t⟩, ⟨7, 0, .ro, 0, .t⟩]
  | .cubRmax => [⟨63, 32, .ro, 0, .t⟩, ⟨31, 0, .ro, 0, .t⟩]
  | .vecStatus => [⟨3, 3, .w1c, 0, .t⟩, ⟨2, 2, .w1c, 0, .t⟩, ⟨1, 1, .w1c, 0, .t⟩, ⟨0, 0, .w1c, 0, .t⟩]
  | .reedRing => [⟨51, 48, .rw, 0, .d⟩, ⟨47, 6, .rw, 0, .d⟩]
  | .reedTail => [⟨15, 0, .rw, 0, .d⟩]
  | .reedStatus => [⟨63, 60, .ro, 0, .d⟩, ⟨59, 44, .ro, 0, .d⟩, ⟨43, 28, .ro, 0, .d⟩, ⟨19, 19, .ro, 0, .d⟩, ⟨18, 18, .w1c, 0, .d⟩, ⟨17, 17, .w1c, 0, .d⟩, ⟨16, 16, .w1c, 0, .d⟩, ⟨15, 0, .ro, 0, .d⟩]
  | .reedCtrl => [⟨0, 0, .wo, 0, .d⟩]
  | .hbmRgnBase => [⟨39, 6, .rw, 0, .m⟩]
  | .hbmRgnSize => [⟨39, 6, .rw, 0, .m⟩]
  | .hbmRgnCtrl => [⟨63, 63, .rw, 0, .m⟩, ⟨62, 62, .rw, 0, .m⟩, ⟨61, 61, .rw, 0, .m⟩, ⟨60, 59, .rw, 0, .m⟩, ⟨52, 48, .rw, 0, .m⟩, ⟨47, 44, .rw, 0, .m⟩, ⟨23, 0, .rw, 0, .m⟩]
  | .hbmRgnDev => [⟨21, 0, .rw, 0, .m⟩]
  | .hbmExcl => [⟨5, 5, .rw, 0, .m⟩, ⟨4, 0, .rw, 0, .m⟩]
  | .hbmCap => [⟨19, 0, .ro, 0x90000, .m⟩]
  | .hbmChCtrl => [⟨23, 8, .rw, 0x40, .m⟩, ⟨2, 2, .wo, 0, .m⟩, ⟨1, 1, .rw, 0, .m⟩]
  | .hbmChStatus => [⟨63, 60, .ro, 4, .m⟩, ⟨59, 52, .ro, 0, .m⟩, ⟨51, 50, .ro, 0, .m⟩, ⟨49, 48, .ro, 0, .m⟩, ⟨47, 32, .ro, 0, .m⟩, ⟨31, 16, .ro, 0, .m⟩, ⟨0, 0, .w1c, 0, .m⟩]
  | .hbmChAtom => [⟨2, 2, .w1c, 0, .m⟩, ⟨1, 1, .w1c, 0, .m⟩, ⟨0, 0, .w1c, 0, .m⟩]
  | .hbmScCtrl => [⟨0, 0, .wo, 0, .d⟩]
  | .hbmScStatus => [⟨63, 63, .ro, 0, .d⟩, ⟨34, 34, .w1c, 0, .d⟩, ⟨33, 33, .w1c, 0, .d⟩, ⟨32, 32, .w1c, 0, .d⟩, ⟨31, 0, .ro, 0, .d⟩]
  | .tenLinkStatus => [⟨63, 60, .ro, 0, .m⟩, ⟨59, 44, .ro, 0, .m⟩, ⟨43, 28, .ro, 0, .m⟩]
  | .tenLinkCnt => [⟨63, 48, .ro, 0, .m⟩, ⟨47, 32, .ro, 0, .m⟩, ⟨31, 0, .ro, 0, .m⟩]
  | .tenLinkSpare => [⟨63, 32, .ro, 0, .m⟩, ⟨31, 0, .ro, 0, .m⟩]
  | .tenDieCtrl => [⟨4, 4, .wo, 0, .m⟩, ⟨3, 3, .wo, 0, .m⟩, ⟨2, 2, .wo, 0, .m⟩, ⟨0, 0, .rw, 0, .m⟩]
  | .tenDieStatus => [⟨63, 60, .ro, 0, .m⟩, ⟨59, 56, .ro, 0, .m⟩, ⟨55, 55, .ro, 0, .m⟩, ⟨52, 52, .ro, 0, .m⟩, ⟨51, 48, .ro, 0, .m⟩, ⟨15, 0, .ro, 0, .m⟩]
  | .tenModstat => [⟨63, 60, .ro, 0, .c⟩]
  | .tenMap => [⟨7, 7, .ro, 0, .m⟩, ⟨6, 6, .ro, 0, .m⟩, ⟨4, 0, .ro, 0, .m⟩]
  | .fabCfg => [⟨63, 63, .rw, 0, .m⟩, ⟨62, 62, .rw, 0, .m⟩, ⟨55, 50, .rw, 0, .m⟩, ⟨47, 43, .rw, 0, .m⟩, ⟨42, 38, .rw, 0, .m⟩, ⟨37, 36, .rw, 0, .m⟩, ⟨15, 0, .rw, 0, .m⟩]
  | .fabBoard => [⟨63, 0, .rw, 0, .m⟩]
  | .fabEpoch => [⟨63, 63, .rw, 0, .m⟩, ⟨62, 62, .w1c, 0, .m⟩, ⟨31, 0, .ro, 0, .m⟩]
  | .fabTimer => [⟨47, 32, .rw, 0x14, .m⟩, ⟨23, 16, .rw, 0xa, .m⟩, ⟨1, 0, .rw, 3, .m⟩]
  | .fabPortStatus => [⟨63, 60, .ro, 0, .m⟩]
  | .fabPortDrop => [⟨63, 32, .ro, 0, .m⟩, ⟨31, 16, .ro, 0, .m⟩, ⟨15, 0, .ro, 0, .m⟩]
  | .fabPortPkts => [⟨63, 0, .ro, 0, .m⟩]
  | .fabMqRing => [⟨63, 63, .rw, 0, .m⟩, ⟨51, 48, .rw, 0, .m⟩, ⟨47, 6, .rw, 0, .m⟩]
  | .fabMqPtr => [⟨31, 16, .ro, 0, .m⟩, ⟨15, 0, .rw, 0, .m⟩]
  | .fabMqNote => [⟨63, 62, .rw, 0, .m⟩, ⟨61, 49, .rw, 0, .m⟩, ⟨48, 45, .rw, 0, .m⟩, ⟨0, 0, .w1c, 0, .m⟩]
  | .fabRouteA => [⟨63, 63, .rw, 0, .m⟩, ⟨13, 8, .rw, 0, .m⟩, ⟨5, 0, .rw, 0, .m⟩]
  | .fabRouteB => [⟨63, 63, .rw, 0, .m⟩, ⟨13, 8, .rw, 0, .m⟩, ⟨5, 0, .rw, 0, .m⟩]
  | .fabMc => [⟨63, 63, .rw, 0, .m⟩, ⟨14, 0, .rw, 0, .m⟩]
  | .fabFlowCfg => [⟨63, 63, .rw, 0, .m⟩, ⟨62, 62, .rw, 0, .m⟩, ⟨61, 60, .rw, 0, .m⟩, ⟨59, 59, .ro, 0, .m⟩, ⟨56, 48, .rw, 0, .m⟩, ⟨31, 16, .rw, 0, .m⟩, ⟨15, 0, .rw, 0, .m⟩]
  | .fabFlowState => [⟨63, 63, .wo, 0, .m⟩, ⟨47, 32, .ro, 0, .m⟩, ⟨31, 16, .ro, 0, .m⟩, ⟨4, 0, .ro, 0, .m⟩]
  | .belCtrl => [⟨63, 63, .rw, 0, .m⟩, ⟨62, 62, .wo, 0, .m⟩, ⟨31, 0, .rw, 0, .m⟩]
  | .belPeer => [⟨63, 63, .rw, 0, .m⟩, ⟨50, 48, .rw, 0, .m⟩, ⟨15, 0, .rw, 0, .m⟩]
  | .belStatus => [⟨63, 60, .ro, 0, .d⟩, ⟨59, 54, .ro, 0, .d⟩, ⟨53, 53, .ro, 0, .d⟩, ⟨50, 48, .ro, 0, .d⟩, ⟨47, 40, .ro, 0, .d⟩, ⟨31, 16, .ro, 0, .d⟩, ⟨15, 8, .ro, 0, .d⟩]
  | .belLanes => [⟨63, 32, .ro, 0, .d⟩, ⟨31, 0, .ro, 0, .d⟩]
  | .belLockmap => [⟨31, 0, .rw, 0, .m⟩]
  | .belFec => [⟨63, 32, .ro, 0, .d⟩, ⟨31, 0, .ro, 0, .d⟩]
  | .belTemp => [⟨47, 40, .rw, 0, .m⟩, ⟨15, 8, .ro, 0, .d⟩, ⟨0, 0, .ro, 0, .d⟩]
  | .belRingT => [⟨63, 60, .ro, 0, .d⟩, ⟨59, 58, .ro, 0, .d⟩, ⟨57, 48, .ro, 0, .d⟩, ⟨47, 24, .rw, 0xf2a584, .m⟩, ⟨9, 0, .ro, 0, .d⟩]
  | .belRingR => [⟨63, 60, .ro, 0, .d⟩, ⟨57, 48, .ro, 0, .d⟩, ⟨47, 43, .ro, 0, .d⟩, ⟨23, 21, .ro, 0, .d⟩, ⟨20, 20, .ro, 0, .d⟩, ⟨9, 0, .ro, 0, .d⟩]
  | .belXt => [⟨63, 48, .rw, 0, .m⟩, ⟨47, 32, .rw, 0, .m⟩, ⟨31, 16, .rw, 0, .m⟩, ⟨15, 0, .rw, 0, .m⟩]
  | .belLp => [⟨63, 60, .ro, 0, .m⟩, ⟨47, 40, .ro, 0, .m⟩, ⟨15, 0, .ro, 0, .m⟩]
  | .chnGrpCtrl => [⟨63, 63, .rw, 0, .m⟩, ⟨62, 61, .rw, 0, .m⟩, ⟨60, 60, .rw, 0, .m⟩, ⟨59, 54, .rw, 0, .m⟩, ⟨53, 51, .rw, 0, .m⟩, ⟨50, 50, .rw, 0, .m⟩, ⟨47, 36, .rw, 0, .m⟩, ⟨35, 32, .rw, 0, .m⟩, ⟨31, 24, .rw, 0, .m⟩]
  | .chnGrpBlk => [⟨63, 59, .rw, 0, .m⟩, ⟨58, 53, .rw, 0, .m⟩, ⟨52, 48, .rw, 0, .m⟩, ⟨47, 43, .rw, 0, .m⟩, ⟨42, 37, .rw, 0, .m⟩, ⟨36, 32, .rw, 0, .m⟩, ⟨31, 30, .rw, 0, .m⟩, ⟨29, 27, .rw, 0, .m⟩, ⟨26, 25, .rw, 0, .m⟩]
  | .chnGrpStage => [⟨47, 6, .rw, 0, .m⟩]
  | .chnGrpStat => [⟨63, 48, .ro, 0, .m⟩, ⟨47, 44, .ro, 0, .m⟩, ⟨15, 0, .rw, 0, .m⟩]
  | .chnLaneStatus => [⟨63, 60, .ro, 0, .d⟩, ⟨59, 55, .ro, 0, .d⟩, ⟨54, 50, .ro, 0, .d⟩, ⟨35, 20, .ro, 0, .d⟩, ⟨3, 3, .w1c, 0, .d⟩, ⟨2, 2, .w1c, 0, .d⟩, ⟨1, 1, .w1c, 0, .d⟩, ⟨0, 0, .w1c, 0, .d⟩]
  | .chnLaneBar => [⟨63, 56, .ro, 0, .d⟩, ⟨55, 40, .ro, 0, .d⟩, ⟨39, 24, .ro, 0, .d⟩, ⟨23, 0, .ro, 0, .d⟩]
  | .chnLaneLate => [⟨63, 0, .ro, 0, .d⟩]
  | .chnLaneCtrl => [⟨0, 0, .wo, 0, .d⟩]
  | .chnMap => [⟨63, 48, .rw, 0, .m⟩, ⟨47, 32, .rw, 0, .m⟩, ⟨31, 16, .rw, 0, .m⟩, ⟨15, 0, .rw, 0, .m⟩]
  | .chnRsd => [⟨63, 0, .rw, 0, .m⟩]
  | .hlStatus => [⟨63, 62, .ro, 0, .m⟩, ⟨47, 32, .ro, 0, .m⟩, ⟨31, 16, .ro, 0, .m⟩, ⟨15, 0, .ro, 0, .m⟩]
  | .hlDqRing => [⟨63, 63, .rw, 0, .m⟩, ⟨55, 52, .rw, 0, .m⟩, ⟨51, 0, .rw, 0, .m⟩]
  | .hlDqPtr => [⟨31, 16, .ro, 0, .m⟩, ⟨15, 0, .rw, 0, .m⟩]
  | .hlDqCtrl => [⟨63, 62, .ro, 0, .m⟩, ⟨47, 32, .ro, 0, .m⟩, ⟨31, 16, .ro, 0, .m⟩, ⟨0, 0, .wo, 0, .m⟩]
  | .hlEvtRing => [⟨55, 52, .rw, 0, .m⟩, ⟨51, 0, .rw, 0, .m⟩]
  | .hlEvtPtr => [⟨31, 16, .ro, 0, .m⟩, ⟨15, 0, .rw, 0, .m⟩]
  | .mgtSite => [⟨63, 63, .wo, 0, .m⟩, ⟨62, 62, .ro, 0, .m⟩, ⟨61, 61, .rw, 0, .m⟩, ⟨60, 60, .rw, 0, .m⟩, ⟨59, 56, .rw, 0, .m⟩]
  | .mgtFmHi => [⟨63, 0, .rw, 0, .m⟩]
  | .mgtFmLo => [⟨63, 0, .rw, 0, .m⟩]
  | .mgtCtrl => [⟨0, 0, .wo, 0, .m⟩]
  | .mgtDly => [⟨63, 63, .rw, 0, .m⟩, ⟨31, 0, .rw, 0, .m⟩]
  | .pwrCtrl => [⟨47, 32, .rw, 0xa8c, .m⟩, ⟨31, 16, .rw, 0x64, .m⟩]
  | .pwrStatus => [⟨63, 48, .ro, 0, .m⟩, ⟨47, 32, .ro, 0, .m⟩, ⟨31, 16, .ro, 0, .m⟩, ⟨15, 12, .ro, 0, .m⟩]
  | .pwrDom => [⟨63, 62, .ro, 0, .m⟩, ⟨61, 60, .ro, 0, .m⟩, ⟨59, 56, .ro, 0, .m⟩, ⟨0, 0, .rw, 1, .m⟩]
  | .thmCtrl => [⟨63, 56, .rw, 0x69, .m⟩]
  | .thmHold => [⟨63, 63, .ro, 0, .m⟩, ⟨62, 62, .ro, 0, .m⟩, ⟨39, 32, .ro, 0, .m⟩, ⟨31, 0, .wo, 0, .m⟩]
  | .thmDie => [⟨63, 48, .ro, 0, .d⟩, ⟨47, 47, .ro, 0, .d⟩, ⟨46, 40, .ro, 0, .d⟩, ⟨39, 32, .ro, 0, .d⟩]
  | .thmSens => [⟨63, 48, .ro, 0, .d⟩, ⟨47, 47, .ro, 0, .d⟩]
  | .nvsCmd => [⟨63, 63, .wo, 0, .m⟩, ⟨62, 59, .rw, 0, .m⟩, ⟨55, 48, .rw, 0, .m⟩]
  | .nvsAddr => [⟨47, 0, .rw, 0, .m⟩]
  | .nvsLen => [⟨31, 0, .rw, 0, .m⟩]
  | .nvsStatus => [⟨63, 60, .ro, 0, .m⟩, ⟨47, 32, .ro, 0, .m⟩, ⟨31, 0, .ro, 0, .m⟩]
  | .nvsCtrl => [⟨1, 1, .rwl, 0, .m⟩, ⟨0, 0, .rwl, 0, .m⟩]
  | .secCtrl => [⟨7, 7, .wo, 0, .m⟩, ⟨6, 6, .wo, 0, .m⟩, ⟨5, 5, .rw, 0, .m⟩, ⟨1, 1, .rwl, 0, .m⟩, ⟨0, 0, .rwl, 0, .m⟩]
  | .secStatus => [⟨63, 63, .ro, 0, .m⟩, ⟨62, 62, .ro, 0, .m⟩, ⟨61, 61, .w1c, 0, .m⟩, ⟨47, 32, .ro, 0, .m⟩, ⟨31, 16, .ro, 0, .m⟩]
  | .secQaddr => [⟨47, 0, .rw, 0, .m⟩]
  | .secNonce => [⟨63, 0, .rw, 0, .m⟩]
  | .secExtd => [⟨63, 0, .rw, 0, .m⟩]
  | .secM => [⟨63, 0, .ro, 0, .m⟩]
  | .vrxState => [⟨63, 60, .ro, 0, .c⟩, ⟨59, 59, .ro, 0, .c⟩, ⟨58, 58, .ro, 0, .c⟩, ⟨57, 57, .ro, 0, .c⟩, ⟨55, 52, .ro, 0, .c⟩, ⟨31, 0, .ro, 0, .c⟩]
  | .vrxStby => [⟨63, 63, .wo, 0, .c⟩, ⟨62, 61, .rw, 0, .c⟩, ⟨60, 60, .rw, 0, .c⟩, ⟨51, 0, .rw, 0, .c⟩]
  | .mgtStorm => [⟨47, 32, .rw, 0x3e8, .m⟩, ⟨31, 16, .ro, 0, .m⟩, ⟨15, 8, .ro, 0, .m⟩]
  | .mgtKfn => [⟨63, 63, .wo, 0, .m⟩, ⟨62, 62, .wo, 0, .m⟩, ⟨51, 48, .wo, 0, .m⟩, ⟨47, 32, .wo, 0, .m⟩, ⟨15, 0, .wo, 0, .m⟩]
  | .mgtKfns => [⟨63, 63, .ro, 0, .m⟩, ⟨62, 62, .ro, 0, .m⟩, ⟨47, 32, .ro, 0, .m⟩, ⟨31, 16, .ro, 0, .m⟩, ⟨15, 0, .ro, 0, .m⟩]
  | .mgtChatc => [⟨63, 63, .wo, 0, .m⟩, ⟨62, 62, .rw, 0, .m⟩, ⟨61, 58, .rw, 0, .m⟩, ⟨57, 57, .rw, 0, .m⟩, ⟨56, 56, .rw, 0, .m⟩, ⟨53, 48, .rw, 0, .m⟩, ⟨47, 32, .rw, 0, .m⟩, ⟨31, 16, .rw, 0, .m⟩, ⟨12, 0, .rw, 0, .m⟩]
  | .mgtChats => [⟨63, 62, .ro, 0, .m⟩, ⟨31, 16, .ro, 0, .m⟩, ⟨15, 0, .ro, 0, .m⟩]
  | .mgtChatx => [⟨63, 0, .rw, 0, .m⟩]
  | .mgtChata => [⟨47, 0, .rw, 0, .m⟩]
  | .mgtPairCtrl => [⟨63, 63, .rw, 0, .m⟩, ⟨62, 62, .rw, 0, .m⟩, ⟨61, 61, .rw, 0, .m⟩, ⟨60, 60, .rw, 0, .m⟩, ⟨28, 16, .rw, 0, .m⟩, ⟨12, 0, .rw, 0, .m⟩]
  | .mgtPairStat => [⟨63, 63, .w1c, 0, .m⟩, ⟨62, 61, .ro, 0, .m⟩, ⟨31, 0, .ro, 0, .m⟩]

/-- Where registers lie, part 0. -/
def places0 : List Place :=
  [⟨.paramId, 0x030000000000, 1, 8, 1, 0x8⟩,
   ⟨.paramDie, 0x030000000008, 1, 8, 1, 0x8⟩,
   ⟨.paramTile, 0x030000000010, 1, 8, 1, 0x8⟩,
   ⟨.paramMem, 0x030000000018, 1, 8, 1, 0x8⟩,
   ⟨.paramUnit, 0x030000000020, 1, 8, 1, 0x8⟩,
   ⟨.paramNet, 0x030000000028, 1, 8, 1, 0x8⟩,
   ⟨.paramClk, 0x030000000030, 1, 8, 1, 0x8⟩,
   ⟨.drnNow, 0x030000001000, 1, 8, 1, 0x8⟩,
   ⟨.drnAlign, 0x030000001008, 1, 8, 1, 0x8⟩,
   ⟨.tileStatus, 0x030004000000, 8192, 0x1000, 1, 0x8⟩,
   ⟨.tileCtrl, 0x030004000008, 8192, 0x1000, 1, 0x8⟩,
   ⟨.tileLq, 0x030004000010, 8192, 0x1000, 4, 0x8⟩,
   ⟨.tileSem, 0x030004000040, 8192, 0x1000, 16, 0x8⟩,
   ⟨.tileSemadd, 0x0300040000C0, 8192, 0x1000, 1, 0x8⟩,
   ⟨.tileGrp, 0x030002000000, 64, 0x8, 1, 0x8⟩,
   ⟨.tileIbank, 0x030006000000, 8192, 0x8, 1, 0x8⟩,
   ⟨.cubStatus, 0x030007000000, 8192, 0x20, 1, 0x8⟩,
   ⟨.cubAcc, 0x030007000008, 8192, 0x20, 2, 0x8⟩,
   ⟨.cubFstat, 0x030008000000, 8192, 0x200, 1, 0x8⟩,
   ⟨.cubFdW0, 0x030008000020, 8192, 0x200, 15, 0x20⟩,
   ⟨.cubFdW1, 0x030008000028, 8192, 0x200, 15, 0x20⟩,
   ⟨.cubFdW2, 0x030008000030, 8192, 0x200, 15, 0x20⟩,
   ⟨.cubFdW3, 0x030008000038, 8192, 0x200, 15, 0x20⟩,
   ⟨.cubAct, 0x030009000000, 8192, 0x1000, 512, 0x8⟩,
   ⟨.cubCexp, 0x03000B000000, 8192, 0x80, 8, 0x8⟩,
   ⟨.cubRmax, 0x03000B000040, 8192, 0x80, 4, 0x8⟩,
   ⟨.vecStatus, 0x03000C000000, 8192, 0x8, 1, 0x8⟩,
   ⟨.reedRing, 0x03000D000000, 512, 0x40, 1, 0x8⟩,
   ⟨.reedTail, 0x03000D000008, 512, 0x40, 1, 0x8⟩,
   ⟨.reedStatus, 0x03000D000010, 512, 0x40, 1, 0x8⟩]

/-- Where registers lie, part 1. -/
def places1 : List Place :=
  [⟨.reedCtrl, 0x03000D000018, 512, 0x40, 1, 0x8⟩,
   ⟨.hbmRgnBase, 0x03000E000000, 16, 0x20, 1, 0x8⟩,
   ⟨.hbmRgnSize, 0x03000E000008, 16, 0x20, 1, 0x8⟩,
   ⟨.hbmRgnCtrl, 0x03000E000010, 16, 0x20, 1, 0x8⟩,
   ⟨.hbmRgnDev, 0x03000E000018, 16, 0x20, 1, 0x8⟩,
   ⟨.hbmExcl, 0x03000E000400, 16, 0x8, 1, 0x8⟩,
   ⟨.hbmCap, 0x03000E000480, 1, 8, 1, 0x8⟩,
   ⟨.hbmChCtrl, 0x03000E010000, 512, 0x20, 1, 0x8⟩,
   ⟨.hbmChStatus, 0x03000E010008, 512, 0x20, 1, 0x8⟩,
   ⟨.hbmChAtom, 0x03000E010010, 512, 0x20, 1, 0x8⟩,
   ⟨.hbmScCtrl, 0x03000E020000, 8, 0x10, 1, 0x8⟩,
   ⟨.hbmScStatus, 0x03000E020008, 8, 0x10, 1, 0x8⟩,
   ⟨.tenLinkStatus, 0x03000F000000, 16, 0x20, 1, 0x8⟩,
   ⟨.tenLinkCnt, 0x03000F000008, 16, 0x20, 1, 0x8⟩,
   ⟨.tenLinkSpare, 0x03000F000010, 16, 0x20, 1, 0x8⟩,
   ⟨.tenDieCtrl, 0x03000F000400, 12, 0x10, 1, 0x8⟩,
   ⟨.tenDieStatus, 0x03000F000408, 12, 0x10, 1, 0x8⟩,
   ⟨.tenModstat, 0x03000F000500, 1, 8, 1, 0x8⟩,
   ⟨.tenMap, 0x03000F010000, 16, 0x200, 64, 0x8⟩,
   ⟨.fabCfg, 0x030003000000, 1, 8, 1, 0x8⟩,
   ⟨.fabBoard, 0x030003000008, 1, 8, 1, 0x8⟩,
   ⟨.fabEpoch, 0x030003000010, 1, 8, 1, 0x8⟩,
   ⟨.fabTimer, 0x030003000018, 1, 8, 1, 0x8⟩,
   ⟨.fabPortStatus, 0x030003010000, 15, 0x20, 1, 0x8⟩,
   ⟨.fabPortDrop, 0x030003010008, 15, 0x20, 1, 0x8⟩,
   ⟨.fabPortPkts, 0x030003010010, 15, 0x20, 1, 0x8⟩,
   ⟨.fabMqRing, 0x030003020000, 256, 0x20, 1, 0x8⟩,
   ⟨.fabMqPtr, 0x030003020008, 256, 0x20, 1, 0x8⟩,
   ⟨.fabMqNote, 0x030003020010, 256, 0x20, 1, 0x8⟩,
   ⟨.fabRouteA, 0x030003100000, 65536, 0x8, 1, 0x8⟩]

/-- Where registers lie, part 2. -/
def places2 : List Place :=
  [⟨.fabRouteB, 0x030003180000, 65536, 0x8, 1, 0x8⟩,
   ⟨.fabMc, 0x030003200000, 4096, 0x8, 1, 0x8⟩,
   ⟨.fabFlowCfg, 0x030003300000, 65536, 0x10, 1, 0x8⟩,
   ⟨.fabFlowState, 0x030003300008, 65536, 0x10, 1, 0x8⟩,
   ⟨.belCtrl, 0x030010000000, 7, 0x10000, 1, 0x8⟩,
   ⟨.belPeer, 0x030010000008, 7, 0x10000, 1, 0x8⟩,
   ⟨.belStatus, 0x030010000010, 7, 0x10000, 1, 0x8⟩,
   ⟨.belLanes, 0x030010000018, 7, 0x10000, 1, 0x8⟩,
   ⟨.belLockmap, 0x030010000020, 7, 0x10000, 1, 0x8⟩,
   ⟨.belFec, 0x030010000028, 7, 0x10000, 1, 0x8⟩,
   ⟨.belTemp, 0x030010000030, 7, 0x10000, 1, 0x8⟩,
   ⟨.belRingT, 0x030010000100, 7, 0x10000, 32, 0x8⟩,
   ⟨.belRingR, 0x030010000200, 7, 0x10000, 32, 0x8⟩,
   ⟨.belXt, 0x030010000400, 7, 0x10000, 128, 0x8⟩,
   ⟨.belLp, 0x030010070000, 4, 0x8, 1, 0x8⟩,
   ⟨.chnGrpCtrl, 0x030011000000, 256, 0x20, 1, 0x8⟩,
   ⟨.chnGrpBlk, 0x030011000008, 256, 0x20, 1, 0x8⟩,
   ⟨.chnGrpStage, 0x030011000010, 256, 0x20, 1, 0x8⟩,
   ⟨.chnGrpStat, 0x030011000018, 256, 0x20, 1, 0x8⟩,
   ⟨.chnLaneStatus, 0x030011010000, 4, 0x100, 1, 0x8⟩,
   ⟨.chnLaneBar, 0x030011010008, 4, 0x100, 1, 0x8⟩,
   ⟨.chnLaneLate, 0x030011010010, 4, 0x100, 1, 0x8⟩,
   ⟨.chnLaneCtrl, 0x030011010018, 4, 0x100, 1, 0x8⟩,
   ⟨.chnMap, 0x030011020000, 1024, 0x8, 1, 0x8⟩,
   ⟨.chnRsd, 0x030011030000, 16, 0x40, 8, 0x8⟩,
   ⟨.hlStatus, 0x030012000000, 1, 8, 1, 0x8⟩,
   ⟨.hlDqRing, 0x030012000100, 16, 0x20, 1, 0x8⟩,
   ⟨.hlDqPtr, 0x030012000108, 16, 0x20, 1, 0x8⟩,
   ⟨.hlDqCtrl, 0x030012000110, 16, 0x20, 1, 0x8⟩,
   ⟨.hlEvtRing, 0x030012000400, 1, 8, 1, 0x8⟩]

/-- Where registers lie, part 3. -/
def places3 : List Place :=
  [⟨.hlEvtPtr, 0x030012000408, 1, 8, 1, 0x8⟩,
   ⟨.mgtSite, 0x030013000000, 1, 8, 1, 0x8⟩,
   ⟨.mgtFmHi, 0x030013000008, 1, 8, 1, 0x8⟩,
   ⟨.mgtFmLo, 0x030013000010, 1, 8, 1, 0x8⟩,
   ⟨.mgtCtrl, 0x030013000018, 1, 8, 1, 0x8⟩,
   ⟨.mgtDly, 0x030013000040, 6, 0x8, 1, 0x8⟩,
   ⟨.pwrCtrl, 0x030014000000, 1, 8, 1, 0x8⟩,
   ⟨.pwrStatus, 0x030014000008, 1, 8, 1, 0x8⟩,
   ⟨.pwrDom, 0x030014000100, 128, 0x8, 1, 0x8⟩,
   ⟨.thmCtrl, 0x030015000000, 1, 8, 1, 0x8⟩,
   ⟨.thmHold, 0x030015000008, 1, 8, 1, 0x8⟩,
   ⟨.thmDie, 0x030015000100, 12, 0x8, 1, 0x8⟩,
   ⟨.thmSens, 0x030015010000, 12, 0x200, 64, 0x8⟩,
   ⟨.nvsCmd, 0x030016000000, 1, 8, 1, 0x8⟩,
   ⟨.nvsAddr, 0x030016000008, 1, 8, 1, 0x8⟩,
   ⟨.nvsLen, 0x030016000010, 1, 8, 1, 0x8⟩,
   ⟨.nvsStatus, 0x030016000018, 1, 8, 1, 0x8⟩,
   ⟨.nvsCtrl, 0x030016000020, 1, 8, 1, 0x8⟩,
   ⟨.secCtrl, 0x030017000000, 1, 8, 1, 0x8⟩,
   ⟨.secStatus, 0x030017000008, 1, 8, 1, 0x8⟩,
   ⟨.secQaddr, 0x030017000010, 1, 8, 1, 0x8⟩,
   ⟨.secNonce, 0x030017000018, 4, 0x8, 1, 0x8⟩,
   ⟨.secExtd, 0x030017000040, 8, 0x8, 1, 0x8⟩,
   ⟨.secM, 0x030017000100, 4, 0x40, 8, 0x8⟩,
   ⟨.vrxState, 0x030018000000, 1, 8, 1, 0x8⟩,
   ⟨.vrxStby, 0x030018000008, 1, 8, 1, 0x8⟩,
   ⟨.mgtStorm, 0x030019000000, 1, 8, 1, 0x8⟩,
   ⟨.mgtKfn, 0x030019000008, 1, 8, 1, 0x8⟩,
   ⟨.mgtKfns, 0x030019000040, 16, 0x8, 1, 0x8⟩,
   ⟨.mgtChatc, 0x030019000100, 1, 8, 1, 0x8⟩]

/-- Where registers lie, part 4. -/
def places4 : List Place :=
  [⟨.mgtChats, 0x030019000108, 1, 8, 1, 0x8⟩,
   ⟨.mgtChatx, 0x030019000110, 1, 8, 1, 0x8⟩,
   ⟨.mgtChata, 0x030019000118, 1, 8, 1, 0x8⟩,
   ⟨.mgtPairCtrl, 0x030019000200, 16, 0x10, 1, 0x8⟩,
   ⟨.mgtPairStat, 0x030019000208, 16, 0x10, 1, 0x8⟩]

/-- Where every register lies. -/
def places : List Place := places0 ++ places1 ++ places2 ++ places3 ++ places4

/-- The register of a place at an address, if it is one. -/
def Place.at (p : Place) (a : Nat) : Option Reg :=
  let o := a - p.base
  let i := if p.ni = 1 then 0 else o / p.si
  let r := if p.ni = 1 then o else o % p.si
  if p.base ≤ a ∧ i < p.ni ∧ r % p.sj = 0 ∧ r / p.sj < p.nj then some ⟨p.kind, i, r / p.sj⟩ else none

/-- The first register that a list of places has at an address. -/
def findReg : List Place → Nat → Option Reg
  | [], _ => none
  | p :: ps, a =>
    match p.at a with
    | some r => some r
    | none => findReg ps a

/-- The register at an address of control space, if one lies there. -/
def regAt (a : Nat) : Option Reg := findReg places a

/-- The word whose fields hold their reset values. -/
def fieldsReset : List RField → Word
  | [] => 0
  | f :: fs => fieldsReset fs ||| BitVec.ofNat 64 (f.reset % 2 ^ (f.hi + 1 - f.lo) * 2 ^ f.lo)

/-- The reset value of a register: its Reset column, with the three maps whose reset depends on the instance
    (region 0 of Tables 9.9 and 9.10, and the diagonal of Table 12.14). (DESIGN CHOICE, log entry 115.) -/
def regReset (r : Reg) : Word :=
  match r.kind with
  | .hbmRgnSize => if r.i = 0 then 0x9000000000 else 0
  | .hbmRgnCtrl => if r.i = 0 then 0x8800000000000000 else 0
  | .belXt =>
    let k := r.j % 16
    let q := k / 2
    if q / 4 = k % 2 then BitVec.ofNat 64 (0x4000 * 2 ^ (16 * (q % 4))) else 0
  | k => fieldsReset (kindFields k)

/-- The reset value of the word at an address; a reserved word is 0 (R10). -/
def resetAt (a : Nat) : Word :=
  match regAt a with
  | some r => regReset r
  | none => 0

/-! Addresses of the registers, by name. -/

def aParamId : Nat := 0x030000000000
def aParamDie : Nat := 0x030000000008
def aParamTile : Nat := 0x030000000010
def aParamMem : Nat := 0x030000000018
def aParamUnit : Nat := 0x030000000020
def aParamNet : Nat := 0x030000000028
def aParamClk : Nat := 0x030000000030
def aDrnNow : Nat := 0x030000001000
def aDrnAlign : Nat := 0x030000001008
def aTileStatus (i : Nat) : Nat := 0x030004000000 + i * 0x1000
def aTileCtrl (i : Nat) : Nat := 0x030004000008 + i * 0x1000
def aTileLq (i j : Nat) : Nat := 0x030004000010 + i * 0x1000 + j * 0x8
def aTileSem (i j : Nat) : Nat := 0x030004000040 + i * 0x1000 + j * 0x8
def aTileSemadd (i : Nat) : Nat := 0x0300040000C0 + i * 0x1000
def aTileGrp (i : Nat) : Nat := 0x030002000000 + i * 0x8
def aTileIbank (i : Nat) : Nat := 0x030006000000 + i * 0x8
def aCubStatus (i : Nat) : Nat := 0x030007000000 + i * 0x20
def aCubAcc (i j : Nat) : Nat := 0x030007000008 + i * 0x20 + j * 0x8
def aCubFstat (i : Nat) : Nat := 0x030008000000 + i * 0x200
def aCubFdW0 (i j : Nat) : Nat := 0x030008000020 + i * 0x200 + j * 0x20
def aCubFdW1 (i j : Nat) : Nat := 0x030008000028 + i * 0x200 + j * 0x20
def aCubFdW2 (i j : Nat) : Nat := 0x030008000030 + i * 0x200 + j * 0x20
def aCubFdW3 (i j : Nat) : Nat := 0x030008000038 + i * 0x200 + j * 0x20
def aCubAct (i j : Nat) : Nat := 0x030009000000 + i * 0x1000 + j * 0x8
def aCubCexp (i j : Nat) : Nat := 0x03000B000000 + i * 0x80 + j * 0x8
def aCubRmax (i j : Nat) : Nat := 0x03000B000040 + i * 0x80 + j * 0x8
def aVecStatus (i : Nat) : Nat := 0x03000C000000 + i * 0x8
def aReedRing (i : Nat) : Nat := 0x03000D000000 + i * 0x40
def aReedTail (i : Nat) : Nat := 0x03000D000008 + i * 0x40
def aReedStatus (i : Nat) : Nat := 0x03000D000010 + i * 0x40
def aReedCtrl (i : Nat) : Nat := 0x03000D000018 + i * 0x40
def aHbmRgnBase (i : Nat) : Nat := 0x03000E000000 + i * 0x20
def aHbmRgnSize (i : Nat) : Nat := 0x03000E000008 + i * 0x20
def aHbmRgnCtrl (i : Nat) : Nat := 0x03000E000010 + i * 0x20
def aHbmRgnDev (i : Nat) : Nat := 0x03000E000018 + i * 0x20
def aHbmExcl (i : Nat) : Nat := 0x03000E000400 + i * 0x8
def aHbmCap : Nat := 0x03000E000480
def aHbmChCtrl (i : Nat) : Nat := 0x03000E010000 + i * 0x20
def aHbmChStatus (i : Nat) : Nat := 0x03000E010008 + i * 0x20
def aHbmChAtom (i : Nat) : Nat := 0x03000E010010 + i * 0x20
def aHbmScCtrl (i : Nat) : Nat := 0x03000E020000 + i * 0x10
def aHbmScStatus (i : Nat) : Nat := 0x03000E020008 + i * 0x10
def aTenLinkStatus (i : Nat) : Nat := 0x03000F000000 + i * 0x20
def aTenLinkCnt (i : Nat) : Nat := 0x03000F000008 + i * 0x20
def aTenLinkSpare (i : Nat) : Nat := 0x03000F000010 + i * 0x20
def aTenDieCtrl (i : Nat) : Nat := 0x03000F000400 + i * 0x10
def aTenDieStatus (i : Nat) : Nat := 0x03000F000408 + i * 0x10
def aTenModstat : Nat := 0x03000F000500
def aTenMap (i j : Nat) : Nat := 0x03000F010000 + i * 0x200 + j * 0x8
def aFabCfg : Nat := 0x030003000000
def aFabBoard : Nat := 0x030003000008
def aFabEpoch : Nat := 0x030003000010
def aFabTimer : Nat := 0x030003000018
def aFabPortStatus (i : Nat) : Nat := 0x030003010000 + i * 0x20
def aFabPortDrop (i : Nat) : Nat := 0x030003010008 + i * 0x20
def aFabPortPkts (i : Nat) : Nat := 0x030003010010 + i * 0x20
def aFabMqRing (i : Nat) : Nat := 0x030003020000 + i * 0x20
def aFabMqPtr (i : Nat) : Nat := 0x030003020008 + i * 0x20
def aFabMqNote (i : Nat) : Nat := 0x030003020010 + i * 0x20
def aFabRouteA (i : Nat) : Nat := 0x030003100000 + i * 0x8
def aFabRouteB (i : Nat) : Nat := 0x030003180000 + i * 0x8
def aFabMc (i : Nat) : Nat := 0x030003200000 + i * 0x8
def aFabFlowCfg (i : Nat) : Nat := 0x030003300000 + i * 0x10
def aFabFlowState (i : Nat) : Nat := 0x030003300008 + i * 0x10
def aBelCtrl (i : Nat) : Nat := 0x030010000000 + i * 0x10000
def aBelPeer (i : Nat) : Nat := 0x030010000008 + i * 0x10000
def aBelStatus (i : Nat) : Nat := 0x030010000010 + i * 0x10000
def aBelLanes (i : Nat) : Nat := 0x030010000018 + i * 0x10000
def aBelLockmap (i : Nat) : Nat := 0x030010000020 + i * 0x10000
def aBelFec (i : Nat) : Nat := 0x030010000028 + i * 0x10000
def aBelTemp (i : Nat) : Nat := 0x030010000030 + i * 0x10000
def aBelRingT (i j : Nat) : Nat := 0x030010000100 + i * 0x10000 + j * 0x8
def aBelRingR (i j : Nat) : Nat := 0x030010000200 + i * 0x10000 + j * 0x8
def aBelXt (i j : Nat) : Nat := 0x030010000400 + i * 0x10000 + j * 0x8
def aBelLp (i : Nat) : Nat := 0x030010070000 + i * 0x8
def aChnGrpCtrl (i : Nat) : Nat := 0x030011000000 + i * 0x20
def aChnGrpBlk (i : Nat) : Nat := 0x030011000008 + i * 0x20
def aChnGrpStage (i : Nat) : Nat := 0x030011000010 + i * 0x20
def aChnGrpStat (i : Nat) : Nat := 0x030011000018 + i * 0x20
def aChnLaneStatus (i : Nat) : Nat := 0x030011010000 + i * 0x100
def aChnLaneBar (i : Nat) : Nat := 0x030011010008 + i * 0x100
def aChnLaneLate (i : Nat) : Nat := 0x030011010010 + i * 0x100
def aChnLaneCtrl (i : Nat) : Nat := 0x030011010018 + i * 0x100
def aChnMap (i : Nat) : Nat := 0x030011020000 + i * 0x8
def aChnRsd (i j : Nat) : Nat := 0x030011030000 + i * 0x40 + j * 0x8
def aHlStatus : Nat := 0x030012000000
def aHlDqRing (i : Nat) : Nat := 0x030012000100 + i * 0x20
def aHlDqPtr (i : Nat) : Nat := 0x030012000108 + i * 0x20
def aHlDqCtrl (i : Nat) : Nat := 0x030012000110 + i * 0x20
def aHlEvtRing : Nat := 0x030012000400
def aHlEvtPtr : Nat := 0x030012000408
def aMgtSite : Nat := 0x030013000000
def aMgtFmHi : Nat := 0x030013000008
def aMgtFmLo : Nat := 0x030013000010
def aMgtCtrl : Nat := 0x030013000018
def aMgtDly (i : Nat) : Nat := 0x030013000040 + i * 0x8
def aPwrCtrl : Nat := 0x030014000000
def aPwrStatus : Nat := 0x030014000008
def aPwrDom (i : Nat) : Nat := 0x030014000100 + i * 0x8
def aThmCtrl : Nat := 0x030015000000
def aThmHold : Nat := 0x030015000008
def aThmDie (i : Nat) : Nat := 0x030015000100 + i * 0x8
def aThmSens (i j : Nat) : Nat := 0x030015010000 + i * 0x200 + j * 0x8
def aNvsCmd : Nat := 0x030016000000
def aNvsAddr : Nat := 0x030016000008
def aNvsLen : Nat := 0x030016000010
def aNvsStatus : Nat := 0x030016000018
def aNvsCtrl : Nat := 0x030016000020
def aSecCtrl : Nat := 0x030017000000
def aSecStatus : Nat := 0x030017000008
def aSecQaddr : Nat := 0x030017000010
def aSecNonce (i : Nat) : Nat := 0x030017000018 + i * 0x8
def aSecExtd (i : Nat) : Nat := 0x030017000040 + i * 0x8
def aSecM (i j : Nat) : Nat := 0x030017000100 + i * 0x40 + j * 0x8
def aVrxState : Nat := 0x030018000000
def aVrxStby : Nat := 0x030018000008
def aMgtStorm : Nat := 0x030019000000
def aMgtKfn : Nat := 0x030019000008
def aMgtKfns (i : Nat) : Nat := 0x030019000040 + i * 0x8
def aMgtChatc : Nat := 0x030019000100
def aMgtChats : Nat := 0x030019000108
def aMgtChatx : Nat := 0x030019000110
def aMgtChata : Nat := 0x030019000118
def aMgtPairCtrl (i : Nat) : Nat := 0x030019000200 + i * 0x10
def aMgtPairStat (i : Nat) : Nat := 0x030019000208 + i * 0x10

end Sys2Proof.Machine
end

