-- ==== Sys2Proof/Machine/State.lean ====
section
/-! DEFINITION. Everything the spec gives the module to hold, as plain data, and the state right after reset. -/

namespace Sys2Proof.Machine

/-- Why the module stops: nothing stops it, since the spec gives every command an effect. -/
inductive Fault where
  deriving DecidableEq, Repr

/-- Why a command has no meaning here. -/
inductive Refusal where
  /-- Raised by an arm of `exec` whose command has no meaning yet. Safe: the run stops. -/
  | notModelled (mnemonic : String)
  deriving DecidableEq, Repr

/-! ### Tiles (Table 3.1) -/

/-- One dimension of an address generator; the count is held minus 1, so a cleared generator has count 1 (R125). -/
structure GenDim where
  cntm1 : BitVec 16 := 0
  str   : BitVec 24 := 0
  idx   : BitVec 16 := 0
  deriving DecidableEq, Repr

/-- An address generator (R125). -/
structure Gen where
  base : BitVec 20 := 0
  d0 : GenDim := {}
  d1 : GenDim := {}
  d2 : GenDim := {}
  d3 : GenDim := {}
  deriving DecidableEq, Repr

/-- A live loop: its counter, body start and exit (R117). -/
structure Loop where
  lc    : BitVec 2
  start : Nat
  exit  : Nat
  deriving DecidableEq, Repr

/-- A launch entry (Table 3.2) with the stamp of its acceptance (R44) and its sequence number (R48) and, if it came by a
    group push, the group and the number of that push (R91). -/
structure Entry where
  w0 : Word
  w1 : Word
  w2 : Word
  w3 : Word
  stamp : Word := 0
  seq : BitVec 16 := 0
  grp : Option (Nat × Nat) := none
  deriving DecidableEq, Repr

/-- What an engine is doing; IDLE and ENTRY_WAIT of Table 3.9 are both `idle` here, told apart by the queue. -/
inductive Phase where
  | idle | run | streamWait | aborting | faulted | swapbWait | drain
  deriving DecidableEq, Repr

/-- What a transfer moves (R128 to R130). -/
inductive XKind where
  | load (rows : List (Nat × Nat × Nat))                  -- local: source address, tile-local destination, bytes
  | store (src dst len : Nat) (rcnt rsem rtile : Nat)     -- local: tile-local source, destination address
  | remote                                                -- its operations on the fabric move the bytes
  | failed                                                -- ended at issue
  deriving DecidableEq, Repr

/-- An outstanding transfer (R113). `dst` holds the local physical ranges of this module that it writes, `dirty` those of
    every transfer of its engine that runs beside it, itself among them, `left` the fabric operations it still waits for,
    `code` the first error. -/
structure Xfer where
  id   : Nat
  kind : XKind
  sem  : BitVec 4
  tcnt : BitVec 8
  dst  : List (Nat × Nat) := []
  dirty : List (Nat × Nat) := []
  left : Nat := 0
  code : BitVec 16 := 0
  from_ : Nat × Bool := (0, false)   -- PEER and REMOTE of its code (R480)
  discard : Bool := false     -- its tokens are discarded by an abort (R98)
  deriving DecidableEq, Repr

/-- An accumulator tile (R150). Elements not listed are 0 (or +0). -/
structure Acc where
  vl     : Bool := false
  anchor : BitVec 9 := 0
  el     : Tbl (BitVec 128) := []
  deriving DecidableEq, Repr

/-- A pending result: everything an issued operation has still to write (R111, R153, R196, R220). -/
structure Pend where
  x    : List (BitVec 5 × Word) := []
  v    : List (BitVec 5 × BitVec 2048) := []
  acc  : List (BitVec 3 × Acc) := []
  cexp : List (BitVec 3 × BitVec 64) := []
  rmax : List (Nat × BitVec 32) := []
  mem  : List (Nat × List Byte) := []      -- tile-local address and bytes, in the order of Table 17.6
  cub  : Word := 0                         -- bits to set in CUB_STATUS
  fst  : Word := 0                         -- bits to set in CUB_FSTAT
  vec  : Word := 0                         -- bits to set in VEC_STATUS
  step : List (BitVec 3) := []             -- generators its streams step
  reads : List (Nat × Nat) := []           -- tile-local ranges that a CMMA reads as operands (R219)
  deriving DecidableEq, Repr

/-- One engine of a tile: its queue and its private registers (R70 to R72). -/
structure Engine where
  queue   : List Entry := []
  running : Option Entry := none
  phase   : Phase := .idle
  pc      : BitVec 12 := 0
  x       : Tbl Word := []
  lc      : Tbl (BitVec 32) := []
  loops   : List Loop := []              -- innermost first
  ag      : Tbl Gen := []
  fault   : BitVec 16 := 0
  held    : Option Bundle := none        -- the bundle that waits to issue (R109, R111)
  full    : Bool := false                -- the held bundle waits for room among 64 transfers (R113)
  answer  : Option (BitVec 5 × Nat) := none -- register and operation that LDG or STG waits for (R127)
  plan    : Option (Pend × Bool) := none  -- what the held bundle's C or V operation has come to at its issue, and whether it writes at once (R173)
  stuck   : Bool := false                -- its barrier lost a member to an abort (R92)
  results : List Pend := []              -- pending results, oldest first
  xfers   : List Xfer := []              -- outstanding transfers, oldest first
  nextX   : Nat := 0                     -- number of the next transfer (the model's own)
  sig     : BitVec 64 := 0               -- paired-tile signature (R492)
  snaps   : List (BitVec 64) := []       -- snapshots not yet compared, oldest first (R493)
  done    : Nat := 0                     -- completions since pairing (R493)
  deriving DecidableEq, Repr

/-- A group push whose credit has still to fire: group * 4 + engine, the push, the entry's words, and the members that
    have not freed their slots (R91). -/
structure GrpCred where
  key  : Nat
  push : Nat
  left : Nat
  w0 : Word
  w1 : Word
  deriving DecidableEq, Repr

/-- One tile. -/
structure Tile where
  eng  : Tbl Engine := []
  sem  : Tbl (BitVec 16) := []
  acc  : Tbl Acc := []
  cexp : Tbl (BitVec 64) := []
  rmax : Tbl (BitVec 32) := []
  v    : Tbl (BitVec 2048) := []
  bank : Bool := false                   -- active instruction bank
  resetting : Bool := false
  gated : Bool := false                  -- clock gated (R94)
  waking : Bool := false                 -- waits for Bellows to admit its activation (R427)
  chatter : Bool := false                -- under a Chatter run (R487)
  deriving DecidableEq, Repr

/-! ### Memory (chapter 09) -/

/-- A line of a shared cache: the 64 B granule of HBM it holds, its bytes, and whether it is dirty (R248). -/
structure Line where
  gran  : Nat
  data  : BitVec 512
  dirty : Bool
  deriving DecidableEq, Repr

/-- A write-combining entry: its granule, byte mask and bytes (R252). -/
structure WcEntry where
  gran : Nat
  mask : BitVec 64
  data : BitVec 512
  deriving DecidableEq, Repr

/-- One HBM channel, beside its registers. -/
structure Chan where
  wc       : List WcEntry := []      -- oldest first, at most 64 (R253)
  ceWin    : Nat := 0                -- correctable errors in this 1 ms window (R267)
  trained  : Int := 0                -- stack temperature at the last training, °C (R268)
  wait     : Bool := false           -- a retraining waits for another of the stack (R268)
  step     : Nat := 0                -- thermal step: thresholds of Table 9.6 in force
  deriving DecidableEq, Repr

/-- One waiting request at a pseudo-channel's arbiter (R260, R261), and the device offset of its first granule. -/
structure ArbReq where
  bursts : Nat
  prio   : Nat
  lost   : Nat
  off    : Nat := 0
  deriving DecidableEq, Repr

/-- An HBM_READ, or an HBM_WRITE of bytes. -/
structure HbmReq where
  req  : Req
  addr : Nat
  len  : Nat
  data : Option (List Byte) := none
  ecc  : BitVec 2 := 0
  deriving DecidableEq, Repr

/-- Work that waits for a channel that retrains (R268), or for the clock of a tile's cluster (R95). -/
inductive Work where
  | access (r : HbmReq)
  | record (req : Req) (w0 w1 w2 w3 : Word)
  | packet (ctx : Nat) (p : Packet) (port : Nat) -- a packet that its receive context has accepted
  | cast (p : Packet) (port : Nat)               -- a multicast packet that the router has taken in
  | col (p : Packet) (put : Option Nat)          -- a Chanter packet, with the code of its write if that is done
  | message (m : TMsg)
  | frame (f : Frame)                            -- a frame from the host, in order on its link
  | bundle (a : At)                              -- the bundle that an engine holds, with its LDG or STG
  | token (tile sem n : Nat)
  | write (req : Req) (a : Nat) (v : Word)       -- a register's write
  deriving DecidableEq, Repr

/-- Held work, and the ranges of memory and of tiles' registers, address and length, that it reads or writes. -/
structure Waiter where
  spans : List (Nat × Nat)
  work  : Work
  deriving DecidableEq, Repr

/-- A pseudo-channel's arbiter: a queue per class LC, REED, ATOM, BULK, WB, and the emergency requesters. -/
structure Arb where
  q       : Tbl (List ArbReq) := []
  refresh : Nat := 0
  debug   : Nat := 0
  cur     : Option (Nat × ArbReq) := none -- class and bursts not yet served of the grant in progress (R262)
  grants  : List (Nat × Nat) := []   -- class (5 REFRESH, 6 DEBUG) and bursts of each grant, newest first
  slot    : Nat := 0                 -- burst slots so far, mod 4 (R265)
  thr     : Nat := 0                 -- THR in force since the last round (Table 9.7)
  deriving DecidableEq, Repr

/-! ### Reeds (chapter 08) -/

/-- A result block on its way to a tile (R233). -/
structure RBlock where
  addr : Nat
  data : List Byte
  deriving DecidableEq, Repr

/-- A command whose token has still to fire: its blocks not yet delivered, and its token (R228). -/
structure RTok where
  left : Nat
  tile : Nat
  sem  : Nat
  n    : Nat
  tag  : Nat
  deriving DecidableEq, Repr

/-- What the result buffer holds: rows, vectors, anchor, and the words by row and then vector (R235). -/
structure RHold where
  rows   : Nat
  nv     : Nat
  anchor : Int
  words  : List (BitVec 128)
  deriving DecidableEq, Repr

/-- A Reed, beside its registers. -/
structure Reed where
  store  : Tbl Byte := []            -- vector store
  held   : Option RHold := none
  blocks : List RBlock := []         -- oldest first
  toks   : List RTok := []           -- oldest first
  bad    : Option Nat := none        -- address of the row whose read failed, once the blocks before it are delivered
  deriving DecidableEq, Repr


/-! ### Time and reports (chapters 02 and 17) -/

/-- The Drone time base (R36, R51 to R55). -/
structure Drone where
  tick    : BitVec 52 := 0
  inRange : Nat := 0                 -- exchanges in a row within ±10 ns (R55)
  everAligned : Bool := false        -- ALIGNED since the last module reset (R52)
  offs    : Tbl Int := []            -- offsets of the exchange in progress, by link
  sub     : Int := 0                 -- FRAC units that the count stands past its last tick edge (R52)
  slew    : Int := 0                 -- FRAC units that the slew in progress adds in its 1 ms (R52)
  ran     : Nat := 0                 -- reference cycles of that slew done
  sent    : List (Nat × Nat × List Byte) := [] -- time-alignment frames sent: port, lane and message, newest first (R356)
  deriving DecidableEq, Repr

/-- An event record (Table 17.2). -/
structure Rec where
  stamp : Word
  unit  : Nat
  modId : Nat
  seq   : BitVec 16
  code  : BitVec 16
  fault : Bool
  result : Bool
  remote : Bool := false
  aligned : Bool := false
  coal  : Bool := false
  count : Nat := 1
  peer  : Nat := 0
  tag   : Nat := 0
  a0 : Word := 0
  a1 : Word := 0
  a2 : Word := 0
  a3 : Word := 0
  deriving DecidableEq, Repr

/-- An open coalescing window of a pair (PEER, CODE) (R481). -/
structure Window where
  peer  : Nat
  code  : BitVec 16
  count : Nat := 0
  first : Word := 0
  last  : Word := 0
  deriving DecidableEq, Repr

/-- Reports: emitted and waiting to leave, kept for the host, sequence counters and last stamps by unit. -/
structure Reports where
  raised  : List Rec := []           -- emitted, not yet at the host link, oldest first
  kept    : List Rec := []           -- kept for the host, at most 256, oldest first (R408)
  sent    : List Rec := []           -- sent to the event ring, newest first
  mgt     : List Rec := []           -- copies sent as EVENT messages, newest first (R416)
  seq     : Tbl (BitVec 16) := []    -- by unit (R48)
  last    : Tbl Word := []           -- last stamp by unit (R50)
  fine    : Tbl Nat := []            -- PLL cycles of its tick that each last stamp marks, by unit (R41)
  windows : List Window := []
  deriving DecidableEq, Repr

/-! ### Clusters (chapter 15) -/

/-- The clock of a cluster (R95, R426). -/
inductive Clk where
  | running | stopped | starting
  deriving DecidableEq, Repr

/-- One cluster of 128 tiles. -/
structure Cluster where
  clk   : Clk := .running
  acts  : List Nat := []             -- reference cycles since each activation of the last 1 µs, newest first (R427)
  skip  : Nat := 0                   -- sixteenths of cycle skipping added by Bellows (R428)
  level : Nat := 0                   -- throttle level (R433)
  divPending : Bool := false         -- a division is coming into effect (R434)
  deriving DecidableEq, Repr

/-! ### Fabric (chapter 11) -/

/-- Who waits for a fabric operation. -/
inductive FOwner where
  | xfer (e : At) (xid : Nat)        -- a transfer of a tile engine
  | scalar (e : At)                  -- LDG or STG
  | answer (port : Nat)              -- an answer this module owes, entering the router by this port
  deriving DecidableEq, Repr

/-- What an operation sends (Table 11.2). Lengths in bytes. -/
inductive FKind where
  | put (tile src dst len : Nat) (rcnt rsem rtile : Nat)  -- src is tile-local
  | get (src dst len : Nat)                               -- dst is a local physical address
  | msg (tile src queue len : Nat)
  | ld (addr : Nat)
  | st (addr : Nat) (value : Word)
  | getData (dst : Nat) (data : List Byte) (opid status : Nat) -- the answer to a GET: the bytes its read gave
  | opack (opid status : Nat)
  | ldrsp (opid status : Nat) (value : Word)
  deriving DecidableEq, Repr

/-- An operation of a flow: waiting while `opid` is none, then open (R322). -/
structure FOp where
  uid   : Nat
  kind  : FKind
  owner : FOwner
  opid  : Option Nat := none
  sent  : Nat := 0                   -- packets sent so far
  port  : Nat := 14                  -- port by which its last packet left
  deriving DecidableEq, Repr

/-- A packet that no FACK has covered (R324, R326). -/
structure Unacked where
  seq   : Nat
  uid   : Nat
  idx   : Nat                        -- which packet of the operation
  opid  : Nat
  kind  : FKind
  owner : FOwner
  stamp : Word
  port  : Nat                        -- port by which it last left
  tries : Nat := 0                   -- retransmissions so far
  deriving DecidableEq, Repr

/-- A receive context's slot of one operation (R325). -/
structure RSlot where
  count : Nat := 0                   -- data packets written
  last  : Option (Nat × Word) := none -- COUNT and W3 of the LAST packet
  status : Nat := 0                  -- first error of a data packet
  deriving DecidableEq, Repr

/-- What a flow context holds beside its registers. -/
structure Flow where
  nextSeq  : Nat := 0
  nextOpid : Nat := 0
  ops      : List FOp := []          -- oldest first
  unacked  : List Unacked := []      -- oldest first
  exp      : Nat := 0                -- receive: lowest SEQ not yet received
  map      : List Nat := []          -- receive: SEQs above EXP marked
  slots    : Tbl RSlot := []         -- receive: by OPID mod 16
  ackDue   : Bool := false           -- receive: an arrival no FACK has covered
  deriving DecidableEq, Repr

/-- A packet the router holds for a port, or on the fibre beyond it until the peer has taken it (R317, R357).
    Port 15 stands for this module itself. -/
structure RHeld where
  port  : Nat
  pkt   : Packet                     -- as it leaves
  orig  : Packet                     -- as it came to the router
  from_ : Nat                        -- arrival port
  own   : Option (Nat × Nat) := none -- send context and operation, where this module sends it in a flow
  last  : Nat := 0                   -- cells of its port and VC sent up to its end; 0 while it is queued
  lane  : Nat := 0                   -- the lane that took it (R355)
  deriving DecidableEq, Repr

/-- The fabric router and its flows. -/
structure Fabric where
  flows   : Tbl Flow := []
  nextUid : Nat := 0
  held    : List RHeld := []         -- oldest first
  sent    : Tbl Nat := []            -- cells sent since UP, by port * 8 + VC (R357)
  freed   : Tbl Nat := []            -- cells the peer has freed since UP
  rxFreed : Tbl Nat := []            -- cells this module has freed since UP
  laneQ   : Tbl Nat := []            -- sixteenths of cells queued on each lane, by port * 32 + lane (R355)
  deriving DecidableEq, Repr


/-! ### Bells (chapter 12) -/

/-- A Bell, beside its registers. Masks have one bit a lane. -/
structure Bell where
  rxok    : BitVec 32 := 0           -- RXOK of the peer's latest STAT
  steq    : BitVec 32 := 0           -- STEPREQ of the peer's latest STAT
  peer    : Nat := 0                 -- STATE of the peer's latest STAT
  matched : Nat := 0                 -- STATs in a row that match (IDCHECK)
  arithSaid : Bool := false          -- 0x4_0C2 raised in this training (R57)
  txFail  : BitVec 32 := 0           -- transmit rings that reached HEAT 1023 in this training (R346)
  rxFail  : BitVec 32 := 0           -- own STEPREQ (R347)
  los     : BitVec 32 := 0           -- lanes out for RXLOS (Table 12.5)
  pinned  : Tbl Nat := []            -- iterations in a row at HEAT 0 or 1023, by ring
  fecWin  : Tbl Nat := []            -- uncorrectable codewords in this 1 ms, by lane
  relocks : Tbl Nat := []            -- relocks in a row that failed, by lane
  left    : BitVec 32 := 0           -- lanes that left in this sample (R350)
  causes  : BitVec 5 := 0            -- their causes
  part    : Tbl (List Byte) := []    -- bytes of a packet that runs on into the next block, by lane
  said    : Option Stat := none      -- the STAT that its lanes send (R352, R356)
  out     : List (List Byte) := []   -- control messages that it began to send, 72 B each, newest first (R356)
  deriving DecidableEq, Repr

/-! ### Chanter (chapter 13) -/

/-- A waiting Chanter command (Table 13.1): its stamp and sequence number, the engine that launched it, and the tiles whose wait is
    granted already (R368). -/
structure ChEntry where
  w0 : Word
  w1 : Word
  w2 : Word
  w3 : Word
  stamp : Word := 0
  seq : BitVec 16 := 0
  launcher : Option At := none
  mute : Bool := false               -- its launcher has been aborted (R98)
  got : List Nat := []
  deriving DecidableEq, Repr

/-- A CHK record as the coordinator holds it: module rank, order key of the packet, bytes (R377, R381). -/
structure ChkRec where
  rank  : Nat
  stamp : Word
  src   : Nat
  bytes : List Byte
  deriving DecidableEq, Repr

/-- A piece of a phase received: byte offset or address, and bytes. -/
structure Seg where
  at_  : Nat
  data : List Byte
  deriving DecidableEq, Repr

/-- A collective in flight. The descriptor words and the map are those of its start (R363). -/
structure Coll where
  grp  : Nat
  seq  : Nat
  lane : Nat
  cmd  : ChEntry
  ctrl : Word
  mods : List Nat                    -- module IDs by module rank
  me   : Nat                         -- this module's rank
  tiles : List Nat := []             -- member tiles in rank order; none with LOCV = 0
  rsd  : List Word := []             -- descriptor of a RESHARD
  segs : Tbl (List Seg) := []        -- received pieces, by KIND * 65536 + source module rank
  att  : Tbl Nat := []               -- attempt counted, by the same key (R387)
  used : Nat := 0                    -- chunks consumed as owner (R385)
  late : Nat := 0                    -- BARLATE at its start (R363, R382)
  kept : List Seg := []              -- REDUCE: results this owner has sent to the root, to answer RESEND (R388)
  cred : Tbl Nat := []               -- chunks that each owner module has consumed
  sent : Tbl Nat := []               -- chunks sent to each owner module
  chks : List ChkRec := []           -- coordinator: records that have arrived
  rel  : Bool := false               -- the coordinator's REL has arrived
  ended : Bool := false               -- completed here; kept only to answer RESEND (R388)
  deriving DecidableEq, Repr

/-- A Chanter lane's queue, and whether it is ABORTING (R392). -/
structure Lane where
  queue : List ChEntry := []         -- oldest first
  aborting : Bool := false
  deriving DecidableEq, Repr

/-- A packet of a collective not yet started here, and the code with which its bytes were put in memory, if they were. -/
structure Early where
  pkt : Packet
  put : Option Nat := none
  deriving DecidableEq, Repr

/-- The Chanter. -/
structure Chanter where
  lanes : Tbl Lane := []
  colls : List Coll := []            -- oldest first
  early : List Early := []           -- packets of collectives not yet started here, oldest first (R375)
  slots : List (Nat × Nat × Nat) := [] -- staging slots in use: group, slot, sequence number (R365)
  deriving DecidableEq, Repr

/-! ### Tenon (chapter 10) -/

/-- One lane at a link end: both directions of R281 and R282. -/
structure TLane where
  txSeq  : BitVec 8 := 0             -- SEQ of the last sequenced flit sent
  replay : List (BitVec 256) := []   -- sequenced flits that no ACK covers, oldest first, at most 64
  queue  : List (BitVec 192 × BitVec 3 × BitVec 2 × Bool) := [] -- flits not yet sent: payload, VC, KIND, LAST
  rxSeq  : BitVec 8 := 0             -- SEQ of the last flit received good and in order
  nak    : Bool := false             -- discarding until the replay arrives
  part   : List (BitVec 256) := []   -- flits of the message being received
  retest : Bool := false             -- stopped for a retest (R289)
  redo   : Tbl Nat := []             -- replays of each flit held, by SEQ (R289)
  naks   : List Nat := []            -- ages, in reference cycles, of the NAKs sent within the last 1 µs (R289)
  deriving DecidableEq, Repr

/-- A link end: lanes, credits in use by VC, credits owed to the other end by VC, messages that wait to start. -/
structure TEnd where
  lanes : Tbl TLane := []
  used  : Tbl Nat := []
  owe   : Tbl Nat := []
  wait  : List TMsg := []            -- oldest first
  deriving DecidableEq, Repr

/-- Tenon beside its registers. Link ends by die * 4 + port; failed wires by link * 2 + direction; re-admission steps
    by die: the step of Table 10.10 that runs. -/
structure Tenon where
  ends  : Tbl TEnd := []
  bad   : Tbl (List Nat) := []
  open_ : List TMsg := []            -- requests sent whose response has not come, oldest first
  got   : List TMsg := []            -- responses handed to their requesters, newest first
  step  : Tbl Nat := []
  old   : List Nat := []             -- dies whose new routes are not yet in force (R292)
  was   : Tbl Nat := []              -- package routes as they stood when they last changed (R293)
  under : List (TMsg × Nat) := []    -- messages under way and the link each is on, oldest first (R292, R293)
  moved : List Nat := []             -- changed routes that a die still holds, source * 16 + destination (R293)
  stay  : List TMsg := []            -- messages held for them, oldest first
  near  : Option (Nat × List Nat) := none -- a link failure less than 2 µs ago: its age in reference cycles, and the dies' distances before it (Table 10.9)
  deriving DecidableEq, Repr

/-! ### Rebrios Link and management (chapter 14) -/

/-- An HRD whose data has not all arrived: its tag, the local address its data goes to, its length, and the bytes that have come. -/
structure Hrd where
  tag  : Nat
  addr : Nat
  len  : Nat
  got  : Nat := 0
  deriving DecidableEq, Repr

/-- A DMA queue beside its registers. -/
structure DmaQ where
  fetched : List (List Word) := []   -- descriptors fetched and not started, oldest first
  dfs     : List (Nat × List Seg) := [] -- outstanding DFETCHs: tag and bytes so far, oldest first
  cur     : Option (List Word) := none -- the descriptor in progress
  pos     : Nat := 0                 -- bytes of it asked for (H2M) or sent (M2H)
  hrds    : List Hrd := []           -- outstanding HRDs
  reqs    : Nat := 0                 -- requests made so far (the model's own, for tags)
  deriving DecidableEq, Repr

/-- The host link beside its registers. -/
structure HostLink where
  next    : Nat := 1                 -- next LSEQ to send
  replay  : List Frame := []         -- sequenced frames that no LACK covers, oldest first
  wait    : List Frame := []         -- frames that wait for room or for the link
  expect  : Nat := 1                 -- LSEQ expected from the other end
  laneQ   : Tbl Nat := []            -- sixteenths of cells queued on each lane of Bell H (R355, R398)
  unseq   : List Frame := []         -- NOP and NAK frames sent, newest first
  tries   : Nat := 0                 -- replays without LACK advancing
  answers : List Frame := []         -- answers to CWR, CRD and PUSH not yet sent, oldest first (R401)
  closes  : List (Frame × Nat) := [] -- CACKs of writes that clear EN of an HBM region, with the region (R247)
  wire    : List (List Byte) := []   -- frames handed to the lanes since the link's reset: their cells' bytes, newest first (R398)
  woke    : Bool := false            -- a standby has ended and 0x8_042 is still to be raised (R450)
  dq      : Tbl DmaQ := []
  turn    : Nat := 0                 -- DMA queue whose turn on the link it is (R404)
  spent   : Nat := 0                 -- bytes of that turn it has used
  deriving DecidableEq, Repr

/-- A management datagram sent (R415, R416, Table 14.6): the address and the UDP port it goes to, the fields of its header,
    and its body. -/
structure MgtMsg where
  dest : BitVec 128
  port : Nat := 24880
  magic : Nat := 0x4E38
  ver  : Nat := 1
  type : Nat
  modId : Nat
  seq  : Nat
  stamp : Word
  body : List Byte
  deriving DecidableEq, Repr

/-- The management paths: the port and SMBus. -/
structure Mgt where
  seq    : Nat := 0
  sent   : List MgtMsg := []         -- newest first
  nbAnswers : Nat := 0               -- neighbour solicitations answered
  smbOff : Nat := 0                  -- TRDATA offset
  smbMask : BitVec 4 := 0xF          -- ALERTMASK
  alert  : Bool := false             -- ALERT_N is low
  smbOut : List (List Byte × Byte) := [] -- SMBus data returned with its packet error code, newest first; no data for a NACK
  deriving DecidableEq, Repr

/-! ### Power and heat (chapters 01 and 15) -/

/-- The pins, the input stage and the core stage. -/
structure Pins where
  input  : Bool := true              -- the hot-swap stage is closed
  drone  : Bool := true              -- the Drone domain has power
  core   : Bool := true              -- the core stage is started
  pwrGood : Bool := true
  tripLow : Bool := false            -- THERM_TRIP_N is low
  rstLow : Bool := false             -- MOD_RESET_N is taken as low
  want   : Bool := true              -- the core stage is to start once nothing holds it back (R24, R453)
  railFail : Bool := false           -- a rail failed to reach regulation (R24)
  powerLost : Bool := false          -- running on hold-up (R464)
  slot   : BitVec 3 := 7             -- SLOT_ID as read at cold start
  deriving DecidableEq, Repr

/-- A sensor's vote (R430): samples in a row out of the band, and, voted out, in it. -/
structure Vote where
  far  : Nat := 0
  near : Nat := 0
  deriving DecidableEq, Repr

/-- A governor of Table 15.5: its last readings, newest first, and the samples in a row at or below SOFT - 5. -/
structure Gov where
  level : Nat := 0
  temps : List Int := []
  cool  : Nat := 0
  deriving DecidableEq, Repr

/-- An open coalescing window of a die and code (R435). -/
structure TWin where
  count : Nat := 0
  first : Word := 0
  last  : Word := 0
  deriving DecidableEq, Repr

/-- Calipers, Bellows and the governors. -/
structure Thermal where
  votes  : Tbl Vote := []            -- by die * 64 + sensor
  gov    : Tbl Gov := []             -- clusters 0 to 63, port dies 64 to 67
  hist   : List Sample := []         -- since the last module reset, newest first, at most 32
  govHist : List (List Int) := []    -- governed temperature of each die, newest first, at most 128
  trips  : Tbl Nat := []             -- samples in a row that qualify, by die * 64 + sensor and 4096 + stack
  hot    : List Nat := []            -- dies whose hottest governed temperature stands above SOFT
  wins   : List ((Nat × Nat) × TWin) := [] -- open windows by die and code
  power  : List Nat := []            -- input power, newest first, at most 100
  low    : Nat := 0                  -- samples in a row below 0.95 CAP
  saidMs : Option Nat := none        -- millisecond in which 0x8_020 was raised
  soft   : Nat := 105                -- SOFT in force since the last sample (R436)
  due    : Option (Nat × Nat × Nat × Word) := none -- a trip found: die or 16 + stack, sensor, reading, stamp
  hold   : Bool := false             -- Bellows holds further activations (R428)
  deriving DecidableEq, Repr

/-! ### Flash and security (chapter 16) -/

/-- A record commit that waits its turn, or the clearing of the THERMAL record (R462, R463). -/
structure Commit where
  kind : Nat
  payload : List Byte
  clear : Bool := false
  late : Bool := false               -- asked for after the input was lost: it never starts (R464)
  nvs  : Bool := false               -- made by the NVS command in progress
  deriving DecidableEq, Repr

/-- Flash, its commits, and the measurements. -/
structure Store where
  flash   : Tbl Byte := []           -- the NOR flash; a byte not listed reads 0xFF (R455)
  commits : List Commit := []        -- oldest first
  cmd     : Option (Nat × Nat × Nat × Nat) := none -- NVS command in progress: OP, KIND, ADDR, LEN
  cmdCode : Nat := 0                 -- code with which it will fail
  meas    : List (List Byte) := []   -- M0 to M3, 64 B each; none listed reads zeros
  pubKey  : List Byte := []          -- identity public key
  secret  : List Byte := []          -- SK.seed and SK.prf of the identity key, which nothing shows (R467)
  quote   : Option (Nat × List Byte) := none -- address and bytes 0x000 to 0x18F of a quote in progress
  image   : List Byte := []          -- header of the running image
  deriving DecidableEq, Repr

/-! ### Chatter (chapter 17) -/

/-- A Chatter run: its tiles in rank order with the level and temperature at their start. -/
structure ChatTile where
  tile  : Nat
  level : Nat
  temp  : BitVec 16
  done  : Bool := false
  deriving DecidableEq, Repr

/-- The run in progress: its request word and its tiles. -/
structure Chat where
  req   : Word := 0
  tiles : List ChatTile := []
  deriving DecidableEq, Repr


/-- Everything the module holds. `regs` holds every register that is not computed from the other fields: an
    address not listed holds its reset value (`resetAt`). -/
structure State where
  pending : List Instr := []         -- commands waiting, first in, first out (the model's own)
  free    : Nat := 0                 -- free values drawn so far (the model's own; DESIGN CHOICE, log entry 1)
  reply   : Nat × List Byte := (0, []) -- code or push status, and bytes, that the last access returned (the model's own)
  regs    : Tbl Word := []           -- control-space registers by address
  mem     : Tbl Byte := []           -- tile stores and instruction memories, by local physical address
  hold    : Tbl Byte := []           -- hold buffers: tile * 0x10000 + offset
  dev     : Tbl Byte := []           -- HBM devices: pseudo-channel * 0x24000000 + offset
  stale   : Tbl Nat := []            -- pseudo-channels whose unlisted bytes are undefined: 1 + the draw (Table 16.3)
  bad     : List Nat := []           -- device granules with an uncorrectable error, in rising order (R267)
  cache   : Tbl (List Line) := []    -- shared cache of each die, least recently used first
  chan    : Tbl Chan := []           -- HBM channels: stack * 32 + channel
  arb     : Tbl Arb := []            -- arbiters: pseudo-channel
  waits   : List Waiter := []        -- work held back by retraining channels and stopped clusters, oldest first (R95, R264, R268)
  closing : List (Nat × Word) := []  -- regions whose close is in progress, with the clearing write's word (R247)
  tile    : Tbl Tile := []
  cluster : Tbl Cluster := []
  grpPush : Tbl Nat := []            -- group pushes accepted, by group * 4 + engine (R91)
  grpCred : List GrpCred := []       -- group credits still to fire, oldest first (R91)
  reed    : Tbl Reed := []
  drone   : Drone := {}
  rep     : Reports := {}
  fab     : Fabric := {}
  bell    : Tbl Bell := []
  lpLost  : Tbl Nat := []            -- laser lines taken as absent that have not yet stayed present 100 ms (R339)
  chn     : Chanter := {}
  ten     : Tenon := {}
  hl      : HostLink := {}
  mgt     : Mgt := {}
  pins    : Pins := {}
  thm     : Thermal := {}
  sto     : Store := {}
  chat    : Option Chat := none
  route   : Tbl Nat := []            -- package routes: source * 256 + destination * 16 + die -> port + 1 (R293)
  deriving DecidableEq, Repr

/-- The module at the instant PWR_GOOD goes high at a cold start: registers at their Reset column, memory cleared
    (R452), the boot sequence not yet run (DESIGN CHOICE, log entry 2). ALERT_N is low: the host link is not UP (R22, R418). -/
def State.reset : State := { mgt := { alert := true } }

end Sys2Proof.Machine
end

