-- ==== Sys2Proof/Machine/Ops.lean ====
section
/-! DEFINITION. Shared operations: registers, stamps and reports (chapters 00, 02, 17), tiles and their semaphores
(chapter 03), power and isolation as an access meets them. -/

namespace Sys2Proof.Machine

/-! ### Tables -/

/-- The value listed at a key, if any. -/
def tfind {α : Type} : Tbl α → Nat → Option α
  | [], _ => none
  | (j, v) :: rest, k => if j = k then some v else tfind rest k

/-! ### Registers (R9 to R13) -/

/-- The word a register holds. -/
def regGet (s : State) (a : Nat) : Word := tget (resetAt a) s.regs a

/-- Replaces the word a register holds. -/
def regPut (s : State) (a : Nat) (w : Word) : State := { s with regs := tset (resetAt a) s.regs a w }

/-- Bits [hi:lo] of a register. -/
def rf (s : State) (a hi lo : Nat) : Nat := fld (regGet s a) hi lo

/-- Bit `i` of a register. -/
def rbit (s : State) (a i : Nat) : Bool := bit (regGet s a) i

/-- Replaces bits [hi:lo] of a register. -/
def rset (s : State) (a hi lo v : Nat) : State := regPut s a (setFld (regGet s a) hi lo v)

/-- Sets bit `i` of a register. -/
def rsetb (s : State) (a i : Nat) (b : Bool) : State := regPut s a (setBit (regGet s a) i b)

/-- Sets every bit of a register that is 1 in `m`. -/
def rorb (s : State) (a : Nat) (m : Word) : State := regPut s a (regGet s a ||| m)

/-- Adds `n` to bits [hi:lo] of a register, saturating. -/
def rcount (s : State) (a hi lo n : Nat) : State :=
  rset s a hi lo (satAt (2 ^ (hi + 1 - lo) - 1) (rf s a hi lo + n))

/-! ### Places (R1, R2) -/

def dieOf (t : Nat) : Nat := t / 1024
def rowOf (t : Nat) : Nat := t / 32 % 32
def colOf (t : Nat) : Nat := t % 32

/-- The cluster of a tile: die * 8 + row / 4. -/
def clusterOf (t : Nat) : Nat := t / 128

/-- The power domain of a cluster (Table 15.1). -/
def domOfCluster (cl : Nat) : Nat := 12 * (cl / 8) + cl % 8

/-- The unit field of a tile engine (Table 2.4). -/
def unitOfEngine (t e : Nat) : Nat := 0x8000 + e * 0x2000 + t

/-- The unit field of die `d`'s Calipers, Bellows and power control (Table 2.4). -/
def unitOfPower (d : Nat) : Nat := 0x7000 + d

/-- The unit field of P0's power control. -/
def unitP0Power : Nat := 0x7008

def unitFirmware : Nat := 0
def unitHostLink : Nat := 1
def unitFlash : Nat := 0x20
def unitSecurity : Nat := 0x21

/-- The unit field of channel `c` = stack * 32 + channel. -/
def unitOfChan (c : Nat) : Nat := 0x2000 + c
def unitOfReed (c : Nat) : Nat := 0x1000 + c

/-! ### Tenon links (Table 10.1) -/

/-- The ends of link `n`: die and port of end A, then of end B. -/
def linkEnds : List (Nat × Nat × Nat × Nat) :=
  [(8, 1, 0, 0), (0, 1, 1, 0), (1, 1, 2, 0), (2, 1, 3, 0), (3, 1, 9, 0), (10, 1, 4, 0), (4, 1, 5, 0), (5, 1, 6, 0),
   (6, 1, 7, 0), (7, 1, 11, 0), (8, 2, 10, 2), (0, 2, 4, 2), (1, 2, 5, 2), (2, 2, 6, 2), (3, 2, 7, 2), (9, 2, 11, 2)]

def endsOf (l : Nat) : Nat × Nat × Nat × Nat := linkEnds.getD l (0, 0, 0, 0)

/-- The link at a die's port. -/
def linkAt (d p : Nat) : Option Nat :=
  (List.range 16).find? (fun l =>
    let (a, ap, b, bp) := endsOf l
    (a = d && ap = p) || (b = d && bp = p))

/-! ### Tiles and engines -/

def getTile (s : State) (t : Nat) : Tile := tget {} s.tile t
def setTile (s : State) (t : Nat) (x : Tile) : State := { s with tile := tset {} s.tile t x }
def Tile.engine (x : Tile) (e : Nat) : Engine := tget {} x.eng e
def Tile.setEngine (x : Tile) (e : Nat) (g : Engine) : Tile := { x with eng := tset {} x.eng e g }
def getEng (s : State) (a : At) : Engine := (getTile s a.tile.toNat).engine a.eng.toNat
def setEng (s : State) (a : At) (g : Engine) : State :=
  setTile s a.tile.toNat ((getTile s a.tile.toNat).setEngine a.eng.toNat g)
def modEng (s : State) (a : At) (f : Engine → Engine) : State := setEng s a (f (getEng s a))
def getCluster (s : State) (c : Nat) : Cluster := tget {} s.cluster c
def setCluster (s : State) (c : Nat) (x : Cluster) : State := { s with cluster := tset {} s.cluster c x }
def getChan (s : State) (c : Nat) : Chan := tget {} s.chan c
def setChan (s : State) (c : Nat) (x : Chan) : State := { s with chan := tset {} s.chan c x }

/-- Scalar register `r`; x0 reads 0 (R71). -/
def Engine.xr (g : Engine) (r : BitVec 5) : Word := if r = 0 then 0 else tget 0 g.x r.toNat

/-- Writes scalar register `r`; a write to x0 is discarded (R71). -/
def Engine.setX (g : Engine) (r : BitVec 5) (v : Word) : Engine :=
  if r = 0 then g else { g with x := tset 0 g.x r.toNat v }

/-! ### Power, isolation, clocks -/

/-- A switched domain answers: the core stage runs, and the domain is neither off nor switching (R424, R425; an
    arrival meets R96 from the acceptance of a power-off on, Table 15.7; DEDUCED, log entry 17). -/
def domOn (s : State) (d : Nat) : Bool := s.pins.core && rf s (aPwrDom d) 63 62 = 0

/-- A standby GO has been accepted and the module has not booted since (R449). -/
def inStandby (s : State) : Bool := rf s aVrxState 63 60 = 3

/-- A tile's cluster is powered. -/
def tilePowered (s : State) (t : Nat) : Bool := domOn s (domOfCluster (clusterOf t))

/-- A die is cut out or held in die reset (R290, R294). -/
def dieIsolated (s : State) (d : Nat) : Bool := rf s (aTenDieStatus d) 63 60 ≠ 0

/-- A tile's die is isolated. -/
def tileIsolated (s : State) (t : Nat) : Bool := dieIsolated s (dieOf t)

/-- A tile refuses tokens: in tile reset, powered off, or on an isolated die (R87, R487). -/
def tileDeaf (s : State) (t : Nat) : Bool :=
  (getTile s t).resetting || !tilePowered s t || tileIsolated s t

/-- The port die of a router port (Table 1.2, R297): die numbers of Table 2.4. -/
def portDie : Nat → Nat
  | 0 => 9 | 1 => 8 | 2 => 11 | 3 => 10 | 4 => 9 | 5 => 10 | 14 => 8 | p => p - 6

/-- The port die of a Bell (Table 1.2). -/
def bellDie (b : Nat) : Nat := if b = 6 then 8 else portDie b

/-- The rate in MHz of the PLL that counts a unit's FRAC (Tables 2.2 and 15.2); none in a Drone island, which has no fast
    clock and holds Calipers and the flash controller (R43, R423; DEDUCED, log entry 117). -/
def unitPll (u : Nat) : Option Nat :=
  match u / 0x1000 with
  | 0 => if u = unitFlash then none else some 1600
  | 1 | 2 => some 800
  | 3 | 4 | 5 => some 1600
  | 6 => some (if u % 0x1000 < 64 then 1100 else 1600)
  | 7 => none
  | _ => some 1100

/-- The router and Tenon domain of a die: on a compute die, that of its on-die network (Table 15.1). -/
def netDom (d : Nat) : Nat := if d < 8 then 12 * d + 10 else 96 + 4 * (d - 8)

/-- The power domain that clocks a unit (Table 15.1; DEDUCED, log entry 117). -/
def unitDomain (u : Nat) : Nat :=
  let i := u % 0x1000
  match u / 0x1000 with
  | 0 => 99
  | 1 => 12 * (i / 64) + 8 + i / 32 % 2
  | 2 => 12 * (i / 64) + 11
  | 3 => 97 + 4 * i
  | 4 => netDom (portDie i)
  | 5 => 98 + 4 * (bellDie i - 8)
  | 6 => netDom (i / 8)
  | _ => domOfCluster (clusterOf (u % 0x2000))

/-- The fast clock of a unit is stopped or off: its domain has no power, or it is an engine of a tile that is gated or whose
    cluster's clock does not run (R42). -/
def unitStopped (s : State) (u : Nat) : Bool :=
  (unitPll u).isNone || !domOn s (unitDomain u) ||
  (decide (0x8000 ≤ u) && ((getTile s (u % 0x2000)).gated || (getCluster s (clusterOf (u % 0x2000))).clk != .running))

/-- The module's ID (R47). -/
def moduleId (s : State) : Nat := rf s aFabCfg 15 0

/-- MODID is valid (R303). -/
def idValid (s : State) : Bool := rbit s aFabCfg 62

/-! ### Stamps (R40 to R50) -/

/-- TICK in [63:12] and the given FRAC. -/
def stampWord (tick : BitVec 52) (frac : BitVec 12) : Word := tick ++ frac

/-- `a` is later than `b`: their difference modulo 2^64 is positive as a signed number (R39). -/
def later (a b : Word) : Bool := decide (0 < (a - b).toInt)

/-- FRAC after `n` cycles of a unit's PLL output in a tick (R41). -/
def fracAt (u n : Nat) : BitVec 12 := BitVec.ofNat 12 (min 0xFFF (n * 102400 / (unitPll u).getD 1))

/-- The stamp of an item that a unit emits while its fast clock runs, and the cycle of its tick that it marks. `l` is the
    unit's last stamp and `n` that stamp's cycle; `d` counts the cycles since: since the tick edge where the tick is a new one,
    else since the last item. A unit whose FRAC is held waits for the edge of the next tick (R41, R49). -/
def runStamp (tick : BitVec 52) (u d : Nat) (l : Word) (n : Nat) : Word × Nat :=
  let now := stampWord tick (fracAt u d)
  if later (stampWord tick 0) l then (now, d)
  else
    let t : BitVec 52 := BitVec.ofNat 52 (l.toNat / 4096)
    let next := stampWord t (fracAt u (n + 1 + d))
    if later next l then (next, n + 1 + d) else (stampWord (t + 1) (fracAt u d), d)

/-- The next stamp of a unit, and the state that remembers it. While the unit's clock runs, the cycles of its fine counter are
    a free value (R41); while it is stopped, FRAC is 0, or the last stamp is repeated (R42). A unit's stamps rise (R49) and never
    fall (R50). Every die's island counts as the master does, with no skew (R37; DESIGN CHOICE, log entry 118). (DEDUCED, log
    entry 10.) -/
def takeStamp (s : State) (u : Nat) : Word × State :=
  let d := Config.cycles s.free
  let raw := stampWord s.drone.tick 0
  let r : Word × Nat :=
    match tfind s.rep.last u with
    | none => if unitStopped s u then (raw, 0) else (stampWord s.drone.tick (fracAt u d), d)
    | some l =>
      if !unitStopped s u then runStamp s.drone.tick u d l (tget 0 s.rep.fine u)
      else if later raw l then (raw, 0) else (l, tget 0 s.rep.fine u)
  let rep := { s.rep with last := tinsert s.rep.last u r.1, fine := tset 0 s.rep.fine u r.2 }
  (r.1, { s with free := s.free + 1, rep := rep })

/-- The next sequence number of a unit (R48). -/
def takeSeq (s : State) (u : Nat) : BitVec 16 × State :=
  let n := tget 0 s.rep.seq u
  (n, { s with rep := { s.rep with seq := tset 0 s.rep.seq u (n + 1) } })

/-! ### Reports (R474 to R483) -/

/-- The codes that are events; every other code is a fault (R475, R499). -/
def eventCodes : List Nat :=
  [0x10C0, 0x10D2, 0x2060, 0x2062, 0x2063, 0x2065, 0x2066, 0x3001, 0x3002, 0x3003, 0x3005, 0x3007, 0x4021,
   0x40C1, 0x40C2, 0x5001, 0x5002, 0x5003, 0x5010, 0x5011, 0x5012, 0x5014, 0x5015, 0x5030, 0x6021, 0x6040] ++
  [0x7001, 0x7002, 0x7003, 0x7004, 0x7020, 0x7021, 0x7040, 0x7041, 0x8013, 0x8020, 0x8041, 0x8042, 0x9004,
   0x9013, 0x9032, 0x9051, 0xA001, 0xA002, 0xA020]

/-- The codes a table marks as result-affecting (Tables 9.19, 10.19, 11.13, 13.14, 14.15, 15.10, 16.17, 17.9, 17.11). -/
def resultCodes : List Nat :=
  [0x1001, 0x1002, 0x1003, 0x1004, 0x1005, 0x1006, 0x1007, 0x1008, 0x1009, 0x100A, 0x100B, 0x100C, 0x1020, 0x1021,
   0x1022, 0x1030, 0x1031, 0x1032, 0x1033, 0x1034, 0x1041, 0x1042, 0x10A0, 0x10F0, 0x10C1, 0x10D0, 0x2001, 0x2020,
   0x2021] ++
  [0x2040, 0x2041, 0x2042, 0x2044, 0x2045, 0x2046, 0x2048, 0x2050, 0x2052, 0x2053, 0x2061, 0x2064, 0x3004, 0x3006,
   0x3010, 0x3011, 0x3030, 0x4010, 0x4011, 0x4015, 0x4022, 0x4023, 0x4024, 0x4030, 0x6002, 0x6010, 0x6011, 0x6020,
   0x6030, 0x6031, 0x6032, 0x7030, 0x8011, 0x8012, 0x9005, 0xA003, 0xA004, 0xA010, 0xA011]

/-- A code of no reserved class (R474). -/
def legalClass (code : Nat) : Bool := 0x1000 ≤ code && code < 0xB000

def isEvent (code : Nat) : Bool := eventCodes.contains code
def isResult (code : Nat) : Bool := resultCodes.contains code

/-- What a report carries beside its code and source (Tables 17.2 and 17.3). -/
structure Info where
  peer : Nat := 0
  tag  : Nat := 0
  a0 : Word := 0
  a1 : Word := 0
  a2 : Word := 0
  a3 : Word := 0
  remote : Bool := false
  event : Bool := false              -- an event of a code that the spec does not name (R79, R306, Table 14.3; DESIGN CHOICE, log entry 7)
  failing : Bool := false            -- an engine, Reed, queue or collective faults with the code (R475)
  coal : Option Nat := none          -- COUNT of a coalesced summary
  deriving DecidableEq, Repr

/-- DRN_ALIGN.ALIGNED. -/
def aligned (s : State) : Bool := rbit s aDrnAlign 63

/-- Emits one record from unit `u` (R476). -/
def emit (s : State) (u code : Nat) (i : Info) : State :=
  let (w, s) := takeStamp s u
  let (n, s) := takeSeq s u
  let r : Rec :=
    { stamp := w, unit := u, modId := moduleId s, seq := n, code := BitVec.ofNat 16 code,
      fault := !(isEvent code || i.event), result := (isResult code && !i.event) || i.failing, remote := i.remote
      aligned := aligned s,
      coal := i.coal.isSome, count := i.coal.getD 1, peer := i.peer, tag := i.tag,
      a0 := i.a0, a1 := i.a1, a2 := i.a2, a3 := i.a3 }
  { s with rep := { s.rep with raised := s.rep.raised ++ [r] } }

/-- A known-fault notice slot covers a pair (R483). -/
def noticeCovers (s : State) (n peer code : Nat) : Bool :=
  let w := regGet s (aMgtKfns n)
  bit w 63 && (bit w 62 || fld w 47 32 = code) && fld w 15 0 = peer

/-- The lowest notice slot that covers a pair. -/
def findNotice (s : State) (peer code : Nat) : Option Nat :=
  (List.range 16).find? (fun n => noticeCovers s n peer code)

def windowIs (peer code : Nat) (w : Window) : Bool := w.peer = peer && w.code.toNat = code

/-- Counts a report in the open window of its pair. -/
def countInWindow (peer code : Nat) (st : Word) : List Window → List Window
  | [] => []
  | w :: ws =>
    if windowIs peer code w then
      { w with count := w.count + 1, first := if w.count = 0 then st else w.first, last := st } :: ws
    else w :: countInWindow peer code st ws

/-- A REMOTE report: suppressed by a notice, counted in an open window, or emitted (R481, R483). -/
def reportRemote (s : State) (u code : Nat) (i : Info) : State :=
  match findNotice s i.peer code with
  | some n => rcount s (aMgtKfns n) 31 16 1
  | none =>
    if rf s aMgtStorm 47 32 = 0 then emit s u code i
    else if s.rep.windows.any (windowIs i.peer code) then
      let (st, s) := takeStamp s u
      { s with rep := { s.rep with windows := countInWindow i.peer code st s.rep.windows } }
    else if 128 ≤ s.rep.windows.length then rcount s aMgtStorm 31 16 1
    else
      let s := emit s u code i
      let s := { s with rep := { s.rep with
        windows := s.rep.windows ++ [{ peer := i.peer, code := BitVec.ofNat 16 code }] } }
      rset s aMgtStorm 15 8 s.rep.windows.length

/-- Reports a code from unit `u`. -/
def report (s : State) (u code : Nat) (i : Info := {}) : State :=
  if i.remote then reportRemote s u code i else emit s u code i

/-- The lanes of link `l` that are whole. -/
def linkWhole (s : State) (l : Nat) : Nat := rf s (aTenLinkStatus l) 59 44

/-- ARG words of a code of class 0x3: the link, where one is concerned, with its lanes that are whole, the die and the cause
    (Table 17.3). -/
def linkArgs (s : State) (l : Option Nat) (d cause : Nat) : Info :=
  { a0 := BitVec.ofNat 64 (l.getD 0 + d * 2 ^ 8 + cause * 2 ^ 12)
    a1 := BitVec.ofNat 64 (match l with
      | some l => linkWhole s l
      | none => 0) }

/-- The port by which a die's route toward another left it when the route last stood (Table 17.12). -/
def routePort (s : State) (d t : Nat) : Nat := tget 0 s.route (d * 256 + t * 16 + d) - 1

/-- Fault 0x3_010 of a requester on die `d` whose request does not reach die `t`: the source is the link end by which the route
    left `d` (Table 17.12), the die and the cause are those of `t` (Table 17.3). -/
def reportCut (s : State) (d t : Nat) : State :=
  report s (0x6000 + d * 8 + routePort s d t) 0x3010
    (linkArgs s (linkAt d (routePort s d t)) t (rf s (aTenDieStatus t) 59 56))

/-! ### Free values -/

/-- `n` undefined bytes (R113, R487), and the state that has drawn them. -/
def freeBytes (s : State) : Nat → List Byte
  | 0 => []
  | n + 1 => Config.freeByte (s.free + n) :: freeBytes s n

def drawn (s : State) (n : Nat) : State := { s with free := s.free + n }

/-- `w` undefined bits, `k` draws on from the next. -/
def freeBits (s : State) (k w : Nat) : BitVec w := BitVec.ofNat w (leNat (freeBytes { s with free := s.free + k } ((w + 7) / 8)))

/-! ### Semaphores and tokens (R81 to R87) -/

def Tile.semVal (x : Tile) (n : Nat) : Nat := (tget 0 x.sem n).toNat
def Tile.setSem (x : Tile) (n v : Nat) : Tile := { x with sem := tset 0 x.sem n (BitVec.ofNat 16 v) }

/-- The unit that reports for a tile as a whole: one of its engines, left open (DESIGN CHOICE, log entry 8). -/
def unitOfTile (t : Nat) : Nat := unitOfEngine t (Config.tileReporter t).toNat

/-- ARG0 of a report about a tile. -/
def tileArg (t : Nat) : Word := BitVec.ofNat 64 t

/-- Adds `n` to a semaphore; a sum above 65,535 saturates, sets SEMOVF and raises 0x1_041 (R81). -/
def semAdd (s : State) (t sem n : Nat) : State :=
  let x := getTile s t
  let v := x.semVal sem + n
  if v ≤ 65535 then setTile s t (x.setSem sem v)
  else
    let s := setTile s t (x.setSem sem 65535)
    let s := rsetb s (aTileStatus t) (32 + sem) true
    report s (unitOfTile t) 0x1041 { a0 := tileArg t }

/-- Bellows may admit one more activation of a cluster: its clock runs, and fewer than 16 fall in the last 1 µs (R94, R427). -/
def Cluster.admits (c : Cluster) : Bool := decide (c.clk = .running) && decide (c.acts.length < 16)

/-- An activation is admitted: the tile leaves clock gating (R427). -/
def activate (s : State) (t : Nat) : State :=
  let c := getCluster s (clusterOf t)
  setCluster (setTile s t { getTile s t with gated := false, waking := false }) (clusterOf t) { c with acts := 0 :: c.acts }

/-- An arrival at a tile: it ends clock gating, subject to Bellows, and starts a stopped cluster (R94, R95).
    (DESIGN CHOICE, log entry 20.) -/
def wakeTile (s : State) (t : Nat) : State :=
  let c := getCluster s (clusterOf t)
  let s := if c.clk = .stopped then setCluster s (clusterOf t) { c with clk := .starting } else s
  let x := getTile s t
  if x.gated then if c.admits ∧ !s.thm.hold then activate s t else setTile s t { x with waking := true }
  else s

/-! ### Addresses of tiles, and work that waits (R95, Table 0.5) -/

/-- Bytes of HBM (R3): 576 GiB. -/
def hbmBytes  : Nat := 0x9000000000
def storeBase : Nat := 0x020000000000
def storeEnd  : Nat := 0x020080000000
def imemBase  : Nat := 0x021000000000
def imemEnd   : Nat := 0x021010000000
def tileRegs  : Nat := 0x030004000000

/-- A hold buffer's place among local physical addresses, also in the addresses of DATA2 (DESIGN CHOICE, log entry 37). -/
def holdPhys  : Nat := 0x022000000000

/-- The tiles' stores, instruction memories, hold buffers and register windows: where those of tile 0 start, and their bytes for
    each of the 8,192 tiles. -/
def tileAreas : List (Nat × Nat) :=
  [(storeBase, 0x40000), (imemBase, 0x8000), (holdPhys, 0x10000), (tileRegs, 0x1000), (0x030006000000, 8), (0x030007000000, 0x20),
   (0x030008000000, 0x200), (0x030009000000, 0x1000), (0x03000B000000, 0x80), (0x03000C000000, 8)]

/-- The tile that holds an address. -/
def tileAt (a : Nat) : Option Nat :=
  tileAreas.findSome? (fun x => if x.1 ≤ a ∧ a < x.1 + 8192 * x.2 then some ((a - x.1) / x.2) else none)

/-- The clock of the tile's cluster stands: the cluster's gate holds what arrives until it runs (R95). -/
def tileStops (s : State) (t : Nat) : Bool :=
  tilePowered s t && !tileIsolated s t && !decide ((getCluster s (clusterOf t)).clk = .running)

/-- A range of addresses that an access reads or writes, as held work lists it; control space but for the tiles' registers has
    none. -/
def memSpan (a len : Nat) : List (Nat × Nat) := if len ≠ 0 ∧ (a + len ≤ hbmBytes ∨ (tileAt a).isSome) then [(a, len)] else []

/-- The tiles of a range. -/
def spanTiles (x : Nat × Nat) : List Nat :=
  match tileAt x.1, tileAt (x.1 + x.2 - 1) with
  | some t, some u => (List.range (u - t + 1)).map (t + ·)
  | _, _ => []

/-- An access that a gate has accepted starts its cluster (R95). -/
def callTiles (s : State) (xs : List (Nat × Nat)) : State :=
  (xs.flatMap spanTiles).foldl (fun s t => if tileStops s t then wakeTile s t else s) s

/-- Holds work back behind what waits already. -/
def holdWork (s : State) (xs : List (Nat × Nat)) (w : Work) : State :=
  let s := callTiles s xs
  { s with waits := s.waits ++ [⟨xs, w⟩] }

/-- A token reaches a tile: it is discarded with 0x1_042 where the tile is deaf (R87), held by a stopped cluster's
    gate (R95), or added. -/
def token (s : State) (t sem n : Nat) : State :=
  if n = 0 then s
  else if tileDeaf s t then report s (unitOfTile t) 0x1042 { a0 := tileArg t }
  else if tileStops s t then holdWork s (memSpan (storeBase + t * 0x40000) 64) (.token t sem n)
  else semAdd (wakeTile s t) t sem n

/-- A token that a transfer's completion sends: as `token`, and the transfer also ends with error where the tile is
    deaf (R87). -/
def tokenCode (s : State) (t : Nat) (n : Nat) : Nat := if n ≠ 0 ∧ tileDeaf s t then 0x1042 else 0

/-! ### Engine faults (R100, R140) -/

/-- ARG0 of a record that a tile engine raises (Table 17.3). -/
def engineArg (a : At) (pc : Nat) : Word := BitVec.ofNat 64 (a.tile.toNat + a.eng.toNat * 2 ^ 13 + pc * 2 ^ 16)

/-- TAG of an engine's running entry. -/
def Engine.tag (g : Engine) : Nat :=
  match g.running with
  | some r => fld r.w1 63 48
  | none => 0

/-- An engine faults: it stops in FAULTED with the code, and reports it (R100), with the PEER and REMOTE `w` of an operation
    toward another module (R480). -/
def faultEngine (s : State) (a : At) (code : Nat) (addr : Word := 0) (trap : Word := 0) (w : Nat × Bool := (0, false)) : State :=
  let g := getEng s a
  let s := setEng s a { g with phase := .faulted, fault := BitVec.ofNat 16 code, held := none, full := false, answer := none, plan := none }
  report s (unitOfEngine a.tile.toNat a.eng.toNat) code
    { peer := w.1, remote := w.2, tag := g.tag, a0 := engineArg a g.pc.toNat, a1 := addr, a2 := trap, failing := true }

/-- True when a list of engines of a tile satisfies a test. -/
def allEngines (x : Tile) (p : Engine → Bool) : Bool :=
  p (x.engine 0) && p (x.engine 1) && p (x.engine 2) && p (x.engine 3)

/-- An engine holds a waiting or running entry. -/
def Engine.busy (g : Engine) : Bool := g.running.isSome || !g.queue.isEmpty

/-- A tile is idle as R486 requires: engines IDLE, queues empty, no outstanding transfer. -/
def Tile.idle (x : Tile) : Bool :=
  allEngines x (fun g => !g.busy && decide (g.phase = .idle) && g.xfers.isEmpty)

end Sys2Proof.Machine
end

