-- ==== Sys2Proof/Machine/Hbm.lean ====
section
/-! DEFINITION. HBM as a request sees it (chapter 09): the interleave map, the shared caches, write combining, the
device, and the atomic records. -/

namespace Sys2Proof.Machine

/-- Bytes of one pseudo-channel (R240): 576 MiB. -/
def pcBytes : Nat := 0x24000000

/-! ### Placing addresses (R242 to R245) -/

/-- The excluded channel of a stack (R271). -/
def exclOf (s : State) (stk : Nat) : Option Nat :=
  if rbit s (aHbmExcl stk) 5 then some (rf s (aHbmExcl stk) 4 0) else none

/-- Channels in service of a stack. -/
def inService (s : State) (stk : Nat) : Nat := if (exclOf s stk).isSome then 31 else 32

/-- The `idx`-th channel in service of a stack, ascending. -/
def nthChan (s : State) (stk idx : Nat) : Nat :=
  match exclOf s stk with
  | some e => if idx < e then idx else idx + 1
  | none => idx

def rgnEn (s : State) (n : Nat) : Bool := rbit s (aHbmRgnCtrl n) 63
def rgnAffine (s : State) (n : Nat) : Bool := rbit s (aHbmRgnCtrl n) 62
def rgnCacheSite (s : State) (n : Nat) : Bool := rbit s (aHbmRgnCtrl n) 61
def rgnCpol (s : State) (n : Nat) : Nat := rf s (aHbmRgnCtrl n) 60 59
def rgnNstk (s : State) (n : Nat) : Nat := rf s (aHbmRgnCtrl n) 52 48
def rgnStk0 (s : State) (n : Nat) : Nat := rf s (aHbmRgnCtrl n) 47 44
def rgnBlk (s : State) (n : Nat) : Nat := rf s (aHbmRgnCtrl n) 23 0 * 64
def rgnBase (s : State) (n : Nat) : Nat := rf s (aHbmRgnBase n) 39 6 * 64
def rgnSize (s : State) (n : Nat) : Nat := rf s (aHbmRgnSize n) 39 6 * 64
def rgnDbase (s : State) (n : Nat) : Nat := rf s (aHbmRgnDev n) 21 0

/-- The channels in service of an AFFINE region's stacks, in stack and then channel order (R245). -/
def affineList (s : State) (stk : Nat) : Nat → List Nat
  | 0 => []
  | k + 1 => (List.range (inService s stk)).map (fun i => stk * 32 + nthChan s stk i) ++ affineList s (stk + 1) k

/-- Where a byte of HBM lies: channel (stack * 32 + channel), pseudo-channel, offset. -/
structure Spot where
  chan : Nat
  pc   : Nat
  off  : Nat
  deriving DecidableEq, Repr

/-- R244. -/
def fineSpot (s : State) (dbase o : Nat) : Spot :=
  let g := o / 256
  let stk := g % 16
  let h := g / 16
  let n := inService s stk
  ⟨stk * 32 + nthChan s stk (h % n), h / n % 2, dbase * 256 + h / (2 * n) * 256 + o % 256⟩

/-- R245. -/
def affineSpot (list : List Nat) (blk dbase o : Nat) : Spot :=
  let b := o / blk
  let nch := list.length
  let q := b / nch * blk + o % blk
  ⟨list.getD (b % nch) 0, q / 256 % 2, dbase * 256 + q / 512 * 256 + q % 256⟩

/-- The enabled region that covers an address (R242). -/
def regionOf (s : State) (a : Nat) : Option Nat :=
  (List.range 16).find? (fun n => rgnEn s n && decide (rgnBase s n ≤ a) && decide (a < rgnBase s n + rgnSize s n))

/-- Where region `n` places an address. -/
def spotIn (s : State) (n a : Nat) : Spot :=
  let o := a - rgnBase s n
  if rgnAffine s n then affineSpot (affineList s (rgnStk0 s n) (rgnNstk s n)) (rgnBlk s n) (rgnDbase s n) o
  else fineSpot s (rgnDbase s n) o

/-- Region and place of an address. -/
def place (s : State) (a : Nat) : Option (Nat × Spot) :=
  match regionOf s a with
  | some n => some (n, spotIn s n a)
  | none => none

/-- Where a line or an entry of an address goes, its region enabled or closing (R247). -/
def placeHeld (s : State) (a : Nat) : Option Spot :=
  match (List.range 16).find? (fun n =>
    (rgnEn s n || s.closing.any (fun c => c.1 = n)) && decide (rgnBase s n ≤ a) &&
      decide (a < rgnBase s n + rgnSize s n)) with
  | some n => some (spotIn s n a)
  | none => none

/-- The device byte of a place. -/
def Spot.key (p : Spot) : Nat := (p.chan * 2 + p.pc) * pcBytes + p.off

/-- The compute die whose cache is home to a channel (R248). -/
def homeDie (c : Nat) : Nat := c / 64

/-- HBM_CHn_STATUS.STATE: 0 UP, 1 RETRAINING, 2 DOWN, 3 EXCLUDED, 4 TRAINING. -/
def chState (s : State) (c : Nat) : Nat := rf s (aHbmChStatus c) 63 60

/-- Why a request to a channel fails: its die is isolated (Table 10.8), or it is DOWN (R269); 0 where it does not.
    (DESIGN CHOICE, log entry 15.) -/
def chanCode (s : State) (c : Nat) : Nat :=
  if dieIsolated s (homeDie c) then 0x3010 else if chState s c = 2 then 0x2064 else 0

/-! ### Requests that a retraining or a stopped cluster holds back (R95, R264, R268) -/

/-- Granules that [a, a + len) touches. -/
def granCount (a len : Nat) : Nat := if len = 0 then 0 else (a % 64 + len + 63) / 64

/-- A channel retrains on a die that is not isolated: the requests for it wait. -/
def chanHolds (s : State) (c : Nat) : Bool := chState s c = 1 && !dieIsolated s (homeDie c)

/-- Granule `g` lies in a range. -/
def inSpan (g : Nat) (x : Nat × Nat) : Bool := decide (x.1 / 64 ≤ g) && decide (g < x.1 / 64 + granCount x.1 x.2)

/-- A request to granule `g` waits: its channel retrains, or an older request to it waits (R264, R268). -/
def granWaits (s : State) (g : Nat) : Bool :=
  match place s (g * 64) with
  | some (_, p) => chanHolds s p.chan || s.waits.any (fun w => w.spans.any (inSpan g))
  | none => false

/-- An access to a range waits: for the clock of a tile that it reaches (R95), or for a channel. -/
def spanWaits (s : State) (x : Nat × Nat) : Bool :=
  if (tileAt x.1).isSome then (spanTiles x).any (tileStops s)
  else (List.range (granCount x.1 x.2)).any (fun i => granWaits s (x.1 / 64 + i))

/-- A request to these ranges waits. -/
def heldBack (s : State) (xs : List (Nat × Nat)) : Bool := xs.any (spanWaits s)

/-! ### Granules of 64 B -/

def bytes512 (d : BitVec 512) : List Byte := natLE 64 d.toNat
def of512 (bs : List Byte) : BitVec 512 := BitVec.ofNat 512 (leNat bs)

/-- The new byte where the mask has a 1, the old one elsewhere; `i` is the index of the first byte. -/
def mergeBytes (mask : Nat) : Nat → List Byte → List Byte → List Byte
  | i, o :: os, n :: ns => (if mask.testBit i then n else o) :: mergeBytes mask (i + 1) os ns
  | _, os, [] => os
  | _, [], _ => []

def fullMask : Nat := 2 ^ 64 - 1

/-! ### The shared cache (R248, R249) -/

def linesOf (s : State) (d : Nat) : List Line := tget [] s.cache d
def setLines (s : State) (d : Nat) (ls : List Line) : State := { s with cache := tset [] s.cache d ls }
def findLine (s : State) (d g : Nat) : Option Line := (linesOf s d).find? (fun l => l.gran = g)

/-- The line that serves a read: a Reed's weight read (`alloc` false) takes a dirty line only (R250).
    (DEDUCED, log entry 33.) -/
def servingLine (s : State) (d g : Nat) (alloc : Bool) : Option Line :=
  match findLine s d g with
  | some l => if alloc || l.dirty then some l else none
  | none => none

/-- What an unlisted device byte reads as: 0 (R452), or undefined after a die reset (Table 16.3). -/
def devDefault (s : State) (k : Nat) : Byte :=
  match tget 0 s.stale (k / pcBytes) with
  | 0 => 0
  | n + 1 => Config.lostByte n k

/-- Reads device bytes. -/
def devRead (s : State) (k : Nat) : Nat → List Byte
  | 0 => []
  | n + 1 => tget (devDefault s k) s.dev k :: devRead s (k + 1) n

/-- Writes device bytes. -/
def devPut (s : State) (k : Nat) : List Byte → State
  | [] => s
  | b :: bs => devPut { s with dev := tset (devDefault s k) s.dev k b } (k + 1) bs

/-- Writes a whole granule to the device; a full write mends a bad granule (R267). -/
def devWrite (s : State) (key : Nat) (bs : List Byte) : State :=
  { devPut s key bs with bad := s.bad.filter (fun k => k ≠ key) }

/-! ### Queues at the arbiters (R260, R261) -/

def getArb (s : State) (p : Nat) : Arb := tget {} s.arb p
def setArb (s : State) (p : Nat) (x : Arb) : State := { s with arb := tset {} s.arb p x }

/-- Base priorities of the classes: 0 LC, 1 REED, 2 ATOM, 3 BULK, 4 WB (Table 9.4). -/
def basePrio : Nat → Nat
  | 0 => 12 | 1 => 10 | 2 => 8 | 3 => 4 | _ => 2

/-- A granule at device offset `off` joins a request: at most 4 bursts over consecutive granules of one 256 B run, which is
    all that a pseudo-channel holds in a row of an address range (R244, R245, R260; DESIGN CHOICE, log entry 143). -/
def ArbReq.joins (r : ArbReq) (off : Nat) : Bool :=
  r.off + 64 * r.bursts = off && decide (r.bursts < 4) && r.off / 256 = off / 256

/-- A class whose grants take 1 to 4 bursts: REED and BULK (Table 9.4). -/
def multiBurst (cls : Nat) : Bool := cls = 1 || cls = 3

/-- A request joins the newest of its class, or queues behind it. -/
def queueReq (cls bursts off : Nat) (l : List ArbReq) : List ArbReq :=
  match l.getLast? with
  | some r =>
    if multiBurst cls ∧ bursts = 1 ∧ r.joins off then l.dropLast ++ [{ r with bursts := r.bursts + 1 }]
    else l ++ [⟨bursts, basePrio cls, 0, off⟩]
  | none => [⟨bursts, basePrio cls, 0, off⟩]

/-- Queues a request of one class at a pseudo-channel. -/
def arbAdd (s : State) (p cls bursts off : Nat) : State :=
  let a := getArb s p
  setArb s p { a with q := tmod [] a.q cls (queueReq cls bursts off) }

/-- The DEBUG requester, which stands above every class (Table 9.4). -/
def clsDebug : Nat := 6

/-- Queues a request of one class, or of the DEBUG requester, for a place. -/
def Spot.queue (p : Spot) (s : State) (cls bursts : Nat) : State :=
  let pc := p.chan * 2 + p.pc
  if cls = clsDebug then setArb s pc { getArb s pc with debug := (getArb s pc).debug + bursts } else arbAdd s pc cls bursts (p.off / 64 * 64)

/-- A WB request to a channel that is DOWN ends with error and its bytes are lost: 0x2_064 names the channel and the
    granule (R269; DESIGN CHOICE, log entry 15). -/
def reportDown (s : State) (c g : Nat) : State :=
  report s (unitOfChan c) 0x2064 { a0 := BitVec.ofNat 64 c, a1 := BitVec.ofNat 64 (g * 64) }

/-- Writes a line back to its place, as a WB request (R249, R269). -/
def writeBack (s : State) (l : Line) : State :=
  match placeHeld s (l.gran * 64) with
  | some p =>
    if chState s p.chan = 2 then reportDown s p.chan l.gran else devWrite (p.queue s 4 1) p.key (bytes512 l.data)
  | none => s

/-- The set of a granule, one of the 32,768 that 32 MiB of 64 B lines in 16 ways make (R248). -/
def cacheSetOf (g : Nat) : Nat := Config.cacheSet g % 32768

/-- The line that makes room for granule `g`: the least recently used of its set once 16 ways are taken. With fewer
    than 16 lines in the whole cache no set can be full. -/
def victim (ls : List Line) (g : Nat) : Option Line :=
  if ls.length < 16 then none
  else
    let same := ls.filter (fun l => cacheSetOf l.gran = cacheSetOf g)
    if same.length < 16 then none else same.head?

/-- Puts a line in the cache as the most recently used, writing a dirty victim back. -/
def putLine (s : State) (d : Nat) (l : Line) : State :=
  let ls := (linesOf s d).filter (fun x => x.gran ≠ l.gran)
  match victim ls l.gran with
  | some v =>
    let s := setLines s d (ls.filter (fun x => x.gran ≠ v.gran) ++ [l])
    if v.dirty then writeBack s v else s
  | none => setLines s d (ls ++ [l])

def dropLine (s : State) (d g : Nat) : State := setLines s d ((linesOf s d).filter (fun x => x.gran ≠ g))

/-! ### Write combining (R252 to R254) -/

def findWc (s : State) (c g : Nat) : Option WcEntry := (getChan s c).wc.find? (fun e => e.gran = g)
def removeWc (s : State) (c g : Nat) : State :=
  setChan s c { getChan s c with wc := (getChan s c).wc.filter (fun e => e.gran ≠ g) }

/-- An uncorrectable error: UE and fault 0x2_061, naming the channel and the granule (R267). `tell` is false for an access from
    another module, which raises nothing here (R305). -/
def reportUe (s : State) (c g : Nat) (tell : Bool := true) : State :=
  let s := rsetb s (aHbmChStatus c) 0 true
  if !tell then s else report s (unitOfChan c) 0x2061 { a0 := BitVec.ofNat 64 c, a1 := BitVec.ofNat 64 (g * 64) }

/-- Drains an entry to the device as a WB request. A partial entry takes two slots: it reads the granule first, and if
    that read meets an uncorrectable error the entry's bytes are lost (R253, R267), as they are where the channel is DOWN
    (R269). -/
def drainEntry (s : State) (c : Nat) (e : WcEntry) : State :=
  let s := removeWc s c e.gran
  match placeHeld s (e.gran * 64) with
  | none => s
  | some p =>
    if chState s p.chan = 2 then reportDown s p.chan e.gran
    else
      let s := p.queue s 4 (if e.mask.toNat = fullMask then 1 else 2)
      if e.mask.toNat = fullMask then devWrite s p.key (bytes512 e.data)
      else if s.bad.contains p.key then reportUe s c e.gran
      else devWrite s p.key (mergeBytes e.mask.toNat 0 (devRead s p.key 64) (bytes512 e.data))

/-- Drains the entry of a granule, if there is one. -/
def drainGran (s : State) (c g : Nat) : State :=
  match findWc s c g with
  | some e => drainEntry s c e
  | none => s

/-- Merges bytes into the channel's entry for a granule, taking one where there is none. With all 64 taken the oldest
    drains first; an entry whose mask fills drains (R252, R253). (DESIGN CHOICE, log entry 19.) -/
def combine (s : State) (c g mask : Nat) (bs : List Byte) : State :=
  match findWc s c g with
  | some e =>
    let e' : WcEntry := ⟨g, e.mask ||| BitVec.ofNat 64 mask, of512 (mergeBytes mask 0 (bytes512 e.data) bs)⟩
    let ch := getChan s c
    let s := setChan s c { ch with wc := ch.wc.map (fun x => if x.gran = g then e' else x) }
    if e'.mask.toNat = fullMask then drainEntry s c e' else s
  | none =>
    let s :=
      if (getChan s c).wc.length < 64 then s
      else match (getChan s c).wc with
        | o :: _ => drainEntry s c o
        | [] => s
    let ch := getChan s c
    let e : WcEntry := ⟨g, BitVec.ofNat 64 mask, of512 (mergeBytes mask 0 (List.replicate 64 0) bs)⟩
    setChan s c { ch with wc := ch.wc ++ [e] }

/-! ### Reading and writing granules (R249, R252, R254) -/

/-- The bytes of a granule that misses in the cache: the device's, merged with an entry. `none` on an uncorrectable
    error. -/
def missBytes (s : State) (c g key : Nat) : Option (List Byte) :=
  if s.bad.contains key then none
  else
    match findWc s c g with
    | some e => some (mergeBytes e.mask.toNat 0 (devRead s key 64) (bytes512 e.data))
    | none => some (devRead s key 64)

/-- Reads granule `g` with a request of class `cls`: bytes, code (0 without error), state. `alloc` is false for a Reed's
    weight read (R250). The channel is tested before the cache, so a hit on a granule of a DOWN channel also fails: R269 says
    every request to the channel, and does not say whether a hit is one (DESIGN CHOICE, log entry 144). -/
def readGran (s : State) (g : Nat) (alloc : Bool) (cls : Nat) (tell : Bool := true) : List Byte × Nat × State :=
  match place s (g * 64) with
  | none => ([], 0x2050, s)
  | some (n, p) =>
    let code := chanCode s p.chan
    if code ≠ 0 then ([], code, s)
    else
      match servingLine s (homeDie p.chan) g alloc with
      | some l => (bytes512 l.data, 0, if alloc then putLine s (homeDie p.chan) l else s)
      | none =>
        match missBytes s p.chan g p.key with
        | none => ([], 0x2061, reportUe (p.queue s cls 1) p.chan g tell)
        | some bs =>
          let s := p.queue s cls 1
          if alloc && decide (1 ≤ rgnCpol s n) then (bs, 0, putLine s (homeDie p.chan) ⟨g, of512 bs, false⟩)
          else (bs, 0, s)

/-- Puts the masked bytes of a partial write into the line that holds their granule. -/
def mergeLine (s : State) (d g mask : Nat) (bs : List Byte) (l : Line) (dirty : Bool) : State :=
  putLine s d ⟨g, of512 (mergeBytes mask 0 (bytes512 l.data) bs), dirty⟩

/-- Writes the masked bytes of granule `g` with a request of class `cls`: code and state. A whole granule goes to the
    cache or the device. A part of one merges into the channel's entry, unless it hits a line that CPOL lets a write
    allocate (R252). A line and an entry that stand side by side both take the bytes. (DEDUCED, log entry 108.) -/
def writeGran (s : State) (g mask : Nat) (bs : List Byte) (cls : Nat) : Nat × State :=
  match place s (g * 64) with
  | none => (0x2050, s)
  | some (n, p) =>
    let code := chanCode s p.chan
    let d := homeDie p.chan
    if code ≠ 0 then (code, s)
    else if mask = fullMask then
      let s := drainGran s p.chan g
      if (findLine s d g).isSome || rgnCpol s n = 2 then (0, putLine s d ⟨g, of512 bs, true⟩)
      else (0, devWrite (p.queue s cls 1) p.key bs)
    else
      match findLine s d g with
      | some l =>
        let own := rgnCpol s n = 2
        let s := mergeLine s d g mask bs l (l.dirty || own)
        (0, if own ∧ (findWc s p.chan g).isNone then s else combine s p.chan g mask bs)
      | none => (0, combine s p.chan g mask bs)

/-- Reads `n` granules from `g` on: all their bytes and the first code that is not 0. -/
def readGrans (s : State) (g : Nat) (alloc : Bool) (cls : Nat) (tell : Bool) : Nat → List Byte × Nat × State
  | 0 => ([], 0, s)
  | n + 1 =>
    let (b, c, s) := readGran s g alloc cls tell
    let (bs, c', s) := readGrans s (g + 1) alloc cls tell n
    (b ++ bs, if c ≠ 0 then c else c', s)

/-- Reads `len` bytes of HBM from `a` with a request of class `cls`. -/
def hbmRead (s : State) (a len : Nat) (alloc : Bool) (cls : Nat) (tell : Bool := true) : List Byte × Nat × State :=
  if len = 0 then ([], 0, s)
  else
    let (bs, c, s) := readGrans s (a / 64) alloc cls tell (granCount a len)
    if c ≠ 0 then ([], c, s) else ((bs.drop (a % 64)).take len, 0, s)

/-- The mask of bytes [lo, lo + n) of a granule. -/
def spanMask (lo n : Nat) : Nat := (2 ^ n - 1) * 2 ^ lo

/-- Writes bytes of HBM from `a` on, one granule at a time: the first code that is not 0, and the state. `fuel`
    bounds the granules. -/
def hbmWriteFrom (cls : Nat) : Nat → State → Nat → List Byte → Nat × State
  | 0, s, _, _ => (0, s)
  | fuel + 1, s, a, bs =>
    if bs.isEmpty then (0, s)
    else
      let lo := a % 64
      let k := 64 - lo
      let part := bs.take k
      let (c, s) := writeGran s (a / 64) (spanMask lo part.length)
        (List.replicate lo 0 ++ part ++ List.replicate (64 - lo - part.length) 0) cls
      let (c', s) := hbmWriteFrom cls fuel s (a + part.length) (bs.drop k)
      (if c ≠ 0 then c else c', s)

def hbmWrite (s : State) (a : Nat) (bs : List Byte) (cls : Nat) : Nat × State :=
  hbmWriteFrom cls (bs.length / 64 + 2) s a bs

/-- The first address of [a, a + len) in a granule whose access fails with `code`; `a` where none does. -/
def failAddr (s : State) (a len code : Nat) : Nat :=
  let fails (i : Nat) : Bool :=
    match place s ((a / 64 + i) * 64) with
    | none => code = 0x2050
    | some (_, p) => code = chanCode s p.chan
  match (List.range (granCount a len)).find? fails with
  | some 0 => a
  | some i => (a / 64 + i) * 64
  | none => a

/-! ### Atomics (R255 to R259) -/

/-- Bytes of a TYPE of Table 9.2; 0 for a reserved one. -/
def atomSize : Nat → Nat
  | 0 => 4 | 1 => 8 | 2 => 4 | 3 => 8 | 4 => 4 | 5 => 16 | _ => 0

/-- The code of a record that performs nothing (R256), 0 for one that is performed. -/
def recordCode (w0 w3 : Word) : Nat :=
  let op := fld w0 63 60
  let ty := fld w0 59 56
  let target := fld w0 47 0
  if op = 0 ∨ 3 < op ∨ 5 < ty ∨ fld w0 55 48 ≠ 0 ∨ w3 ≠ 0 ∨ (ty = 5 ∧ op ≠ 1) then 0x2052
  else if hbmBytes ≤ target ∨ target % atomSize ty ≠ 0 then 0x2053
  else 0

/-- The result of a record on the old value, and its flags (Table 9.3): NAN and INF where an add produced them, OVF where
    it saturated or overflowed (Tables 9.16, 9.18). -/
def atomValue (op ty old arg : Nat) : Nat × Flg :=
  match ty with
  | 4 =>
    let x := f32 old
    let y := f32 arg
    if op = 1 then
      let r := add32 x y
      (encodeFloat fp32 r, { nan := isNan r, inf := isInf r, ovf := isInf r && isFinite x && isFinite y })
    else (encodeFloat fp32 (if op = 2 then fmin x y else fmax x y), {})
  | 5 =>
    let (r, f) := vladd (BitVec.ofNat 128 old) (BitVec.ofNat 128 arg)
    (r.toNat, f)
  | _ =>
    let w := atomSize ty * 8
    let signedTy := ty = 0 ∨ ty = 1
    let x : Int := if signedTy then sext w old else (old : Int)
    let y : Int := if signedTy then sext w arg else (arg : Int)
    let r := if op = 1 then x + y else if op = 2 then min x y else max x y
    (low w r, {})

/-- Performs a record at its site (R257): code and state. MEM drains the entry, writes back and drops the line, and
    works on the device; CACHE allocates the line and works on it. At a CACHE site too the granule's entry drains first, and
    the fill of the line queues no request: the spec says neither (DESIGN CHOICE, log entry 145). -/
def performRecord (s : State) (w0 w1 w2 w3 : Word) (tell : Bool := true) : Nat × State :=
  let bad := recordCode w0 w3
  if bad ≠ 0 then (bad, s)
  else
    let a := fld w0 47 0
    let ty := fld w0 59 56
    let n := atomSize ty
    let arg := if ty = 5 then w1.toNat + 2 ^ 64 * w2.toNat else w1.toNat % 2 ^ (8 * n)
    let g := a / 64
    match place s a with
    | none => (0x2050, s)
    | some (rg, p) =>
      let code := chanCode s p.chan
      let d := homeDie p.chan
      if code ≠ 0 then (code, s)
      else
        let s := drainGran s p.chan g
        let key := p.key - a % 64
        let cached := rgnCacheSite s rg
        let s := if cached then s else p.queue s 2 2
        let s :=
          if cached then s
          else match findLine s d g with
            | some l => dropLine (if l.dirty then writeBack s l else s) d g
            | none => s
        let old :=
          match findLine s d g with
          | some l => some (bytes512 l.data)
          | none => missBytes s p.chan g key
        match old with
        | none => (0x2061, reportUe s p.chan g tell)
        | some bs =>
          let v := leNat ((bs.drop (a % 64)).take n)
          let (r, f) := atomValue (fld w0 63 60) ty v arg
          let new := mergeBytes (spanMask (a % 64) n) 0 bs
            (List.replicate (a % 64) 0 ++ natLE n r ++ List.replicate (64 - a % 64 - n) 0)
          let bits := (if f.ovf then 4 else 0) + (if f.nan then 2 else 0) + (if f.inf then 1 else 0)
          if cached then
            let s := putLine s d ⟨g, of512 new, true⟩
            (0, rorb s (aHbmScStatus d) (BitVec.ofNat 64 (bits * 2 ^ 32)))
          else
            let s := devWrite s key new
            (0, rorb s (aHbmChAtom p.chan) (BitVec.ofNat 64 bits))

end Sys2Proof.Machine
end

