-- ==== Sys2Proof/Machine/Memory.lean ====
section
/-! DEFINITION. Local physical memory (R3, R4): HBM, tile stores, instruction memories, the atomic window, and what an
access meets at a tile (R87, R95, R96, R133). -/

namespace Sys2Proof.Machine

def ctlBase   : Nat := 0x030000000000
def ctlEnd    : Nat := 0x030020000000
def windowBase : Nat := 0x03000E100000
def windowEnd  : Nat := 0x03000E200000

/-- The ranges of Table 0.5. -/
inductive Area where
  | hbm | store | imem | ctl
  deriving DecidableEq, Repr

/-- The range that holds all of [a, a + len); an empty access is placed by its address. -/
def areaOf (a len : Nat) : Option Area :=
  let e := a + (if len = 0 then 1 else len)
  if e ≤ hbmBytes then some .hbm
  else if storeBase ≤ a ∧ e ≤ storeEnd then some .store
  else if imemBase ≤ a ∧ e ≤ imemEnd then some .imem
  else if ctlBase ≤ a ∧ e ≤ ctlEnd then some .ctl
  else none

/-- The die a requester sits on (Table 17.12). -/
def reqDie : Req → Nat
  | .engine e => dieOf e.tile.toNat
  | .remote _ p => portDie p.toNat
  | .reed n => n.toNat / 64
  | .chanter l => 8 + l.toNat
  | _ => 8

def isRemote : Req → Bool
  | .remote _ _ => true
  | _ => false

/-- Tiles from `t` on that [a, a + len) touches, in units of `size` from `base`. -/
def tilesIn (base size a len : Nat) : List Nat :=
  (List.range ((a + len - 1) / size - a / size + 1)).map (fun i => (a - base) / size + i)

/-- Why an access to a tile's memory fails (Table 10.8, R96, R487); 0 where it does not. -/
def tileCode (s : State) (t : Nat) : Nat :=
  if tileIsolated s t then 0x3010
  else if !tilePowered s t || (getTile s t).chatter then 0x1042
  else 0

def tilesCode (s : State) : List Nat → Nat
  | [] => 0
  | t :: ts => if tileCode s t ≠ 0 then tileCode s t else tilesCode s ts

/-- The first address of [a, …) in a tile whose access fails; the tiles of `ts` hold `size` bytes each from `base` on. -/
def tileFailAddr (s : State) (base size a : Nat) (ts : List Nat) : Nat :=
  match ts.find? (fun t => tileCode s t ≠ 0) with
  | some t => max a (base + t * size)
  | none => a

def wakeTiles (s : State) : List Nat → State
  | [] => s
  | t :: ts => wakeTiles (wakeTile s t) ts

/-- The die that holds an address, for reports. -/
def addrDie (s : State) (a : Nat) : Nat :=
  match areaOf a 1 with
  | some .hbm =>
    match place s a with
    | some (_, p) => homeDie p.chan
    | none => 0
  | some .store => dieOf ((a - storeBase) / 0x40000)
  | some .imem => dieOf ((a - imemBase) / 0x8000)
  | _ => 8

/-- Fault 0x3_010 of a request to isolated die `d`; a remote request raises no event at the target (R305). -/
def reportLost (s : State) (req : Req) (d : Nat) : State :=
  if isRemote req then s else reportCut s (reqDie req) d

/-- Reports a failed access for its requester; a remote access raises no event at the target (R305). -/
def reportAccess (s : State) (req : Req) (code a : Nat) : State :=
  if isRemote req then s
  else
    match code with
    | 0x2001 => report s unitFirmware code
    | 0x20F0 => report s unitFirmware code
    | 0x2050 => report s (unitOfPower (reqDie req)) code { a1 := BitVec.ofNat 64 (a / 64 * 64) }
    | 0x3010 => reportLost s req (addrDie s a)
    | 0x1042 =>
      let t := match areaOf a 1 with
        | some .imem => (a - imemBase) / 0x8000
        | _ => (a - storeBase) / 0x40000
      report s (unitOfTile t) code { a0 := tileArg t, a1 := BitVec.ofNat 64 a }
    | 0x2064 =>
      match place s a with
      | some (_, p) => report s (unitOfChan p.chan) code { a0 := BitVec.ofNat 64 p.chan, a1 := BitVec.ofNat 64 (a / 64 * 64) }
      | none => s
    | _ => s

/-- An access that completes with error and raises its fault; one from another module raises none here (R305). -/
def failed (s : State) (req : Req) (code a : Nat) : Nat × State := (code, reportAccess s req code a)

/-- Classes of Table 9.4 for a requester's reads: 0 LC, 1 REED, 3 BULK. -/
def readClass : Req → Nat
  | .chanter _ => 0
  | .reed _ => 1
  | _ => 3

/-- Reads `len` bytes at a local physical address with an HBM request of class `cls`; control space takes no such access
    (R9). (DESIGN CHOICE, log entry 14.) -/
def memReadAs (cls : Nat) (s : State) (req : Req) (a len : Nat) : List Byte × Nat × State :=
  match areaOf a len with
  | some .hbm =>
    let (bs, c, s) := hbmRead s a len true cls (!isRemote req)
    if c ≠ 0 then ([], c, reportAccess s req c (failAddr s a len c)) else (bs, 0, s)
  | some .store =>
    let ts := tilesIn storeBase 0x40000 a len
    let c := tilesCode s ts
    if c ≠ 0 then ([], c, reportAccess s req c (tileFailAddr s storeBase 0x40000 a ts)) else (rdBytes s.mem a len, 0, wakeTiles s ts)
  | some .imem =>
    let ts := tilesIn imemBase 0x8000 a len
    let c := tilesCode s ts
    if c ≠ 0 then ([], c, reportAccess s req c (tileFailAddr s imemBase 0x8000 a ts)) else (rdBytes s.mem a len, 0, wakeTiles s ts)
  | some .ctl => ([], 0x20F0, reportAccess s req 0x20F0 a)
  | none => ([], 0x2001, reportAccess s req 0x2001 a)

/-- Reads memory in the class of the requester's reads. -/
def memRead (s : State) (req : Req) (a len : Nat) : List Byte × Nat × State := memReadAs (readClass req) s req a len

/-- The first byte of a tile's active bank, as a local physical address. -/
def activeBank (s : State) (t : Nat) : Nat := imemBase + t * 0x8000 + (if (getTile s t).bank then 0x4000 else 0)

/-- Writes bytes of one instruction memory: those that fall in an active bank are dropped with 0x1_0A0, once per
    write and tile (R133), and with no event where the write comes from another module (`tell`, R305). `said` names the tile
    already reported. -/
def imemWrite (tell : Bool) : State → Nat → List Byte → Option Nat → Nat × State
  | s, _, [], said => (if said.isSome then 0x10A0 else 0, s)
  | s, a, b :: bs, said =>
    let t := (a - imemBase) / 0x8000
    let act := activeBank s t
    if act ≤ a ∧ a < act + 0x4000 then
      if said = some t then imemWrite tell s (a + 1) bs said
      else
        let s := rsetb s (aTileIbank t) 8 true
        let s := if tell then report s (unitOfTile t) 0x10A0 { a0 := tileArg t, a1 := BitVec.ofNat 64 a } else s
        imemWrite tell s (a + 1) bs (some t)
    else imemWrite tell { s with mem := tset 0 s.mem a b } (a + 1) bs said

/-- Writes bytes at a local physical address: code and state. Control space takes no such access (R9). -/
def memWrite (s : State) (req : Req) (a : Nat) (bs : List Byte) : Nat × State :=
  match areaOf a bs.length with
  | some .hbm =>
    let (c, s) := hbmWrite s a bs 3
    if c ≠ 0 then (c, reportAccess s req c (failAddr s a bs.length c)) else (0, s)
  | some .store =>
    let ts := tilesIn storeBase 0x40000 a bs.length
    let c := tilesCode s ts
    if c ≠ 0 then (c, reportAccess s req c (tileFailAddr s storeBase 0x40000 a ts))
    else
      let s := wakeTiles s ts
      (0, { s with mem := wrBytes s.mem a bs })
  | some .imem =>
    let ts := tilesIn imemBase 0x8000 a bs.length
    let c := tilesCode s ts
    if c ≠ 0 then (c, reportAccess s req c (tileFailAddr s imemBase 0x8000 a ts)) else imemWrite (!isRemote req) (wakeTiles s ts) a bs none
  | some .ctl => (0x20F0, reportAccess s req 0x20F0 a)
  | none => (0x2001, reportAccess s req 0x2001 a)

/-- The source unit of 0x2_052 and 0x2_053: the die that received the window access (Table 17.12). -/
def windowUnit (req : Req) : Nat := unitOfPower (reqDie req)

/-- Reports a failed window access. (DEDUCED, log entry 84.) -/
def reportWindow (s : State) (req : Req) (code a : Nat) : State :=
  if isRemote req then s
  else if code = 0x2052 ∨ code = 0x2053 then
    let c := match place s a with
      | some (_, p) => p.chan
      | none => 0
    report s (windowUnit req) code { a0 := BitVec.ofNat 64 c, a1 := BitVec.ofNat 64 (a / 64 * 64) }
  else reportAccess s req code a

/-- Performs one record for its requester; a failing one raises its own fault, which names its TARGET (R256). -/
def ownRecord (s : State) (req : Req) (w0 w1 w2 w3 : Word) : Nat × State :=
  let (c, s) := performRecord s w0 w1 w2 w3 (!isRemote req)
  (c, if c ≠ 0 then reportWindow s req c (fld w0 47 0) else s)

/-- Performs the records of a write to the atomic window, in order: the first code that is not 0, and the state. -/
def performRecords (req : Req) : Nat → State → List Byte → Nat × State
  | 0, s, _ => (0, s)
  | fuel + 1, s, bs =>
    if bs.isEmpty then (0, s)
    else
      let (c, s) := ownRecord s req (wordAt bs 0) (wordAt bs 8) (wordAt bs 16) (wordAt bs 24)
      let (c', s) := performRecords req fuel s (bs.drop 32)
      (if c ≠ 0 then c else c', s)

/-- A write to the atomic window by a requester that R255 names: its records, in order. A start or length that is not
    a multiple of 32 performs none and fails with 0x2_052. -/
def windowWrite (s : State) (req : Req) (a : Nat) (bs : List Byte) : Nat × State :=
  if a % 32 ≠ 0 ∨ bs.length % 32 ≠ 0 then (0x2052, reportWindow s req 0x2052 a)
  else performRecords req (bs.length / 32 + 1) s bs

/-- The access lies in the atomic window. -/
def inWindow (a len : Nat) : Bool := windowBase ≤ a && a + len ≤ windowEnd

/-- The ranges of HBM that the records of a window write change. -/
def recordSpans (bs : List Byte) : List (Nat × Nat) :=
  (List.range (bs.length / 32)).flatMap (fun i =>
    let w0 := wordAt bs (32 * i)
    if recordCode w0 (wordAt bs (32 * i + 24)) = 0 then memSpan (fld w0 47 0) (atomSize (fld w0 59 56)) else [])

/-- The ranges of HBM that a write of bytes at `a` changes. -/
def writeSpans (a : Nat) (bs : List Byte) : List (Nat × Nat) :=
  if inWindow a bs.length then recordSpans bs else memSpan a bs.length

/-- Writes bytes where a transfer or a put may write: memory, or the records of the atomic window (R255, R305). A
    write to any other address of control space is not performed: `ctlRefuse` is its code. -/
def dataWrite (s : State) (req : Req) (a : Nat) (bs : List Byte) (ctlRefuse : Nat) : Nat × State :=
  if inWindow a bs.length then windowWrite s req a bs
  else if areaOf a bs.length = some .ctl then
    (ctlRefuse, if isRemote req then s else report s unitFirmware ctlRefuse)
  else memWrite s req a bs

end Sys2Proof.Machine
end

