-- ==== Sys2Proof/Machine/Operands.lean ====
section
/-! DEFINITION. Address generators (R125), address operands (R124) and the tile-local address space (R122, R123). -/

namespace Sys2Proof.Machine

/-! ### Generators -/

def GenDim.part (d : GenDim) : Int := (d.idx.toNat : Int) * d.str.toInt

/-- The current address, exact (R125). -/
def Gen.addr (g : Gen) : Int := (g.base.toNat : Int) + g.d0.part + g.d1.part + g.d2.part + g.d3.part

/-- An index is at the last position of its dimension. -/
def GenDim.last (d : GenDim) : Bool := d.cntm1.toNat ≤ d.idx.toNat

def GenDim.next (d : GenDim) : GenDim := { d with idx := d.idx + 1 }
def GenDim.zero (d : GenDim) : GenDim := { d with idx := 0 }

/-- One step: the lowest index rises; one that reaches its count returns to 0 and raises the next (R125). -/
def Gen.step (g : Gen) : Gen :=
  if !g.d0.last then { g with d0 := g.d0.next }
  else if !g.d1.last then { g with d0 := g.d0.zero, d1 := g.d1.next }
  else if !g.d2.last then { g with d0 := g.d0.zero, d1 := g.d1.zero, d2 := g.d2.next }
  else if !g.d3.last then { g with d0 := g.d0.zero, d1 := g.d1.zero, d2 := g.d2.zero, d3 := g.d3.next }
  else { g with d0 := g.d0.zero, d1 := g.d1.zero, d2 := g.d2.zero, d3 := g.d3.zero }

def Gen.steps : Nat → Gen → Gen
  | 0, g => g
  | n + 1, g => Gen.steps n g.step

/-- Every index returns to 0. -/
def Gen.reset (g : Gen) : Gen := { g with d0 := g.d0.zero, d1 := g.d1.zero, d2 := g.d2.zero, d3 := g.d3.zero }

def Engine.gen (g : Engine) (n : Nat) : Gen := tget {} g.ag n
def Engine.setGen (g : Engine) (n : Nat) (x : Gen) : Engine := { g with ag := tset {} g.ag n x }
def Engine.stepGen (g : Engine) (n : Nat) : Engine := g.setGen n (g.gen n).step
def Engine.lcv (g : Engine) (n : BitVec 2) : BitVec 32 := tget 0 g.lc n.toNat
def Engine.setLc (g : Engine) (n : BitVec 2) (v : BitVec 32) : Engine := { g with lc := tset 0 g.lc n.toNat v }

/-! ### Address operands (Table 4.5) -/

def opMode (o : BitVec 8) : Nat := o.toNat / 64
def opReg (o : BitVec 8) : Nat := o.toNat % 32

/-- A reserved MODE, a reserved bit, or a generator number above 7 (0x1_007). -/
def operandBad (o : BitVec 8) : Bool :=
  opMode o = 3 || o.toNat / 32 % 2 = 1 || (opMode o ≤ 1 && 8 ≤ opReg o)

/-- The address an operand names. -/
def operandAddr (g : Engine) (o : BitVec 8) : Int :=
  if opMode o = 2 then ((g.xr (BitVec.ofNat 5 (opReg o))).toNat : Int) else (g.gen (opReg o)).addr

/-- Generators an operand steps (MODE 1). -/
def operandSteps (o : BitVec 8) : List Nat := if opMode o = 1 then [opReg o] else []

/-- Generators an operand reads. -/
def operandGens (o : BitVec 8) : List Nat := if opMode o ≤ 1 then [opReg o] else []

/-- Scalar registers an operand reads. -/
def operandRegs (o : BitVec 8) : List (BitVec 5) := if opMode o = 2 then [BitVec.ofNat 5 (opReg o)] else []

/-! ### The tile-local space (Table 4.4) -/

def holdBase : Nat := 0x40000
def bankBase : Nat := 0x80000

/-- The region of a tile-local address: its first and last address + 1. -/
def localRegion (a : Int) : Option (Nat × Nat) :=
  if 0 ≤ a ∧ a < 0x40000 then some (0, 0x40000)
  else if 0x40000 ≤ a ∧ a < 0x50000 then some (0x40000, 0x50000)
  else if 0x80000 ≤ a ∧ a < 0x88000 then some (0x80000, 0x88000)
  else none

/-- A region is open to an engine: the tile store to all, the hold buffer to C and V, the banks to L and S as a
    transfer end. -/
def regionOpen (eng : Nat) (xferEnd : Bool) (base : Nat) : Bool :=
  base = 0 || (base = holdBase && (eng = 1 || eng = 2)) || (base = bankBase && xferEnd && (eng = 0 || eng = 3))

/-- A fault condition that a bundle meets: its code and the address concerned (R140, Table 17.3). -/
structure Met where
  code : Nat
  addr : Int := 0
  deriving DecidableEq, Repr

def mets (cs : List Nat) : List Met := cs.map (fun c => ⟨c, 0⟩)

/-- The condition with the lowest code, the first of several (R140). -/
def lowestMet : List Met → Option Met
  | [] => none
  | m :: ms =>
    match lowestMet ms with
    | none => some m
    | some k => if k.code < m.code then some k else some m

/-- Codes of a range that an engine names: 0x2_020 outside its open regions (R122), 0x2_021 misaligned (R123). -/
def rangeCodes (eng : Nat) (xferEnd : Bool) (align : Nat) (a : Int) (len : Nat) : List Met :=
  (match localRegion a with
   | some (lo, hi) => if regionOpen eng xferEnd lo && decide (a + len ≤ hi) then [] else [⟨0x2020, a⟩]
   | none => [⟨0x2020, a⟩]) ++
  (if a % (align : Int) = 0 then [] else [⟨0x2021, a⟩])

/-- Reads tile-local bytes. -/
def localRead (s : State) (t a len : Nat) : List Byte :=
  if a < holdBase then rdBytes s.mem (storeBase + t * 0x40000 + a) len
  else if a < bankBase then rdBytes s.hold (t * 0x10000 + (a - holdBase)) len
  else rdBytes s.mem (imemBase + t * 0x8000 + (a - bankBase)) len

/-- Writes tile-local bytes: code and state (a bank write may be dropped, R133). -/
def localWrite (s : State) (t a : Nat) (bs : List Byte) : Nat × State :=
  if a < holdBase then (0, { s with mem := wrBytes s.mem (storeBase + t * 0x40000 + a) bs })
  else if a < bankBase then (0, { s with hold := wrBytes s.hold (t * 0x10000 + (a - holdBase)) bs })
  else imemWrite true s (imemBase + t * 0x8000 + (a - bankBase)) bs none

/-- The local physical address of a tile-local one. -/
def localPhys (t a : Nat) : Nat :=
  if a < holdBase then storeBase + t * 0x40000 + a
  else if a < bankBase then holdPhys + t * 0x10000 + (a - holdBase)
  else imemBase + t * 0x8000 + (a - bankBase)

/-! ### Bytes in an undefined state (R113, R219) -/

/-- An address lies in one of some ranges. -/
def inRanges (rs : List (Nat × Nat)) (a : Nat) : Bool := rs.any (fun d => decide (d.1 ≤ a) && decide (a < d.1 + d.2))

/-- Puts a free value in place of each byte that lies in one of the ranges. -/
def smearBytes (s : State) (rs : List (Nat × Nat)) : Nat → Nat → List Byte → List Byte
  | _, _, [] => []
  | a, k, b :: bs => (if inRanges rs a then Config.freeByte (s.free + k) else b) :: smearBytes s rs (a + 1) (k + 1) bs

/-- The bytes of a read at local physical address `a`: free where `rs`, the ranges that are being written, hold them. -/
def smear (s : State) (rs : List (Nat × Nat)) (a : Nat) (bs : List Byte) : List Byte × State :=
  let rs := rs.filter (fun d => decide (d.1 < a + bs.length) && decide (a < d.1 + d.2))
  if rs.isEmpty then (bs, s) else (smearBytes s rs a 0 bs, drawn s bs.length)

/-- Destinations of an engine's own running transfers (R113). -/
def Engine.writing (g : Engine) : List (Nat × Nat) := g.xfers.flatMap (fun x => x.dst)

/-- Reads tile-local bytes for an engine. (DESIGN CHOICE, log entry 142.) -/
def engRead (s : State) (e : At) (a len : Nat) : List Byte × State :=
  smear s (getEng s e).writing (localPhys e.tile.toNat a) (localRead s e.tile.toNat a len)

/-- The memory that a DMA queue has still to write for its descriptor in progress: from the first byte that the host has not
    brought, to the descriptor's end (R219). -/
def DmaQ.writing (q : DmaQ) : List (Nat × Nat) :=
  match q.cur with
  | some d =>
    if fld (d.getD 0 0) 63 60 = 1 then
      let a := fld (d.getD 2 0) 47 0
      (a + q.pos, fld (d.getD 3 0) 63 32 - q.pos) :: q.hrds.map (fun h => (h.addr, h.len))
    else []
  | none => []

/-- What a VLD meets: the destinations of every transfer of the module, a host DMA among them, and the bytes that the tile's C
    engine has still to write (R219). -/
def vldConflicts (s : State) (t : Nat) : List (Nat × Nat) :=
  s.tile.flatMap (fun x => x.2.eng.flatMap (fun g => g.2.writing)) ++ s.hl.dq.flatMap (fun q => q.2.writing) ++
  ((getTile s t).engine 1).results.flatMap (fun p => p.mem.map (fun m => (localPhys t m.1, m.2.length)))

/-- Reads the 256 bytes of a VLD. -/
def vldRead (s : State) (e : At) (a : Nat) : List Byte × State :=
  smear s (vldConflicts s e.tile.toNat) (localPhys e.tile.toNat a) (localRead s e.tile.toNat a 256)

/-- Bytes that a transfer reads at a local physical address as it moves them. -/
def xferBytes (s : State) (x : Xfer) (a : Nat) (bs : List Byte) : List Byte × State := smear s x.dirty a bs

end Sys2Proof.Machine
end

