-- ==== Sys2Proof/Machine/Scalar.lean ====
section
/-! DEFINITION. Scalar arithmetic and comparisons (Tables 4.3 and 4.7, R126). -/

namespace Sys2Proof.Machine

/-- Register form: XA op XB; shifts use XB[5:0] (R126). -/
def aluR (f : AluR) (a b : Word) : Word :=
  match f with
  | .add => a + b
  | .sub => a - b
  | .and => a &&& b
  | .or => a ||| b
  | .xor => a ^^^ b
  | .shl => a <<< (b.toNat % 64)
  | .shr => a >>> (b.toNat % 64)
  | .sra => a.sshiftRight (b.toNat % 64)
  | .mul => a * b
  | .slt => if a.toInt < b.toInt then 1 else 0
  | .sltu => if a.toNat < b.toNat then 1 else 0
  | .min => if b.toInt < a.toInt then b else a
  | .max => if a.toInt < b.toInt then b else a

/-- Immediate form, IMM sign-extended. -/
def aluI (f : AluI) (a : Word) (imm : BitVec 14) : Word :=
  let b : Word := imm.signExtend 64
  match f with
  | .addi => a + b
  | .andi => a &&& b
  | .ori => a ||| b
  | .xori => a ^^^ b

/-- Immediate shifts. -/
def aluSh (f : ShI) (a : Word) (n : BitVec 6) : Word :=
  match f with
  | .shli => a <<< n.toNat
  | .shri => a >>> n.toNat
  | .srai => a.sshiftRight n.toNat

/-- XD[63:32] := IMM32; XD[31:0] unchanged. -/
def movhiVal (old : Word) (imm : BitVec 32) : Word := imm ++ old.setWidth 32

/-- BEQ to BGEU: signed for BLT and BGE, unsigned for BLTU and BGEU. -/
def cmpHolds (c : Cmp) (a b : Word) : Bool :=
  match c with
  | .eq => a = b
  | .ne => a ≠ b
  | .lt => decide (a.toInt < b.toInt)
  | .ge => decide (b.toInt ≤ a.toInt)
  | .ltu => decide (a.toNat < b.toNat)
  | .geu => decide (b.toNat ≤ a.toNat)

end Sys2Proof.Machine
end

