-- ==== Sys2Proof/Machine/Slots.lean ====
section
/-! DEFINITION. What the slots of a bundle are: widths and length (R104 to R107), reserved operand fields (R141), and
the registers, counters and generators that they read and write (R110, R111). -/

namespace Sys2Proof.Machine

/-! ### Widths in 32-bit words -/

def ctlWords : Ctl → Nat
  | .loopi _ _ _ => 2
  | .signalt _ _ _ => 2
  | _ => 1

def aguWords : Agu → Nat
  | .dim _ _ _ _ => 2
  | _ => 1

def sclWords : Scl → Nat
  | .movi _ _ => 2
  | .movhi _ _ => 2
  | _ => 1

def opWords : Op → Nat
  | .ldma .. | .ldma2 .. | .lgath .. | .sdma .. | .msg .. | .cmma .. | .ccvt .. | .cfin .. | .vfma .. | .vsel .. => 2
  | _ => 1

def optWords {α : Type} (f : α → Nat) : Option α → Nat
  | some x => f x
  | none => 0

/-- LEN: the header and the slots (R105). -/
def bundleLen (b : Bundle) : Nat :=
  1 + optWords ctlWords b.ctl + optWords aguWords b.agu + optWords opWords b.op + optWords sclWords b.scl

/-- The engine whose OP slot holds an operation. -/
def opEngine : Op → Nat
  | .ldma .. | .ldma2 .. | .lgath .. => 0
  | .cmma .. | .ccvt .. | .csta .. | .clda .. | .czero .. | .canch .. | .canchs .. | .cfin .. => 1
  | .sdma .. | .msg .. | .lpush .. => 3
  | _ => 2

/-! ### Reserved values that the operands themselves show -/

/-- A VALU FN valid for its TY (Table 7.2). -/
def valuOk (ty fn : Nat) : Bool :=
  match ty with
  | 0 | 1 | 2 => fn ≤ 6
  | 3 => fn ≤ 11
  | 4 => fn ≤ 13 && fn ≠ 9
  | _ => false

/-- A VCMP FN valid for its TY (Table 7.3). -/
def vcmpOk (ty fn : Nat) : Bool :=
  ty ≤ 4 && (fn ≤ 5 || ((fn = 6 || fn = 7) && 3 ≤ ty) || (fn = 8 && ty ≤ 2))

/-- Bytes of an element of a TY (Table 7.1). -/
def tySize : Nat → Nat
  | 0 => 4 | 1 => 2 | 2 => 2 | 3 => 4 | _ => 1

/-- VCVT: target TY, whether it rounds toward zero, PART (R208). -/
def cvtTarget (fn : Nat) : Nat := fn / 8
def cvtZero (fn : Nat) : Bool := fn / 4 % 2 = 1
def cvtPart (fn : Nat) : Nat := fn % 4

/-- A VCVT whose types and PART are valid (R208). -/
def vcvtOk (ty fn : Nat) : Bool :=
  let d := cvtTarget fn
  ty ≤ 4 && d ≤ 4 && decide (cvtPart fn < max (tySize ty) (tySize d) / min (tySize ty) (tySize d))

/-- Codes 0x1_005, 0x1_007 and 0x1_00A that an operation shows without reading any state. -/
def opStatic (eng : Nat) (o : Op) : List Nat :=
  let wrong := if opEngine o = eng then [] else [0x1005]
  let bad (x : BitVec 8) : List Nat := if operandBad x then [0x1007] else []
  let res (b : Bool) (code : Nat) : List Nat := if b then [code] else []
  wrong ++
  match o with
  | .ldma d .. => bad d
  | .ldma2 d .. => bad d
  | .lgath d _ _ _ _ i .. => bad d ++ bad i
  | .sdma x .. => bad x
  | .msg x .. => bad x
  | .lpush x .. => bad x
  | .cmma a b _ _ f _ _ _ => bad a ++ bad b ++ res (f = 15) 0x100A
  | .ccvt d _ f fd => bad d ++ res (fd = 0 && isMX f.toNat) 0x100A
  | .csta d _ => bad d
  | .clda x _ => bad x
  | .canchs x _ => bad x
  | .cfin d _ _ => bad d
  | .valu _ _ vb ty fn =>
    res (!valuOk ty.toNat fn.toNat) 0x100A ++ res ((fn = 5 || fn = 6) && vb ≠ 0) 0x1007
  | .vfma _ _ _ ty _ => res (4 ≤ ty.toNat) 0x100A
  | .vcmp _ _ _ ty fn => res (!vcmpOk ty.toNat fn.toNat) 0x100A
  | .vlogic _ _ vb fn => res (4 < fn.toNat) 0x100A ++ res (fn = 4 && vb ≠ 0) 0x1007
  | .vshift _ _ _ ty fn => res (!(ty = 3 || ty = 4) || 2 < fn.toNat) 0x100A
  | .vcvt _ _ ty fn => res (!vcvtOk ty.toNat fn.toNat) 0x100A
  | .vfn _ _ _ ty => res (2 < ty.toNat) 0x100A
  | .vred _ _ ty fn => res (4 < ty.toNat || 3 < fn.toNat) 0x100A
  | .vbcast _ _ ty => res (4 < ty.toNat) 0x100A
  | .vsel _ _ _ ty _ => res (4 < ty.toNat) 0x100A
  | .vld _ x => bad x
  | .vst _ x => bad x
  | _ => []

def sclStatic : Scl → List Nat
  | .ldx _ x => if operandBad x then [0x1007] else []
  | .stx _ x => if operandBad x then [0x1007] else []
  | _ => []

/-- The codes a bundle shows without reading any state. -/
def bundleStatic (eng : Nat) (b : Bundle) : List Nat :=
  (match b.op with
   | some o => opStatic eng o
   | none => []) ++
  (match b.scl with
   | some x => sclStatic x
   | none => [])

/-! ### What the slots read and write -/

/-- The registers, counters, generators, vector registers and accumulators a slot reads and writes, and whether it
    reads or writes tile memory. -/
structure Use where
  rx : List (BitVec 5) := []
  wx : List (BitVec 5) := []
  rlc : List (BitVec 2) := []
  wlc : List (BitVec 2) := []
  rag : List Nat := []
  wag : List Nat := []
  rv : List (BitVec 5) := []
  wv : List (BitVec 5) := []
  acc : List (BitVec 3) := []
  mem : Bool := false
  deriving DecidableEq, Repr

def Use.both (a b : Use) : Use :=
  ⟨a.rx ++ b.rx, a.wx ++ b.wx, a.rlc ++ b.rlc, a.wlc ++ b.wlc, a.rag ++ b.rag, a.wag ++ b.wag, a.rv ++ b.rv,
   a.wv ++ b.wv, a.acc ++ b.acc, a.mem || b.mem⟩

def ctlUse : Ctl → Use
  | .jal xd _ => { wx := [xd] }
  | .jr xa => { rx := [xa] }
  | .br _ xa xb _ => { rx := [xa, xb] }
  | .loop xa lc _ => { rx := [xa], wlc := [lc] }
  | .loopi lc _ _ => { wlc := [lc] }
  | .lcset xa lc => { rx := [xa], wlc := [lc] }
  | .signal _ _ => { mem := true }
  | .signalt _ _ _ => { mem := true }
  | .gbar => { mem := true }
  | .swapb _ => { mem := true }
  | _ => {}

def aguUse : Agu → Use
  | .base g _ => { wag := [g.toNat] }
  | .dim g _ _ _ => { wag := [g.toNat] }
  | .step g _ => { wag := [g.toNat] }
  | .rst g => { wag := [g.toNat] }
  | .basex g xa => { rx := [xa], wag := [g.toNat] }

def operandUse (o : BitVec 8) : Use :=
  { rx := operandRegs o, rag := operandGens o, wag := operandSteps o, mem := true }

def sclUse : Scl → Use
  | .r _ d a b => { rx := [a, b], wx := [d] }
  | .i _ d a _ => { rx := [a], wx := [d] }
  | .sh _ d a _ => { rx := [a], wx := [d] }
  | .movi d _ => { wx := [d] }
  | .movhi d _ => { rx := [d], wx := [d] }
  | .rdlc d lc => { rlc := [lc], wx := [d] }
  | .agrd d g => { rag := [g.toNat], wx := [d] }
  | .ldx d o => (operandUse o).both { wx := [d] }
  | .stx b o => (operandUse o).both { rx := [b] }
  | .ldg d a => { rx := [a], wx := [d], mem := true }
  | .stg a b => { rx := [a, b], mem := true }

/-- What the OP slot reads and writes; `streams` are the generators its descriptor's streams step (R176). -/
def opUse (streams : List Nat) : Op → Use
  | .ldma d a n _ _ _ => (operandUse d).both { rx := [a, n] }
  | .ldma2 d a n _ _ r x _ => (operandUse d).both { rx := [a, n, r, x] }
  | .lgath d a n _ _ i c _ => ((operandUse d).both (operandUse i)).both { rx := [a, n, c] }
  | .sdma d a n _ _ rc _ xt _ => (operandUse d).both { rx := [a, n] ++ (if rc = 0 then [] else [xt]) }
  | .msg d a n _ _ => (operandUse d).both { rx := [a, n] }
  | .lpush d a xd => (operandUse d).both { rx := [a], wx := [xd] }
  | .cmma a b acc _ _ _ _ _ => ((operandUse a).both (operandUse b)).both { acc := [acc], wag := streams }
  | .ccvt d acc _ fd =>
    (operandUse d).both { acc := if fd = 0 then [acc] else [0, 1, 2, 3, 4, 5, 6, 7], wag := streams }
  | .csta d acc => (operandUse d).both { acc := [acc] }
  | .clda d acc => (operandUse d).both { acc := [acc] }
  | .czero acc => { acc := [acc] }
  | .canch _ acc => { acc := [acc] }
  | .canchs o acc => (operandUse o).both { acc := [acc] }
  | .cfin d _ _ => (operandUse d).both { wag := streams }
  | .valu d a b _ fn => { rv := [a, b] ++ (if fn = 13 then [d] else []), wv := [d] }
  | .vfma d a b _ c => { rv := [a, b, c], wv := [d] }
  | .vcmp d a b _ _ => { rv := [a, b], wv := [d] }
  | .vlogic d a b _ => { rv := [a, b], wv := [d] }
  | .vshift d a b _ _ => { rv := [a, b], wv := [d] }
  | .vcvt d a _ _ => { rv := [a, d], wv := [d] }
  | .vfn _ d a _ => { rv := [a], wv := [d] }
  | .vred xd a _ _ => { rv := [a], wx := [xd] }
  | .vbcast d xa _ => { rx := [xa], wv := [d] }
  | .vsel d a b _ c => { rv := [a, b, c], wv := [d] }
  | .vld d o => (operandUse o).both { wv := [d] }
  | .vst d o => (operandUse o).both { rv := [d] }

def optUse {α : Type} (f : α → Use) : Option α → Use
  | some x => f x
  | none => {}

/-- Two lists share a member. -/
def meets {α : Type} [DecidableEq α] (a b : List α) : Bool := a.any (fun x => b.contains x)

/-- Two slots write the same register, counter or generator (R110). -/
def writesMeet (a b : Use) : Bool := meets a.wx b.wx || meets a.wlc b.wlc || meets a.wag b.wag

/-- A list has a member twice. -/
def repeats {α : Type} [DecidableEq α] : List α → Bool
  | [] => false
  | x :: xs => xs.contains x || repeats xs

/-- 0x1_008 (R110), and the stream rule of R176: a stream's generator stepped twice by the bundle.
    (DEDUCED, log entry 41.) -/
def conflictCodes (streams : List Nat) (b : Bundle) : List Nat :=
  let c := optUse ctlUse b.ctl
  let a := optUse aguUse b.agu
  let o := optUse (opUse streams) b.op
  let x := optUse sclUse b.scl
  if writesMeet c a || writesMeet c o || writesMeet c x || writesMeet a o || writesMeet a x || writesMeet o x ||
     (!streams.isEmpty && streams.any (fun g => 2 ≤ (o.wag.filter (fun y => y = g)).length))
  then [0x1008] else []

/-- Everything a bundle reads or writes. -/
def bundleUse (streams : List Nat) (b : Bundle) : Use :=
  ((optUse ctlUse b.ctl).both (optUse aguUse b.agu)).both
    ((optUse (opUse streams) b.op).both (optUse sclUse b.scl))

/-- A pending result that a bundle reads or writes (R111). -/
def pendMeets (p : Pend) (u : Use) : Bool :=
  meets (p.x.map Prod.fst) (u.rx ++ u.wx) || meets (p.v.map Prod.fst) (u.rv ++ u.wv) ||
  meets (p.acc.map Prod.fst) u.acc || meets (p.step.map BitVec.toNat) (u.rag ++ u.wag) ||
  (u.mem && !p.mem.isEmpty)

/-- How many of the oldest pending results must be written before a bundle issues. -/
def pendCount (u : Use) : List Pend → Nat
  | [] => 0
  | p :: ps => if pendCount u ps ≠ 0 then pendCount u ps + 1 else if pendMeets p u then 1 else 0

end Sys2Proof.Machine
end

