-- ==== Sys2Proof/Machine/Vector.lean ====
section
/-! DEFINITION. Vector arithmetic (chapter 07): elements, VALU, VFMA, masks, conversion, the functions of VFN with
their tables, and reductions. -/

namespace Sys2Proof.Machine

/-! ### Elements (R201) -/

/-- The float format of TY 0 to 2 (Table 7.1). -/
def tyFmt : Nat → Fmt
  | 0 => fp32
  | 1 => bf16
  | _ => fp16

/-- Bits of an element. -/
def tyBits (ty : Nat) : Nat := 8 * tySize ty

/-- Elements per register. -/
def tyCount (ty : Nat) : Nat := 256 / tySize ty

/-- `n` elements of `w` bits, the lowest first. -/
def unpackN (w : Nat) : Nat → Nat → List Nat
  | 0, _ => []
  | n + 1, v => v % 2 ^ w :: unpackN w n (v / 2 ^ w)

/-- The elements of a register under a type. -/
def velems (ty : Nat) (v : BitVec 2048) : List Nat := unpackN (tyBits ty) (tyCount ty) v.toNat

/-- The register that holds a list of elements. -/
def vpack (ty : Nat) (l : List Nat) : BitVec 2048 := BitVec.ofNat 2048 (packCodes (tyBits ty) l)

/-- Applies `f` to paired elements. -/
def zip2 {α : Type} (f : Nat → Nat → α) : List Nat → List Nat → List α
  | a :: as, b :: bs => f a b :: zip2 f as bs
  | _, _ => []

def zip3 {α : Type} (f : Nat → Nat → Nat → α) : List Nat → List Nat → List Nat → List α
  | a :: as, b :: bs, c :: cs => f a b c :: zip3 f as bs cs
  | _, _, _ => []

/-! ### VALU (R203 to R206) -/

/-- A float ABS or NEG: the sign bit of the code, a NaN as the canonical NaN with that sign bit (R206). -/
def fltSign (f : Fmt) (a : Nat) (flip : Bool) : Nat :=
  let sb := 2 ^ (f.ebits + f.mbits)
  let mag := if isNan (decodeFloat f a) then nanCode f else a % sb
  let neg := flip && !(a.testBit (f.ebits + f.mbits))
  mag + (if neg then sb else 0)

/-- One float element of VALU: code and flags. -/
def fltAlu (f : Fmt) (fn a b : Nat) : Nat × Flg :=
  let x := decodeFloat f a
  let y := decodeFloat f b
  let out (exact : FNum) : Nat × Flg :=
    let r := rnd f exact
    (encodeFloat f r, fltFlags [x, y] exact r)
  match fn with
  | 0 => out (fadd x y)
  | 1 => out (fadd x (fneg y))
  | 2 => out (fmul x y)
  | 3 => (encodeFloat f (fmin x y), {})
  | 4 => (encodeFloat f (fmax x y), {})
  | 5 => (fltSign f a false, {})
  | _ => (fltSign f a true, {})

/-- One integer element of VALU on `w` bits: code and flags (R204). -/
def intAlu (w fn a b : Nat) : Nat × Flg :=
  let x := sext w a
  let y := sext w b
  let lo : Int := -(2 ^ (w - 1) : Nat)
  let hi : Int := (2 ^ (w - 1) : Nat) - 1
  let clamp (r : Int) : Nat × Flg := (low w (iclamp lo hi r), { ovf := decide (r < lo ∨ hi < r) })
  match fn with
  | 0 => (low w (x + y), {})
  | 1 => (low w (x - y), {})
  | 2 => (low w (x * y), {})
  | 3 => (low w (min x y), {})
  | 4 => (low w (max x y), {})
  | 5 => (low w (x.natAbs : Int), {})
  | 6 => (low w (-x), {})
  | 7 => clamp (x + y)
  | 8 => clamp (x - y)
  | 9 => (low 32 (x * y / 2 ^ 32), {})
  | 10 => (min a b, {})
  | _ => (max a b, {})

/-- The sum of the products of four INT8 pairs, plus `acc`. -/
def dot4 : List Nat → List Nat → Int → Int
  | a :: as, b :: bs, acc => dot4 as bs (acc + sext 8 a * sext 8 b)
  | _, _, acc => acc

/-- DOT4 and DOT4A: an INT32 lane for each four pairs (Table 7.2). `old` is 0 for DOT4. -/
def dotLanes : List Nat → List Nat → List Nat → List Nat
  | [], _, _ => []
  | o :: os, as, bs => low 32 (dot4 (as.take 4) (bs.take 4) (sext 32 o)) :: dotLanes os (as.drop 4) (bs.drop 4)

/-- VALU on whole registers; `old` is VD before (DOT4A). -/
def valuVal (ty fn : Nat) (old a b : BitVec 2048) : BitVec 2048 × Flg :=
  if ty = 4 ∧ 12 ≤ fn then
    let acc := if fn = 13 then velems 3 old else List.replicate 64 0
    (vpack 3 (dotLanes acc (velems 4 a) (velems 4 b)), {})
  else
    let rs :=
      if ty ≤ 2 then zip2 (fltAlu (tyFmt ty) fn) (velems ty a) (velems ty b)
      else zip2 (intAlu (tyBits ty) fn) (velems ty a) (velems ty b)
    (vpack ty (rs.map Prod.fst), Flg.all (rs.map Prod.snd))

/-! ### VFMA (R206) -/

/-- VA × VB + VC with one rounding. An infinity times zero is NaN even when VC is NaN: the product decides first, and
    NaN comes out either way. -/
def fltFma (f : Fmt) (a b c : Nat) : Nat × Flg :=
  let x := decodeFloat f a
  let y := decodeFloat f b
  let z := decodeFloat f c
  let exact := fadd (fmul x y) z
  let r := rnd f exact
  (encodeFloat f r, fltFlags [x, y, z] exact r)

def vfmaVal (ty : Nat) (a b c : BitVec 2048) : BitVec 2048 × Flg :=
  if ty = 3 then
    (vpack 3 (zip3 (fun x y z => (x * y + z) % 2 ^ 32) (velems 3 a) (velems 3 b) (velems 3 c)), {})
  else
    let rs := zip3 (fltFma (tyFmt ty)) (velems ty a) (velems ty b) (velems ty c)
    (vpack ty (rs.map Prod.fst), Flg.all (rs.map Prod.snd))

/-! ### Masks, selection, logic, shifts (R207) -/

/-- A float comparison of Table 7.3. -/
def fltCmp (f : Fmt) (fn a b : Nat) : Bool :=
  let x := decodeFloat f a
  let y := decodeFloat f b
  let un := isNan x || isNan y
  match fn with
  | 0 => fltEq x y
  | 1 => un || !fltEq x y
  | 2 => fltLt x y
  | 3 => fltLt x y || fltEq x y
  | 4 => fltLt y x
  | 5 => fltLt y x || fltEq x y
  | _ => un

/-- An integer comparison of Table 7.3. -/
def intCmp (w fn a b : Nat) : Bool :=
  let x := sext w a
  let y := sext w b
  match fn with
  | 0 => a = b
  | 1 => a ≠ b
  | 2 => decide (x < y)
  | 3 => decide (x ≤ y)
  | 4 => decide (y < x)
  | 5 => decide (y ≤ x)
  | 6 => decide (a < b)
  | _ => decide (b ≤ a)

def vcmpVal (ty fn : Nat) (a b : BitVec 2048) : BitVec 2048 :=
  let w := tyBits ty
  let one (x y : Nat) : Nat :=
    if (if ty ≤ 2 then fltCmp (tyFmt ty) fn x y else intCmp w fn x y) then 2 ^ w - 1 else 0
  vpack ty (zip2 one (velems ty a) (velems ty b))

def vselVal (ty : Nat) (a b c : BitVec 2048) : BitVec 2048 :=
  vpack ty (zip3 (fun x y m => if m.testBit (tyBits ty - 1) then x else y) (velems ty a) (velems ty b) (velems ty c))

def vlogicVal (fn : Nat) (a b : BitVec 2048) : BitVec 2048 :=
  match fn with
  | 0 => a &&& b
  | 1 => a ||| b
  | 2 => a ^^^ b
  | 3 => a &&& ~~~b
  | _ => ~~~a

/-- One shifted element: bits [4:0] of VB for INT32, [2:0] for INT8. -/
def shiftOne (w fn a b : Nat) : Nat :=
  let k := b % w
  match fn with
  | 0 => a * 2 ^ k % 2 ^ w
  | 1 => a / 2 ^ k
  | _ => low w (sext w a / (2 ^ k : Nat))

def vshiftVal (ty fn : Nat) (a b : BitVec 2048) : BitVec 2048 :=
  vpack ty (zip2 (shiftOne (tyBits ty) fn) (velems ty a) (velems ty b))

/-! ### Conversion (R208, R209, Table 7.4) -/

/-- A value into a float type. A magnitude beyond range becomes an infinity to nearest even and the largest finite
    value toward zero, from an integer source too (R203; DEDUCED, log entry 22). -/
def cvtToFlt (f : Fmt) (rm : RMode) : FNum → Nat × Flg
  | .fin m e =>
    match roundFin f rm m e with
    | .small neg => (signBit f neg, {})
    | .fits q u => (encodeFloat f (.fin q u), {})
    | .past neg =>
      match rm with
      | .nearestEven => (encodeFloat f (.inf neg), { ovf := true, inf := true })
      | .towardZero => (encodeFloat f (maxFin f neg), {})
  | x => (encodeFloat f x, {})

/-- A value into an integer type of `w` bits. -/
def cvtToInt (w : Nat) (rm : RMode) (x : FNum) : Nat × Flg :=
  let lo : Int := -(2 ^ (w - 1) : Nat)
  let hi : Int := (2 ^ (w - 1) : Nat) - 1
  match x with
  | .nan => (0, { cvt := true })
  | .inf neg => (low w (if neg then lo else hi), { cvt := true })
  | y =>
    let r := roundInt rm y
    (low w (iclamp lo hi r), { cvt := decide (r < lo ∨ hi < r) })

/-- The exact value of an element of a type. -/
def tyValue (ty a : Nat) : FNum := if ty ≤ 2 then decodeFloat (tyFmt ty) a else ofInt (sext (tyBits ty) a) 0

/-- One element of VCVT. -/
def cvtOne (src dst : Nat) (rm : RMode) (a : Nat) : Nat × Flg :=
  if src = dst then (a, {})
  else if dst ≤ 2 then cvtToFlt (tyFmt dst) rm (tyValue src a)
  else cvtToInt (tyBits dst) rm (tyValue src a)

/-- VCVT on whole registers; `old` is VD before (R208). -/
def vcvtVal (ty fn : Nat) (old a : BitVec 2048) : BitVec 2048 × Flg :=
  let dst := cvtTarget fn
  let rm : RMode := if cvtZero fn then .towardZero else .nearestEven
  let part := cvtPart fn
  let src := velems ty a
  let src := if tySize ty < tySize dst then (src.drop (part * tyCount dst)).take (tyCount dst) else src
  let rs := src.map (cvtOne ty dst rm)
  let cs := rs.map Prod.fst
  let keep := velems dst old
  let out :=
    if tySize dst < tySize ty then
      keep.take (part * tyCount ty) ++ cs ++ keep.drop (part * tyCount ty + tyCount ty)
    else cs
  (vpack dst out, Flg.all (rs.map Prod.snd))

/-! ### The functions of VFN (R210 to R215) -/

/-- EXT (R211). -/
def tExt : List Nat :=
   [0x3F800000, 0x3F8164D2, 0x3F82CD87, 0x3F843A29, 0x3F85AAC3, 0x3F871F62, 0x3F88980F, 0x3F8A14D5, 0x3F8B95C2,
    0x3F8D1ADF, 0x3F8EA43A, 0x3F9031DC, 0x3F91C3D3, 0x3F935A2B, 0x3F94F4F0, 0x3F96942D, 0x3F9837F0, 0x3F99E046,
    0x3F9B8D3A, 0x3F9D3EDA, 0x3F9EF532, 0x3FA0B051, 0x3FA27043, 0x3FA43516, 0x3FA5FED7, 0x3FA7CD94, 0x3FA9A15B,
    0x3FAB7A3A, 0x3FAD583F, 0x3FAF3B79, 0x3FB123F6, 0x3FB311C4, 0x3FB504F3, 0x3FB6FD92, 0x3FB8FBAF, 0x3FBAFF5B,
    0x3FBD08A4, 0x3FBF179A, 0x3FC12C4D, 0x3FC346CD, 0x3FC5672A, 0x3FC78D75, 0x3FC9B9BE, 0x3FCBEC15, 0x3FCE248C,
    0x3FD06334, 0x3FD2A81E, 0x3FD4F35B, 0x3FD744FD, 0x3FD99D16, 0x3FDBFBB8, 0x3FDE60F5, 0x3FE0CCDF, 0x3FE33F89,
    0x3FE5B907, 0x3FE8396A, 0x3FEAC0C7, 0x3FED4F30, 0x3FEFE4BA, 0x3FF28177, 0x3FF5257D, 0x3FF7D0DF, 0x3FFA83B3,
    0x3FFD3E0C]

/-- LGT (R212). -/
def tLgt : List Nat :=
   [0x00000000, 0x3CB73CB4, 0x3D35D69C, 0x3D8759C5, 0x3DB31FB8, 0x3DDE4212, 0x3E0462C4, 0x3E19574F, 0x3E2E00D2,
    0x3E42615F, 0x3E567AF1, 0x3E6A4F72, 0x3E7DE0B6, 0x3E88983F, 0x3E92203D, 0x3E9B8926, 0x3EA4D3C2, 0x3EAE00D2,
    0x3EB7110E, 0x3EC0052B, 0x3EC8DDD4, 0x3ED19BB0, 0x3EDA3F60, 0x3EE2C97D, 0x3EEB3A9F, 0x3EF39355, 0x3EFBD42B,
    0x3F01FED4, 0x3F060828, 0x3F0A0650, 0x3F0DF989, 0x3F11E20F, 0x3F15C01A, 0x3F1993E3, 0x3F1D5DA0, 0x3F211D84,
    0x3F24D3C2, 0x3F28808C, 0x3F2C2411, 0x3F2FBE80, 0x3F335004, 0x3F36D8CB, 0x3F3A58FF, 0x3F3DD0C8, 0x3F41404F,
    0x3F44A7BA, 0x3F480731, 0x3F4B5ED7, 0x3F4EAED0, 0x3F51F740, 0x3F553848, 0x3F587209, 0x3F5BA4A4, 0x3F5ED039,
    0x3F61F4E5, 0x3F6512C7, 0x3F6829FB, 0x3F6B3A9F, 0x3F6E44CD, 0x3F7148A1, 0x3F744636, 0x3F773DA4, 0x3F7A2F04,
    0x3F7D1A71]

/-- GIV (R212). -/
def tGiv : List Nat :=
   [0x3F800000, 0x3F7C0FC1, 0x3F783E10, 0x3F74898D, 0x3F70F0F1, 0x3F6D7304, 0x3F6A0EA1, 0x3F66C2B4, 0x3F638E39,
    0x3F607038, 0x3F5D67C9, 0x3F5A740E, 0x3F579436, 0x3F54C77B, 0x3F520D21, 0x3F4F6475, 0x3F4CCCCD, 0x3F4A4588,
    0x3F47CE0C, 0x3F4565C8, 0x3F430C31, 0x3F40C0C1, 0x3F3E82FA, 0x3F3C5264, 0x3F3A2E8C, 0x3F381703, 0x3F360B61,
    0x3F340B41, 0x3F321643, 0x3F302C0B, 0x3F2E4C41, 0x3F2C7692, 0x3F2AAAAB, 0x3F28E83F, 0x3F272F05, 0x3F257EB5,
    0x3F23D70A, 0x3F2237C3, 0x3F20A0A1, 0x3F1F1166, 0x3F1D89D9, 0x3F1C09C1, 0x3F1A90E8, 0x3F191F1A, 0x3F17B426,
    0x3F164FDA, 0x3F14F209, 0x3F139A86, 0x3F124925, 0x3F10FDBC, 0x3F0FB824, 0x3F0E7835, 0x3F0D3DCB, 0x3F0C08C1,
    0x3F0AD8F3, 0x3F09AE41, 0x3F088889, 0x3F0767AB, 0x3F064B8A, 0x3F053408, 0x3F042108, 0x3F03126F, 0x3F020821,
    0x3F010204]

/-- INV (R213). -/
def tInv : List Nat :=
   [0x3F7F00FF, 0x3F7D08E5, 0x3F7B1885, 0x3F792FB2, 0x3F774E40, 0x3F757404, 0x3F73A0D5, 0x3F71D48C, 0x3F700F01,
    0x3F6E500F, 0x3F6C9791, 0x3F6AE564, 0x3F693965, 0x3F679373, 0x3F65F36D, 0x3F645933, 0x3F62C4A7, 0x3F6135AA,
    0x3F5FAC1F, 0x3F5E27EB, 0x3F5CA8F1, 0x3F5B2F17, 0x3F59BA42, 0x3F584A5A, 0x3F56DF44, 0x3F5578E9, 0x3F541733,
    0x3F52BA08, 0x3F516154, 0x3F500D01, 0x3F4EBCF9, 0x3F4D7127, 0x3F4C2978, 0x3F4AE5D8, 0x3F49A634, 0x3F486A79,
    0x3F473294, 0x3F45FE74, 0x3F44CE08, 0x3F43A13E, 0x3F427806, 0x3F415250, 0x3F40300C, 0x3F3F112B, 0x3F3DF59D,
    0x3F3CDD53, 0x3F3BC841, 0x3F3AB656, 0x3F39A786, 0x3F389BC3, 0x3F379301, 0x3F368D31, 0x3F358A48, 0x3F348A3A,
    0x3F338CFA, 0x3F32927C, 0x3F319AB6, 0x3F30A59B, 0x3F2FB322, 0x3F2EC33E, 0x3F2DD5E6, 0x3F2CEB10, 0x3F2C02B0,
    0x3F2B1CBE] ++
   [0x3F2A392F, 0x3F2957FB, 0x3F287917, 0x3F279C7B, 0x3F26C21E, 0x3F25E9F7, 0x3F2513FD, 0x3F244029, 0x3F236E72,
    0x3F229ECF, 0x3F21D13A, 0x3F2105A9, 0x3F203C17, 0x3F1F747A, 0x3F1EAECD, 0x3F1DEB07, 0x3F1D2922, 0x3F1C6917,
    0x3F1BAADF, 0x3F1AEE73, 0x3F1A33CD, 0x3F197AE7, 0x3F18C3BB, 0x3F180E41, 0x3F175A75, 0x3F16A850, 0x3F15F7CC,
    0x3F1548E5, 0x3F149B93, 0x3F13EFD2, 0x3F13459C, 0x3F129CEC, 0x3F11F5BD, 0x3F115009, 0x3F10ABCC, 0x3F100901,
    0x3F0F67A2, 0x3F0EC7AB, 0x3F0E2918, 0x3F0D8BE3, 0x3F0CF009, 0x3F0C5584, 0x3F0BBC51, 0x3F0B246B, 0x3F0A8DCD,
    0x3F09F874, 0x3F09645C, 0x3F08D181, 0x3F083FDE, 0x3F07AF70, 0x3F072033, 0x3F069223, 0x3F06053C, 0x3F05797C,
    0x3F04EEDD, 0x3F04655E, 0x3F03DCF9, 0x3F0355AD, 0x3F02CF75, 0x3F024A4E, 0x3F01C636, 0x3F014328, 0x3F00C122,
    0x3F004020]

/-- RSQ (R214). -/
def tRsq : List Nat :=
   [0x3F7F017E, 0x3F7D0D3E, 0x3F7B2452, 0x3F79464E, 0x3F7772CB, 0x3F75A969, 0x3F73E9CB, 0x3F723399, 0x3F708681,
    0x3F6EE232, 0x3F6D4660, 0x3F6BB2C5, 0x3F6A271A, 0x3F68A31D, 0x3F672691, 0x3F65B139, 0x3F6442DB, 0x3F62DB41,
    0x3F617A36, 0x3F601F87, 0x3F5ECB04, 0x3F5D7C7F, 0x3F5C33CC, 0x3F5AF0BF, 0x3F59B330, 0x3F587AF7, 0x3F5747EE,
    0x3F5619F2, 0x3F54F0DF, 0x3F53CC93, 0x3F52ACEE, 0x3F5191D1, 0x3F507B1D, 0x3F4F68B6, 0x3F4E5A7F, 0x3F4D505E,
    0x3F4C4A38, 0x3F4B47F4, 0x3F4A497A, 0x3F494EB3, 0x3F485787, 0x3F4763E2, 0x3F4673AC, 0x3F4586D3, 0x3F449D42,
    0x3F43B6E6, 0x3F42D3AD, 0x3F41F383, 0x3F411659, 0x3F403C1C, 0x3F3F64BD, 0x3F3E902C, 0x3F3DBE58, 0x3F3CEF34,
    0x3F3C22B1, 0x3F3B58C0, 0x3F3A9154, 0x3F39CC60, 0x3F3909D6, 0x3F3849AA, 0x3F378BD0, 0x3F36D03D, 0x3F3616E4,
    0x3F355FBA] ++
   [0x3F3450FC, 0x3F32EF41, 0x3F319589, 0x3F304387, 0x3F2EF8F2, 0x3F2DB587, 0x3F2C7904, 0x3F2B432A, 0x3F2A13C0,
    0x3F28EA8C, 0x3F27C759, 0x3F26A9F4, 0x3F25922C, 0x3F247FD3, 0x3F2372BD, 0x3F226ABE, 0x3F2167AF, 0x3F206968,
    0x3F1F6FC4, 0x3F1E7AA0, 0x3F1D89D9, 0x3F1C9D4E, 0x3F1BB4E1, 0x3F1AD073, 0x3F19EFE6, 0x3F191320, 0x3F183A05,
    0x3F17647C, 0x3F16926C, 0x3F15C3BC, 0x3F14F857, 0x3F143026, 0x3F136B13, 0x3F12A90B, 0x3F11E9F9, 0x3F112DCA,
    0x3F10746D, 0x3F0FBDCE, 0x3F0F09DD, 0x3F0E5889, 0x3F0DA9C2, 0x3F0CFD79, 0x3F0C539F, 0x3F0BAC25, 0x3F0B06FD,
    0x3F0A641A, 0x3F09C36D, 0x3F0924EC, 0x3F088889, 0x3F07EE37, 0x3F0755ED, 0x3F06BF9E, 0x3F062B40, 0x3F0598C7,
    0x3F05082A, 0x3F04795F, 0x3F03EC5C, 0x3F036117, 0x3F02D788, 0x3F024FA6, 0x3F01C967, 0x3F0144C4, 0x3F00C1B4,
    0x3F004030]

/-- c1, c2, c3 of R211. -/
def exC1 : FNum := f32 0x3F317218
def exC2 : FNum := f32 0x3E75FDF0
def exC3 : FNum := f32 0x3D635847

/-- d1 to d4 of R212. -/
def lgD1 : FNum := f32 0x3FB8AA3B
def lgD2 : FNum := f32 0xBF38AA3B
def lgD3 : FNum := f32 0x3EF6384F
def lgD4 : FNum := f32 0xBEB8AA3B

/-- cl of R215, 1.0, -1.0 and 0.5. -/
def sgCl : FNum := f32 0x3FB8AA3B
def one32 : FNum := .fin 1 0
def mone32 : FNum := .fin (-1) 0
def half32 : FNum := .fin 1 (-1)

def tabAt (t : List Nat) (i : Nat) : FNum := f32 (t.getD i 0)

/-- floor of a value times 2^k. -/
def floorScaled (x : FNum) (k : Int) : Int := ffloor (fscale x k)

/-- R211, with the special inputs and limits of Table 7.5. f and r are kept exact, as R211's comments say, also where x - n does not
    fit FP32 (a small negative x; DEDUCED, log entry 158). -/
def fnExp2 (x : FNum) : FNum :=
  match x with
  | .nan => .nan
  | .inf false => .inf false
  | .inf true => .zero false
  | .zero _ => one32
  | .fin m e =>
    if !fltLt (.fin m e) (.fin 1 7) then .inf false
    else if fltLt (.fin m e) (.fin (-150) 0) then .zero false
    else
      let n := ffloor (.fin m e)
      let f := fadd (.fin m e) (ofInt (-n) 0)
      let i := (floorScaled f 6).toNat
      let r := fadd f (ofInt (-(i : Int)) (-6))
      let p := mul32 (fma32 (fma32 exC3 r exC2) r exC1) r
      let y := fma32 (tabAt tExt i) p (tabAt tExt i)
      scale32 y n

/-- `x = m * 2^e` with 1 ≤ m < 2: the significand of a positive value, and its exponent. -/
def splitPos (m e : Int) : FNum × Int :=
  let k := leadExp m.natAbs e
  (.fin (m.natAbs : Int) (e - k), k)

/-- The top `k` fraction bits of a significand in [1, 2). -/
def topFrac (x : FNum) (k : Nat) : Nat := (floorScaled x k).toNat - 2 ^ k

/-- R212. -/
def fnLog2 (x : FNum) : FNum :=
  match x with
  | .nan => .nan
  | .inf false => .inf false
  | .inf true => .nan
  | .zero _ => .inf true
  | .fin m e =>
    if m < 0 then .nan
    else
      let (s, k) := splitPos m e
      let i := topFrac s 6
      let r := fma32 s (tabAt tGiv i) mone32
      let q := mul32 (fma32 (fma32 (fma32 lgD4 r lgD3) r lgD2) r lgD1) r
      add32 (add32 (ofInt k 0) (tabAt tLgt i)) q

/-- R213. -/
def fnRecip (x : FNum) : FNum :=
  match x with
  | .nan => .nan
  | .inf neg => .zero neg
  | .zero neg => .inf neg
  | .fin m e =>
    let (s, k) := splitPos m e
    let y0 := tabAt tInv (topFrac s 7)
    let y1 := fma32 y0 (fma32 (fneg s) y0 one32) y0
    let y2 := fma32 y1 (fma32 (fneg s) y1 one32) y1
    let r := scale32 y2 (-k)
    if m < 0 then fneg r else r

/-- R214. -/
def fnRsqrt (x : FNum) : FNum :=
  match x with
  | .nan => .nan
  | .inf false => .zero false
  | .inf true => .nan
  | .zero neg => .inf neg
  | .fin m e =>
    if m < 0 then .nan
    else
      let (s, ex) := splitPos m e
      let odd := ex % 2 = 1
      let w := if odd then fscale s 1 else s
      let k := if odd then ex - 1 else ex
      let y0 := tabAt tRsq (topFrac s 6 + (if odd then 64 else 0))
      let y1 := fma32 (mul32 y0 half32) (fma32 (fneg w) (mul32 y0 y0) one32) y0
      let y2 := fma32 (mul32 y1 half32) (fma32 (fneg w) (mul32 y1 y1) one32) y1
      scale32 y2 (-(k / 2))

/-- R215. -/
def fnSigmoid (x : FNum) : FNum :=
  match x with
  | .nan => .nan
  | .inf neg => if neg then .zero false else one32
  | .zero _ => half32
  | y => fnRecip (add32 one32 (fnExp2 (mul32 y (fneg sgCl))))

def vfnEval (f : VFn) (x : FNum) : FNum :=
  match f with
  | .exp2 => fnExp2 x
  | .log2 => fnLog2 x
  | .reciprocal => fnRecip x
  | .rsqrt => fnRsqrt x
  | .sigmoid => fnSigmoid x

/-- One element of VFN: the FP32 algorithm, rounded once to TY. An infinity of a finite nonzero input is an exact
    finite value that rounded up; of a zero it is exact (R221). -/
def vfnOne (f : VFn) (ty a : Nat) : Nat × Flg :=
  let x := decodeFloat (tyFmt ty) a
  let r := rnd (tyFmt ty) (vfnEval f x)
  (encodeFloat (tyFmt ty) r,
    { nan := isNan r && !isNan x, inf := isInf r && isFinite x, ovf := isInf r && isFinite x && !isZero x })

def vfnVal (f : VFn) (ty : Nat) (a : BitVec 2048) : BitVec 2048 × Flg :=
  let rs := (velems ty a).map (vfnOne f ty)
  (vpack ty (rs.map Prod.fst), Flg.all (rs.map Prod.snd))

/-! ### Reductions and broadcast (R216, R217) -/

/-- One level of the pairwise tree: adjacent values, lower index first. -/
def treeLevel {α : Type} (f : α → α → α) : List α → List α
  | a :: b :: rest => f a b :: treeLevel f rest
  | l => l

/-- `n` levels of the tree. -/
def treeUp {α : Type} (f : α → α → α) : Nat → List α → List α
  | 0, l => l
  | n + 1, l => treeUp f n (treeLevel f l)

/-- The root of the tree of up to 256 values. -/
def treeOf {α : Type} (f : α → α → α) (d : α) (l : List α) : α := ((treeUp f 8 l).head?).getD d

def fltRed (fn : Nat) (x y : FNum) : FNum :=
  match fn with
  | 0 => add32 x y
  | 1 => fmax x y
  | 2 => fmin x y
  | _ => fmax x y

def intRed (fn : Nat) (x y : Int) : Int :=
  match fn with
  | 0 => x + y
  | 1 => max x y
  | 2 => min x y
  | _ => max x y

/-- VRED: XD and the flags. An ADD that ends in infinity from finite elements sets INF and OVF (R221). -/
def vredVal (ty fn : Nat) (a : BitVec 2048) : Word × Flg :=
  let es := velems ty a
  if ty ≤ 2 then
    let xs := es.map (decodeFloat (tyFmt ty))
    let r := treeOf (fltRed fn) .nan (if fn = 3 then xs.map fabs else xs)
    (BitVec.ofNat 64 (encodeFloat fp32 r),
      if fn = 0 then { nan := isNan r && !xs.any isNan, inf := isInf r && xs.all isFinite,
                       ovf := isInf r && xs.all isFinite } else {})
  else
    let xs := es.map (sext (tyBits ty))
    (BitVec.ofInt 64 (treeOf (intRed fn) 0 (if fn = 3 then xs.map (fun x => (x.natAbs : Int)) else xs)), {})

def vbcastVal (ty : Nat) (x : Word) : BitVec 2048 :=
  vpack ty (List.replicate (tyCount ty) (x.toNat % 2 ^ tyBits ty))

end Sys2Proof.Machine
end

