-- ==== Sys2Proof/Machine/Fusion.lean ====
section
/-! DEFINITION. Fusion descriptors and their streams (R172 to R176), operand spans (R144 to R149, R178), the
activation (R185), the output layouts (R187) and FINISH (R191). -/

namespace Sys2Proof.Machine

/-- What an operation of the C or V engine comes to: the fault conditions it meets beyond its static ones, what it has
    to write, and whether it writes at issue. -/
structure OpOut where
  codes : List Met := []
  pend  : Pend := {}
  now   : Bool := false
  deriving DecidableEq, Repr

/-! ### Descriptors (Tables 6.1 to 6.3) -/

structure Desc where
  en : Bool
  keepwide : Bool
  sfmt : Nat
  link : Nat
  tra : Bool
  trb : Bool
  pmode : Nat
  pag : Nat
  scen : Nat
  scax : Bool
  sag : Nat
  ben : Bool
  bax : Bool
  bfmt : Nat
  bag : Nat
  aen : Bool
  atbl : Nat
  ren : Bool
  rfmt : Nat
  rag : Nat
  rmx : Nat
  rmw : Bool
  mag : Nat
  qag : Nat
  slicek : Nat
  sconst : FNum
  alo : FNum
  flen : Nat
  fsrc : Nat
  ash : Int
  fofmt : Nat
  gstride : Nat
  deriving DecidableEq, Repr

/-- The descriptor that three words hold. -/
def descOfWords (w0 w1 w2 : Word) : Desc :=
  { en := bit w0 63, keepwide := bit w0 62, sfmt := fld w0 61 60, link := fld w0 59 56, tra := bit w0 55,
    trb := bit w0 54, pmode := fld w0 53 52, pag := fld w0 50 48, scen := fld w0 47 46, scax := bit w0 45,
    sag := fld w0 44 42, ben := bit w0 41, bax := bit w0 40, bfmt := fld w0 39 38, bag := fld w0 37 35,
    aen := bit w0 34, atbl := fld w0 33 33, ren := bit w0 32, rfmt := fld w0 31 30, rag := fld w0 29 27,
    rmx := fld w0 26 25, rmw := bit w0 24, mag := fld w0 23 21, qag := fld w0 20 18, slicek := fld w0 17 16,
    sconst := f32 (fld w1 63 32), alo := f32 (fld w1 31 0),
    flen := fld w2 63 48, fsrc := fld w2 47 32, ash := sext 8 (fld w2 31 24), fofmt := fld w2 23 20,
    gstride := fld w2 19 0 }

/-- Descriptor `n` of tile `t`; FD 0 names none and is not valid. -/
def descOf (s : State) (t n : Nat) : Desc :=
  if n = 0 then descOfWords 0 0 0
  else descOfWords (regGet s (aCubFdW0 t (n - 1))) (regGet s (aCubFdW1 t (n - 1))) (regGet s (aCubFdW2 t (n - 1)))

/-- The stage of the instruction that uses a descriptor. -/
inductive Stage where
  | prologue | epilogue | finish
  deriving DecidableEq, Repr

/-- Generators of the streams and writes that an instruction performs (R174). -/
def Desc.streams (d : Desc) (st : Stage) (fmt : Nat) : List Nat :=
  match st with
  | .prologue => if d.pmode ≠ 0 then [d.pag] else []
  | .epilogue =>
    (if 2 ≤ d.scen then [d.sag] else []) ++ (if d.ben then [d.bag] else []) ++ (if d.ren then [d.rag] else []) ++
    (if d.rmx ≠ 0 ∧ d.rmw then [d.mag] else []) ++ (if isMX fmt then [d.qag] else [])
  | .finish => [d.qag]

/-- A field holds a reserved value. -/
def Desc.reserved (d : Desc) : Bool := d.sfmt = 3 || d.bfmt = 3 || d.rfmt = 3 || d.rmx = 3 || d.slicek = 3

/-- 0x1_030 (R174): what makes the descriptor itself invalid, whichever instruction uses it, and what its FMT adds for a
    CMMA. -/
def Desc.invalid (d : Desc) (st : Stage) (fmt : Nat) : Bool :=
  !d.en || d.reserved || repeats (d.streams st fmt) || (d.pmode = 1 && (d.tra || d.gstride % 64 ≠ 0)) ||
  (st = .prologue && ((d.pmode = 1 && isMX fmt) || (2 ≤ d.pmode && 6 < fmt)))

/-- Prologue and epilogue streams of a descriptor. -/
def Desc.nPro (d : Desc) : Nat := if d.pmode ≠ 0 then 1 else 0
def Desc.nEpi (d : Desc) : Nat := (if 2 ≤ d.scen then 1 else 0) + d.ben.toNat + d.ren.toNat

/-- 0x1_031: walks LINK from descriptor `n` (R175). -/
def chainBad (s : State) (t : Nat) : Nat → List Nat → Nat → Nat → Nat → Bool
  | 0, _, _, _, _ => true
  | fuel + 1, seen, n, pro, epi =>
    if n = 0 then decide (1 < pro) || decide (2 < epi)
    else if seen.contains n then true
    else
      let d := descOf s t n
      chainBad s t fuel (n :: seen) d.link (pro + d.nPro) (epi + d.nEpi)

/-- 0x1_030 and 0x1_031 for an instruction that names descriptor `n`. -/
def descCodes (s : State) (t n : Nat) (st : Stage) (fmt : Nat) : List Nat :=
  (if (descOf s t n).invalid st fmt then [0x1030] else []) ++
  (if chainBad s t 17 [] n 0 0 then [0x1031] else [])

/-- The generators that an operation's descriptor steps; none where the descriptor itself is invalid. -/
def opStreams (s : State) (t : Nat) : Op → List Nat
  | .cmma _ _ _ _ f _ fd _ =>
    let d := descOf s t fd.toNat
    if fd = 0 ∨ d.invalid .prologue f.toNat then [] else d.streams .prologue f.toNat
  | .ccvt _ _ f fd =>
    let d := descOf s t fd.toNat
    if fd = 0 ∨ d.invalid .epilogue f.toNat then [] else d.streams .epilogue f.toNat
  | .cfin _ fd _ =>
    let d := descOf s t fd.toNat
    if d.invalid .finish 0 then [] else d.streams .finish 0
  | _ => []

/-- The stored format of SFMT, BFMT and RFMT as a code of Table 4.11: SFMT 0 BF16, 1 FP16, 2 FP32. -/
def sfmtCode : Nat → Nat
  | 0 => 7 | 1 => 8 | _ => 15

/-- BFMT and RFMT: 0 FP32, 1 BF16, 2 FP16. -/
def xfmtCode : Nat → Nat
  | 1 => 7 | 2 => 8 | _ => 15

/-! ### Ranges and spans -/

/-- The codes of a range the C or V engine reads or writes; an empty one is checked for alignment only (log 25). -/
def spanCodes (eng align : Nat) (a : Int) (len : Nat) : List Met :=
  if len = 0 then (if a % (align : Int) = 0 then [] else [⟨0x2021, a⟩]) else rangeCodes eng false align a len

/-- Bytes of an operand span of `tk` K elements of `w` bits (R144, R149). -/
def spanBytes (w tk : Nat) (mx : Bool) : Nat := (if mx then (tk + 255) / 256 * 64 else 0) + tk * w

/-- Element index of (row, K element) in a span: step slices (R146), or 8 × 8 blocks (R178). -/
def elemIndex (K : Nat) (tr : Bool) (r k : Nat) : Nat :=
  if tr then k / 8 * 64 + k % 8 * 8 + r else k / K * (8 * K) + r * K + k % K

/-- The value of element (row, k) of a span held in `raw`, its scale applied (R146 to R148). -/
def spanValue (raw : Nat) (c K : Nat) (tr : Bool) (r k : Nat) : FNum :=
  let w := elemBits c
  if isMX c then
    let b := k / 256
    let line := b * (64 + 256 * w)
    let scale := raw / 2 ^ (8 * (line + 8 * (k / 32 % 8) + r)) % 256
    let data := raw / 2 ^ (8 * (line + 64))
    fmul (decodeElem c (packedAt data w (elemIndex K tr r (k % 256)))) (e8m0 scale)
  else decodeElem c (packedAt raw w (elemIndex K tr r k))

/-- The eight rows of a span. -/
def spanRows (raw : Nat) (c K tk : Nat) (tr : Bool) : List (List FNum) :=
  (List.range 8).map (fun r => (List.range tk).map (spanValue raw c K tr r))

/-- A value quantized and read back (R180). -/
def requant (c s : Nat) (v : FNum) : FNum := decodeElem c (quant v s c)

/-- The rows with each whose scale byte is 0xFF made NaN (R180). -/
def nanRows : List Byte → List (List FNum) → List (List FNum)
  | b :: bs, r :: rs => (if b = 0xFF then r.map (fun _ => FNum.nan) else r) :: nanRows bs rs
  | _, rs => rs

def requantRows (c : Nat) : List Byte → List (List FNum) → List (List FNum)
  | b :: bs, r :: rs => r.map (requant c b.toNat) :: requantRows c bs rs
  | _, rs => rs

/-- The CEXP bytes of eight scale bytes: c = s − 127, and −128 for 0xFF (R180). -/
def cexpOf (bs : List Byte) : BitVec 64 := BitVec.ofNat 64 (leNat (bs.map (fun b => b + 129)))

/-- Row `i`'s carried exponent. -/
def cexpAt (c : BitVec 64) (i : Nat) : Int := sext 8 (c.toNat / 2 ^ (8 * i) % 256)

/-- The largest magnitude of a list; NaN where one is NaN (R186, R188). -/
def absMax (l : List FNum) : FNum := l.foldl (fun m x => fmax m (fabs x)) (.zero false)

/-! ### The activation (R184, R185) -/

/-- act(v) before the rounding of its stage, and the table values that it took as inputs (DEDUCED, log entry 107). The
    entries are those that stood at issue: R184 lets one written meanwhile be old or new (DESIGN CHOICE, log entry 130). Where u
    is NaN and v is not, R185's lines give NaN whichever segment n is, and no table value is taken as an input (DEDUCED, log entry
    157). -/
def actVal (s : State) (t : Nat) (d : Desc) (v : FNum) : FNum × List FNum :=
  if isNan v then (.nan, [])
  else
    let dd := add32 v (fneg d.alo)
    let u := scale32 dd (-d.ash)
    if isNan u then (.nan, [])
    else
      let n := if isInf u then (if isNeg u then 0 else 255) else (iclamp 0 255 (ffloor u)).toNat
      let w := regGet s (aCubAct t (d.atbl * 256 + n))
      let slope := f32 (fld w 63 32)
      let base := f32 (fld w 31 0)
      let y :=
        if isInf u then (if isZero slope then base else fmul slope u)
        else fma32 slope (add32 u (ofInt (-(n : Int)) 0)) base
      (y, [slope, base])

/-! ### The epilogue (R181, R182) -/

/-- The flags of a stage: NAN from no NaN input, INF from finite inputs only. -/
def stageFlag (r : FNum) (ins : List FNum) : Flg :=
  { nan := isNan r && !ins.any isNan, inf := isInf r && ins.all isFinite }

/-- The streams' values of one CCVT. -/
structure EpiVals where
  scale : List FNum := []
  bias  : List FNum := []
  res   : List FNum := []
  deriving DecidableEq, Repr

/-- The value that enters the epilogue, rounded into `f`: value and flags. -/
def epiFirst (f : Fmt) (o : OutVal) : FNum × Flg :=
  match o with
  | .sat neg => (.inf neg, { inf := true })
  | .num x =>
    let v := rnd f x
    (v, stageFlag v [x])

/-- The stages of R181 for element (i, j), of `nc` columns, rounding into `f`. -/
def epiElem (s : State) (t : Nat) (d : Desc) (vs : EpiVals) (f : Fmt) (ce : Int) (nc i j : Nat) (o : OutVal) :
    FNum × Flg :=
  let (v, g) := epiFirst f o
  let (v, g) :=
    if d.scen ≠ 0 ∨ ce ≠ 0 then
      let str := vs.scale.getD (if d.scax then j else i) .nan
      let fac :=
        match d.scen with
        | 0 => one32
        | 1 => d.sconst
        | 2 => str
        | _ => mul32 d.sconst str
      let r := if ce = -128 then .nan else rnd f (fscale (fmul v fac) ce)
      (r, g.or (stageFlag r [v, fac]))
    else (v, g)
  let (v, g) :=
    if d.ben then
      let b := vs.bias.getD (if d.bax then j else i) .nan
      let r := rnd f (fadd v b)
      (r, g.or (stageFlag r [v, b]))
    else (v, g)
  let (v, g) :=
    if d.aen then
      let (y, ins) := actVal s t d v
      let r := rnd f y
      (r, g.or (stageFlag r (v :: ins)))
    else (v, g)
  if d.ren then
    let b := vs.res.getD (i * nc + j) .nan
    let r := rnd f (fadd v b)
    (r, g.or (stageFlag r [v, b]))
  else (v, g)

/-! ### Output layouts (Table 6.7) -/

/-- Accumulators that one CCVT converts. -/
def outGroup (slicek ofmt : Nat) : Nat := if isMX ofmt then 4 else if slicek = 2 then 2 else 1

/-- Element index of (i, j) at DST. -/
def outIndex (slicek ofmt i j : Nat) : Nat :=
  if ofmt = 9 ∨ ofmt = 10 ∨ ofmt = 14 then 64 * (j / 8) + 8 * i + j % 8
  else if ofmt = 11 ∨ ofmt = 12 ∨ ofmt = 13 ∨ slicek = 2 then 128 * (j / 16) + 16 * i + j % 16
  else if slicek = 1 then 16 * (j / 2) + 2 * i + j % 2
  else 8 * i + j

/-- Places element codes of `w` bits at their indices in one little-endian number. -/
def placeCodes (w : Nat) : List (Nat × Nat) → Nat
  | [] => 0
  | (i, c) :: rest => c % 2 ^ w * 2 ^ (w * i) + placeCodes w rest

/-- The values that `n` elements of format `c` in a list of bytes stand for. -/
def valuesOf (c n : Nat) (bs : List Byte) : List FNum :=
  let raw := leNat bs
  (List.range n).map (fun k => decodeElem c (packedAt raw (elemBits c) k))

end Sys2Proof.Machine
end

