-- ==== Sys2Proof/Machine/Cube.lean ====
section
/-! DEFINITION. The C engine's operations (chapters 05 and 06): what each reads, checks and writes. -/

namespace Sys2Proof.Machine

def Tile.accOf (x : Tile) (n : BitVec 3) : Acc := tget {} x.acc n.toNat
def Tile.cexpOf (x : Tile) (n : BitVec 3) : BitVec 64 := tget 0 x.cexp n.toNat
def Tile.rmaxOf (x : Tile) (n : Nat) : FNum := f32 (tget 0 x.rmax n).toNat

/-- Element `k` = 8i + j of an accumulator. -/
def Acc.at (a : Acc) (k : Nat) : BitVec 128 := tget 0 a.el k

/-- A table that lists a list of values from key `k` on, 0 not listed. -/
def listTbl : Nat → List (BitVec 128) → Tbl (BitVec 128)
  | _, [] => []
  | k, v :: vs => if v = 0 then listTbl (k + 1) vs else (k, v) :: listTbl (k + 1) vs

/-- Fixed anchors (Table 5.6). -/
def fixedAnchor : Nat → Int
  | 0 => -18 | 1 => -32 | 2 => -6 | 3 => -8 | 4 => -2 | _ => 0

/-! ### Sums (R158, R161 to R166) -/

/-- The flags of a list of products with special operands (Table 5.7). -/
def prodFlags (ps : List FNum) : Flg := { nan := ps.any isNan, inf := ps.any isInf }

/-- The exact step sum S; an exact zero counts as +0, so that an element of -0 becomes +0 under IEEE addition (R162;
    DESIGN CHOICE, log entry 127). -/
def stepSum (ps : List FNum) : FNum :=
  match ps.foldl fadd (.zero false) with
  | .zero _ => .zero false
  | x => x

/-- One step onto an FP32 element (R161). -/
def fpStep (x : FNum) (ps : List FNum) : FNum × Flg :=
  let sum := stepSum ps
  let r := rnd fp32 (fadd x sum)
  let big := isInf r && isFinite x && isFinite sum
  (r, (prodFlags ps).or { nan := isNan r && !isNan x, inf := big, ovf := big })

/-- The sum of a step's contributions: exact on the way (R164), and by Table 5.5 as a whole (R158). -/
def vlSum (cs : List VClass) : VClass :=
  match cs.foldl vaddExact (.fin 0) with
  | .fin w => vfin w
  | c => c

/-- One step onto a VL128 element: the truncated products summed, then onto the element by Table 5.5 (R158, R164). Special
    contributions meet in the order of k, where R166 names no order (DESIGN CHOICE, log entry 128).
    (DEDUCED, log entry 24.) -/
def vlStep (anchor : Int) (x : VClass) (ps : List FNum) : VClass × Flg :=
  let cs := ps.map (vcontrib anchor)
  let sum := vlSum cs
  let r := vaddClass x sum
  (r, ((Flg.all (cs.map vflags)).or (vflags sum)).or (vflags r))

/-- `ks` steps of `K` products each, in span order (R163). -/
def stepsOf {α : Type} (f : α → List FNum → α × Flg) (K : Nat) : Nat → α → List FNum → α × Flg
  | 0, x, _ => (x, {})
  | n + 1, x, ps =>
    let (y, g) := f x (ps.take K)
    let (z, h) := stepsOf f K n y (ps.drop K)
    (z, g.or h)

def zipMul : List FNum → List FNum → List FNum
  | a :: as, b :: bs => fmul a b :: zipMul as bs
  | _, _ => []

/-- One accumulator element after a CMMA. -/
def cmmaElem (exact : Bool) (anchor : Int) (K ks : Nat) (start : BitVec 128) (row col : List FNum) : BitVec 128 × Flg :=
  let ps := zipMul row col
  if exact then
    let (c, g) := stepsOf (vlStep anchor) K ks (vclass start) ps
    (if ks = 0 then start else vword c, g)
  else
    let (x, g) := stepsOf fpStep K ks (f32 (start.toNat % 2 ^ 32)) ps
    (if ks = 0 then start else BitVec.ofNat 128 (encodeFloat fp32 x), g)

/-- The element products' flags and values of all 64 elements, row-major. -/
def cmmaElems (exact : Bool) (anchor : Int) (K ks : Nat) (start : Nat → BitVec 128) (A B : List (List FNum)) :
    List (BitVec 128 × Flg) :=
  (List.range 64).map (fun k =>
    cmmaElem exact anchor K ks (start k) (A.getD (k / 8) []) (B.getD (k % 8) []))

/-! ### CMMA -/

/-- 0x1_020 (Table 5.3). -/
def cmmaAccCodes (cur : Acc) (clr : Bool) (fmt : Nat) (exact : Bool) : List Nat :=
  let bad :=
    if !exact then !clr && cur.vl
    else if fixedAnchorFmt fmt then !clr && (!cur.vl || cur.anchor.toInt ≠ fixedAnchor fmt)
    else !cur.vl
  if bad then [0x1020] else []

/-- Eight row addresses of a gather (R179). -/
def gatherAddrs (a : Int) (stride : Nat) (idx : List Byte) : List Int :=
  (List.range 8).map (fun i => a + (leNat ((idx.drop (4 * i)).take 4) * stride : Nat))

/-- Reads gathered rows. -/
def readRows (s : State) (e : At) (c tk : Nat) : List Int → List (List FNum) × State
  | [] => ([], s)
  | a :: as =>
    let (bs, s) := engRead s e a.toNat ((tk * elemBits c + 7) / 8)
    let (rest, s) := readRows s e c tk as
    (valuesOf c tk bs :: rest, s)

/-- Reads the span of an operand. -/
def readSpan (s : State) (e : At) (a : Int) (c K tk : Nat) (tr : Bool) : List (List FNum) × State :=
  let (bs, s) := engRead s e a.toNat (spanBytes (elemBits c) tk (isMX c))
  (spanRows (leNat bs) c K tk tr, s)

/-- CMMA. With PMODE 1 the A address is the base that the row table's indices count from: its alignment is tested and each row's
    bytes by R122, and whether the base itself must lie in a region the spec does not say; it need not (DESIGN CHOICE, log entry
    156). -/
def cmmaOut (s : State) (e : At) (oa ob : BitVec 8) (acc : BitVec 3) (clr : Bool) (fmt : Nat) (exact : Bool)
    (fd ks : Nat) : OpOut × State :=
  let t := e.tile.toNat
  let g := getEng s e
  let x := getTile s t
  let cur := x.accOf acc
  let d := descOf s t fd
  let dCodes := if fd = 0 then [] else descCodes s t fd .prologue fmt
  let use := fd ≠ 0 ∧ dCodes = []
  let pm := if use then d.pmode else 0
  let tra := if use then d.tra else false
  let trb := if use then d.trb else false
  let K := stepK fmt
  let tk := ks * K
  let w := elemBits fmt
  let aA := operandAddr g oa
  let bA := operandAddr g ob
  let sA := (g.gen d.pag).addr
  let sLen := if pm = 1 then 32 else 8
  let sCodes := if pm = 0 then [] else rangeCodes 1 false 8 sA sLen
  let (str, s) := if pm ≠ 0 ∧ sCodes = [] then engRead s e sA.toNat sLen else ([], s)
  let rows := gatherAddrs aA d.gstride str
  let srcFmt := if pm = 2 then (if d.keepwide && !exact then 15 else sfmtCode d.sfmt) else fmt
  let aCodes :=
    if pm = 1 then
      (if aA % 64 = 0 then [] else [⟨0x2021, aA⟩]) ++
      (if sCodes = [] ∧ tk ≠ 0 then (rows.map (fun a => rangeCodes 1 false 1 a ((tk * w + 7) / 8))).flatten else [])
    else spanCodes 1 64 aA (spanBytes (elemBits srcFmt) tk (isMX fmt))
  let carried := pm = 2 ∨ pm = 3
  let ce : BitVec 64 := if carried then cexpOf str else 0
  let codes :=
    mets (cmmaAccCodes cur clr fmt exact ++
      (if isMX fmt ∧ ks % stepsPerBlock fmt ≠ 0 then [0x1022] else []) ++ dCodes ++
      (if (!carried || sCodes = []) && !clr && ce ≠ x.cexpOf acc then [0x1033] else []) ++
      (if (tra || trb) && tk % 8 ≠ 0 then [0x1034] else [])) ++
    sCodes ++ aCodes ++ spanCodes 1 64 bA (spanBytes w tk (isMX fmt))
  if codes ≠ [] then ({ codes := codes }, s)
  else
    let (A, s) :=
      if tk = 0 then ([], s)
      else if pm = 1 then readRows s e fmt tk rows
      else readSpan s e aA srcFmt K tk tra
    let A := if pm = 2 then requantRows fmt str A else A
    let A := if carried then nanRows str A else A
    let (B, s) := if tk = 0 then ([], s) else readSpan s e bA fmt K tk trb
    let anchor := if exact && fixedAnchorFmt fmt && clr then BitVec.ofInt 9 (fixedAnchor fmt) else cur.anchor
    let els := cmmaElems exact anchor.toInt K ks (fun k => if clr then 0 else cur.at k) A B
    let new : Acc := { vl := exact, anchor := anchor, el := listTbl 0 (els.map Prod.fst) }
    ({ pend :=
         { acc := [(acc, new)]
           cexp := [(acc, if clr then ce else x.cexpOf acc)]
           cub := (Flg.all (els.map Prod.snd)).cub acc.toNat
           step := (operandSteps oa ++ operandSteps ob ++ (if pm = 0 then [] else [d.pag])).map (BitVec.ofNat 3)
           reads := (if pm = 0 then [] else [(sA.toNat, sLen)]) ++
            (if tk = 0 then []
             else (if pm = 1 then rows.map (fun a => (a.toNat, (tk * w + 7) / 8))
                   else [(aA.toNat, spanBytes (elemBits srcFmt) tk (isMX fmt))]) ++ [(bA.toNat, spanBytes w tk (isMX fmt))]) }
       now := ks = 0 }, s)

/-! ### CCVT -/

/-- An accumulator element on its way out. -/
def Acc.out (a : Acc) (k : Nat) : OutVal :=
  if a.vl then vvalue (a.at k) a.anchor.toInt else .num (f32 ((a.at k).toNat % 2 ^ 32))

/-- The flag of a conversion. -/
def cvtFlag (b : Bool) : Flg := { cvt := b }

/-- CCVT without a descriptor (R167, R168). -/
def ccvtPlain (s : State) (e : At) (od : BitVec 8) (acc : BitVec 3) (ofmt : Nat) : OpOut × State :=
  let g := getEng s e
  let a := (getTile s e.tile.toNat).accOf acc
  let w := elemBits ofmt
  let dst := operandAddr g od
  let codes := rangeCodes 1 false 64 dst (8 * w)
  if codes ≠ [] then ({ codes := codes }, s)
  else
    let one (k : Nat) : Nat × Bool :=
      if !a.vl && ofmt = 15 then ((a.at k).toNat % 2 ^ 32, false) else convOut ofmt (a.out k)
    let cs := (List.range 64).map one
    ({ pend :=
         { mem := [(dst.toNat, natLE (8 * w) (packCodes w (cs.map Prod.fst)))]
           cub := (cvtFlag (cs.any Prod.snd)).cub acc.toNat
           step := (operandSteps od).map (BitVec.ofNat 3) } }, s)

/-- Reads a stream of `n` values of format `c`. -/
def readVals (s : State) (e : At) (a : Int) (c n : Nat) : List FNum × State :=
  let (bs, s) := engRead s e a.toNat (n * elemBits c / 8)
  (valuesOf c n bs, s)

/-- CCVT with a descriptor (R181 to R189; DEDUCED, log entry 26). Where the accumulators of a group are not all in one
    mode, KEEPWIDE acts on each FP32 one's rounding, and widens the output only where all are (DESIGN CHOICE, log
    entry 132). -/
def ccvtFused (s : State) (e : At) (od : BitVec 8) (acc : BitVec 3) (ofmt fd : Nat) : OpOut × State :=
  let t := e.tile.toNat
  let g := getEng s e
  let x := getTile s t
  let d := descOf s t fd
  let dCodes := descCodes s t fd .epilogue ofmt
  if dCodes ≠ [] then ({ codes := mets dCodes }, s)
  else
    let n := outGroup d.slicek ofmt
    if acc.toNat % n ≠ 0 then ({ codes := mets [0x1032] }, s)
    else
      let nc := 8 * n
      let mx := isMX ofmt
      let accs := (List.range n).map (fun k => x.accOf (acc + BitVec.ofNat 3 k))
      let dst := operandAddr g od
      let wideOut := d.keepwide && accs.all (fun a => !a.vl) && ofmt = sfmtCode d.sfmt &&
        decide ((holdBase : Int) ≤ dst) && decide (dst < (holdBase + 0x10000 : Nat))
      let oc := if wideOut then 15 else ofmt
      let w := elemBits oc
      let nS := if d.scax then nc else 8
      let nB := if d.bax then nc else 8
      let bC := xfmtCode d.bfmt
      let rC := xfmtCode d.rfmt
      let aS := (g.gen d.sag).addr
      let aB := (g.gen d.bag).addr
      let aR := (g.gen d.rag).addr
      let aM := (g.gen d.mag).addr
      let aQ := (g.gen d.qag).addr
      let hasS := 2 ≤ d.scen
      let rmw := d.rmx ≠ 0 ∧ d.rmw
      let codes :=
        (if hasS then rangeCodes 1 false 8 aS (4 * nS) else []) ++
        (if d.ben then rangeCodes 1 false 8 aB (nB * elemBits bC / 8) else []) ++
        (if d.ren then rangeCodes 1 false 8 aR (8 * nc * elemBits rC / 8) else []) ++
        (if rmw then rangeCodes 1 false 8 aM 32 else []) ++
        (if mx then rangeCodes 1 false 8 aQ 8 else []) ++
        rangeCodes 1 false 64 dst (8 * n * w)
      if codes ≠ [] then ({ codes := codes }, s)
      else
        let (vS, s) := if hasS then readVals s e aS 15 nS else ([], s)
        let (vB, s) := if d.ben then readVals s e aB bC nB else ([], s)
        let (vR, s) := if d.ren then readVals s e aR rC (8 * nc) else ([], s)
        let vals : EpiVals := ⟨vS, vB, vR⟩
        let elem (i j : Nat) : FNum × Flg :=
          let a := accs.getD (j / 8) {}
          let f := if d.keepwide && !a.vl then fp32 else
            match d.sfmt with
            | 0 => bf16
            | 1 => fp16
            | _ => fp32
          epiElem s t d vals f (cexpAt (x.cexpOf (acc + BitVec.ofNat 3 (j / 8))) i) nc i j (a.out (8 * i + j % 8))
        let rows := (List.range 8).map (fun i => (List.range nc).map (elem i))
        let vrows := rows.map (fun r => r.map Prod.fst)
        let stage := Flg.all ((rows.flatten).map Prod.snd)
        let scales := vrows.map (fun r => scaleByte (absMax r) ofmt)
        let conv (i : Nat) (v : FNum) : Nat × Bool :=
          if mx then (quant v (scales.getD i 0) ofmt, false) else convOut oc (.num v)
        let cells := (List.range 8).map (fun i => (List.range nc).map (fun j =>
          (outIndex d.slicek ofmt i j, j / 8, conv i ((vrows.getD i []).getD j .nan))))
        let flat := cells.flatten
        let bytes := natLE (8 * n * w) (placeCodes w (flat.map (fun c => (c.1, c.2.2.1))))
        let rmax := (List.range 8).map (fun i =>
          absMax ((if d.rmx = 2 then FNum.zero false else x.rmaxOf i) :: vrows.getD i []))
        let rbits := rmax.map (encodeFloat fp32)
        let cvt := (List.range n).foldl (fun m k =>
          m ||| (cvtFlag (flat.any (fun c => c.2.1 = k && c.2.2.2))).cub (acc.toNat + k)) (0 : Word)
        ({ pend :=
             { mem := [(dst.toNat, bytes)] ++
                 (if rmw then [(aM.toNat, (rbits.map (natLE 4)).flatten)] else []) ++
                 (if mx then [(aQ.toNat, scales.map (BitVec.ofNat 8))] else [])
               rmax := if d.rmx = 0 then [] else (List.range 8).map (fun i => (i, BitVec.ofNat 32 (rbits.getD i 0)))
               cub := cvt
               fst := BitVec.ofNat 64 (flagBit stage.inf 0 + flagBit stage.nan 1 +
                 flagBit (mx && scales.contains 0xFF) 2)
               step := (operandSteps od ++ d.streams .epilogue ofmt).map (BitVec.ofNat 3) } }, s)

def ccvtOut (s : State) (e : At) (od : BitVec 8) (acc : BitVec 3) (ofmt fd : Nat) : OpOut × State :=
  if fd = 0 then ccvtPlain s e od acc ofmt else ccvtFused s e od acc ofmt fd

/-! ### CFIN (R191) -/

def cfinOut (s : State) (e : At) (od : BitVec 8) (fd rows : Nat) : OpOut × State :=
  let t := e.tile.toNat
  let g := getEng s e
  let d := descOf s t fd
  let dCodes := descCodes s t fd .finish 0
  if dCodes ≠ [] then ({ codes := mets dCodes }, s)
  else
    let c := if d.keepwide then 15 else sfmtCode d.sfmt
    let es := elemBits c / 8
    if rows % 8 ≠ 0 ∨ d.flen = 0 ∨ d.flen % 32 ≠ 0 ∨ d.fsrc % 64 ≠ 0 ∨ 65536 < d.fsrc + rows * d.flen * es ∨ 6 < d.fofmt
    then ({ codes := mets [0x1034] }, s)
    else
      let w := elemBits d.fofmt
      let K := stepK d.fofmt
      let dst := operandAddr g od
      let aQ := (g.gen d.qag).addr
      let codes := spanCodes 1 64 dst (rows * d.flen * w / 8) ++ spanCodes 1 8 aQ rows
      if codes ≠ [] then ({ codes := codes }, s)
      else
        let (bs, s) := engRead s e (holdBase + d.fsrc) (rows * d.flen * es)
        let raw := leNat bs
        let held (r col : Nat) : FNum :=
          decodeElem c (packedAt raw (8 * es) ((r / 8 * (d.flen / 8) + col / 8) * 64 + r % 8 * 8 + col % 8))
        let vals := (List.range rows).map (fun r => (List.range d.flen).map (held r))
        let scales := vals.map (fun r => scaleByte (absMax r) d.fofmt)
        let cell (r k : Nat) : Nat × Nat :=
          (r / 8 * (8 * d.flen) + elemIndex K false (r % 8) k,
            quant ((vals.getD r []).getD k .nan) (scales.getD r 0) d.fofmt)
        let cells := ((List.range rows).map (fun r => (List.range d.flen).map (cell r))).flatten
        ({ pend :=
             { mem := if rows = 0 then [] else
                 [(dst.toNat, natLE (rows * d.flen * w / 8) (placeCodes w cells)),
                  (aQ.toNat, scales.map (BitVec.ofNat 8))]
               fst := BitVec.ofNat 64 (flagBit (scales.contains 0xFF) 2)
               step := (operandSteps od ++ [d.qag]).map (BitVec.ofNat 3) } }, s)

/-! ### CSTA, CLDA, CZERO, CANCH, CANCHS (R151, R152, R159, R160) -/

/-- Bytes of one element in the accumulator's mode. -/
def Acc.bytes (a : Acc) : Nat := if a.vl then 16 else 4

def cstaOut (s : State) (e : At) (od : BitVec 8) (acc : BitVec 3) : OpOut × State :=
  let a := (getTile s e.tile.toNat).accOf acc
  let dst := operandAddr (getEng s e) od
  let codes := rangeCodes 1 false 64 dst (64 * a.bytes)
  if codes ≠ [] then ({ codes := codes }, s)
  else
    ({ pend := { mem := [(dst.toNat, ((List.range 64).map (fun k => natLE a.bytes (a.at k).toNat)).flatten)]
                 step := (operandSteps od).map (BitVec.ofNat 3) }
       now := true }, s)

/-- CLDA loads words as they are and sets no flag, whatever they stand for (R169; DESIGN CHOICE, log entry 129). -/
def cldaOut (s : State) (e : At) (oa : BitVec 8) (acc : BitVec 3) : OpOut × State :=
  let a := (getTile s e.tile.toNat).accOf acc
  let src := operandAddr (getEng s e) oa
  let codes := rangeCodes 1 false 64 src (64 * a.bytes)
  if codes ≠ [] then ({ codes := codes }, s)
  else
    let (bs, s) := engRead s e src.toNat (64 * a.bytes)
    let els := unpackN (8 * a.bytes) 64 (leNat bs)
    ({ pend := { acc := [(acc, { a with el := listTbl 0 (els.map (BitVec.ofNat 128)) })]
                 cexp := [(acc, 0)], step := (operandSteps oa).map (BitVec.ofNat 3) }
       now := true }, s)

def czeroOut (s : State) (e : At) (acc : BitVec 3) : OpOut :=
  let a := (getTile s e.tile.toNat).accOf acc
  { pend := { acc := [(acc, { a with el := [] })], cexp := [(acc, 0)] }, now := true }

def canchOut (anchor : BitVec 9) (acc : BitVec 3) : OpOut :=
  { pend := { acc := [(acc, { vl := true, anchor := anchor })], cexp := [(acc, 0)] }, now := true }

/-- Every element NaN. -/
def nanAcc : Acc := { vl := true, anchor := 0, el := listTbl 0 (List.replicate 64 (vword .nan)) }

def canchsOut (s : State) (e : At) (oa : BitVec 8) (acc : BitVec 3) : OpOut × State :=
  let src := operandAddr (getEng s e) oa
  let codes := rangeCodes 1 false 64 src 64
  if codes ≠ [] then ({ codes := codes }, s)
  else
    let (bs, s) := engRead s e src.toNat 64
    let ea := (bs.getD 0 0).toNat
    let eb := (bs.getD 1 0).toNat
    let a : Int := ((ea : Int) - 127) + ((eb : Int) - 127) + (bs.getD 2 0).toInt
    let steps := (operandSteps oa).map (BitVec.ofNat 3)
    if ea = 0xFF ∨ eb = 0xFF then
      ({ pend := { acc := [(acc, nanAcc)], cexp := [(acc, 0)], cub := (Flg.mk true false false false).cub acc.toNat
                   step := steps }
         now := true }, s)
    else if a < -256 ∨ 255 < a then ({ codes := mets [0x1021] }, s)
    else
      ({ pend := { acc := [(acc, { vl := true, anchor := BitVec.ofInt 9 a })], cexp := [(acc, 0)], step := steps }
         now := true }, s)

end Sys2Proof.Machine
end

