-- ==== Sys2Proof/Machine/RegWrite.lean ====
section
/-! DEFINITION. How a write meets a register: field types (R11, Table 0.6), refusals, and reset codes (R13). -/

namespace Sys2Proof.Machine

/-- The host link and the management controller with its firmware, which may write every register. -/
def isHost : Req → Bool
  | .host => true
  | .mgmt => true
  | .firmware => true
  | _ => false

/-- Control space that the host link serves in RECOVERY: the parameter block, and HL_, NVS_, SEC_ and VRX_ (R454).
    (DEDUCED, log entry 77.) -/
def recoverySpace (a : Nat) : Bool :=
  (0x030000000000 ≤ a && a < 0x030000000100) || (0x030012000000 ≤ a && a < 0x030013000000) ||
  (0x030016000000 ≤ a && a < 0x030019000000)

/-- An access of the host link that RECOVERY refuses (R454). -/
def barred (s : State) (req : Req) (a : Nat) : Bool :=
  req = .host && rf s aVrxState 63 60 = 1 && !recoverySpace a

/-- A write of one field: the word, and whether it met a locked RWL field with another value. -/
def writeField (locked : Bool) (old v : Word) (f : RField) : Word × Bool :=
  match f.ty with
  | .rw => (setFld old f.hi f.lo (fld v f.hi f.lo), false)
  | .ro => (old, false)
  | .wo => (old, false)
  | .w1c => (old &&& ~~~(v &&& maskW f.hi f.lo), false)
  | .rwl =>
    if locked then (old, fld v f.hi f.lo ≠ fld old f.hi f.lo) else (setFld old f.hi f.lo (fld v f.hi f.lo), false)

def writeFields (locked : Bool) (v : Word) : List RField → Word → Word × Bool
  | [], w => (w, false)
  | f :: fs, w =>
    let (w, b) := writeField locked w v f
    let (w, c) := writeFields locked v fs w
    (w, b || c)

/-- SEC_CTRL.LOCK. -/
def secLocked (s : State) : Bool := rbit s aSecCtrl 0

/-- A write by field type alone, and the code it completes with: a changed value for a locked RWL field raises 0x9_020
    (R401, R469). -/
def typedAccess (s : State) (a : Nat) (v : Word) : Nat × State :=
  match regAt a with
  | none => (0, s)
  | some r =>
    let (w, bad) := writeFields (secLocked s) v (kindFields r.kind) (regGet s a)
    let s := regPut s a w
    if bad then (0x9020, report s unitSecurity 0x9020) else (0, s)

def typedWrite (s : State) (a : Nat) (v : Word) : State := (typedAccess s a v).2

/-- A write that completes with error and changes nothing; Table 17.3 names no ARG word for its code (R477). -/
def refuse (s : State) (u code : Nat) : Nat × State := (code, report s u code)

/-- Control space outside the Drone domain and P0's power control: it answers only while the core stage runs (R24). The
    parameter block is not in it: it answers before the boot ROM has brought control space up, too (R34; DESIGN CHOICE, log
    entry 123). -/
def coreSpace (a : Nat) : Bool := 0x030001000000 ≤ a && a < 0x030013000000

/-- The die that a unit's registers lie on, for units other than tiles and Reeds, which see to it themselves.
    (DEDUCED, log entry 82.) -/
def regDie (r : Reg) : Option Nat :=
  match r.kind with
  | .hbmChCtrl | .hbmChStatus | .hbmChAtom => some (r.i / 64)
  | .hbmScCtrl | .hbmScStatus => some r.i
  | .belCtrl | .belPeer | .belStatus | .belLanes | .belLockmap | .belFec | .belTemp | .belRingT | .belRingR | .belXt =>
    some (if r.i = 6 then 8 else portDie r.i)
  | .chnLaneStatus | .chnLaneBar | .chnLaneLate | .chnLaneCtrl => some (8 + r.i)
  | _ => none

/-- An access that finds no unit: the core stage is off (DESIGN CHOICE, log entry 44), or the die isolated (Table 10.8). -/
def unreached (s : State) (req : Req) (a : Nat) : Option (Nat × State) :=
  if coreSpace a && !s.pins.core then some ((Config.openCode 24).toNat, s)
  else
    match regAt a with
    | none => none
    | some r =>
      match regDie r with
      | none => none
      | some d =>
        if dieIsolated s d then some (0x3010, reportLost s req d) else none

/-- A write that RECOVERY does not bar and that finds its unit. -/
def reached (req : Req) (a : Nat) (f : State → Nat × State) (s : State) : Nat × State :=
  if barred s req a then refuse s unitSecurity 0x9005
  else
    match unreached s req a with
    | some r => r
    | none => f s

/-- A write that only the host link and the management controller may make. -/
def hostOnly (req : Req) (u code a : Nat) (f : State → Nat × State) (s : State) : Nat × State :=
  if !isHost req then refuse s u code else reached req a f s

/-- A write that a rule refuses with a fault: it completes with that code (R401). (DEDUCED, log entry 64.) -/
def refused (s : State) (u code : Nat) (a0 : Word := 0) : Nat × State := (code, report s u code { a0 := a0 })

/-- What an access returns to its requester. -/
def replied (s : State) (code : Nat) (bs : List Byte) : State := { s with reply := (code, bs) }

/-- The outcome of a write: its code goes to the requester. -/
def answered (r : Nat × State) : Host.Outcome State Fault Refusal := .next (replied r.2 r.1 [])

/-- The source unit of a code that no rule gives one. -/
def openUnit (code : Nat) : Nat := (Config.openUnit code).toNat

/-- The fields of one register that a reset of `codes` restores. -/
def resetFields (codes : RCode → Bool) (w0 : Word) : List RField → Word → Word
  | [], w => w
  | f :: fs, w => resetFields codes w0 fs (if codes f.code then setFld w f.hi f.lo (fld w0 f.hi f.lo) else w)

/-- Restores the fields of the given reset codes in every register that `p` picks. -/
def resetRegsIn (p : Reg → Bool) (codes : RCode → Bool) : List (Nat × Word) → State → State
  | [], s => s
  | (a, w) :: rest, s =>
    match regAt a with
    | none => resetRegsIn p codes rest s
    | some r =>
      resetRegsIn p codes rest
        (if p r then regPut s a (resetFields codes (regReset r) (kindFields r.kind) w) else s)

def resetRegs (s : State) (p : Reg → Bool) (codes : RCode → Bool) : State := resetRegsIn p codes s.regs s

/-- The kinds of register that a tile holds. -/
def tileKind : Kind → Bool
  | .tileStatus | .tileCtrl | .tileLq | .tileSem | .tileSemadd | .tileIbank | .cubStatus | .cubAcc | .cubFstat
  | .cubFdW0 | .cubFdW1 | .cubFdW2 | .cubFdW3 | .cubAct | .cubCexp | .cubRmax | .vecStatus => true
  | _ => false

/-- A register of tile `t`. -/
def ofTile (t : Nat) (r : Reg) : Bool := tileKind r.kind && r.i = t

/-- Reset code T alone. -/
def codeT : RCode → Bool
  | .t => true
  | _ => false

/-- Codes M, D and T: a module reset restores these (R13). -/
def codeM : RCode → Bool
  | .m => true
  | .d => true
  | .t => true
  | _ => false

/-- Codes D and T. -/
def codeD : RCode → Bool
  | .d => true
  | .t => true
  | _ => false

/-- Codes C, M, D and T. -/
def codeC : RCode → Bool
  | .kept => false
  | _ => true

end Sys2Proof.Machine
end

