-- ==== Sys2Proof/Machine/Pair.lean ====
section
/-! DEFINITION. Paired tiles (R491 to R494). -/

namespace Sys2Proof.Machine

/-- Pair `p` is enabled and holds tile `t`. -/
def pairHas (s : State) (p t : Nat) : Bool :=
  rbit s (aMgtPairCtrl p) 63 && (rf s (aMgtPairCtrl p) 12 0 = t || rf s (aMgtPairCtrl p) 28 16 = t)

/-- The enabled pair that holds a tile. -/
def pairOf (s : State) (t : Nat) : Option Nat := (List.range 16).find? (fun p => pairHas s p t)

/-- The pair compares engine `e` (1 C, 2 V, 3 S). -/
def pairNames (s : State) (p e : Nat) : Bool := e ≠ 0 && rbit s (aMgtPairCtrl p) (59 + e)

/-- The other tile of a pair. -/
def pairOther (s : State) (p t : Nat) : Nat :=
  if rf s (aMgtPairCtrl p) 12 0 = t then rf s (aMgtPairCtrl p) 28 16 else rf s (aMgtPairCtrl p) 12 0

/-- The pair that compares this engine. -/
def pairedEngine (s : State) (a : At) : Option Nat :=
  match pairOf s a.tile.toNat with
  | some p => if pairNames s p a.eng.toNat then some p else none
  | none => none

/-- Folds bytes into an engine's signature (R492). -/
def sigFold (s : State) (a : At) (bs : List Byte) : State :=
  match pairedEngine s a with
  | some _ => modEng s a (fun g => { g with sig := BitVec.ofNat 64 (crc64 g.sig.toNat bs) })
  | none => s

/-- Compares the snapshots that both tiles hold, oldest first. `fuel` bounds them. (DEDUCED, log entry 28.) -/
def comparePair (p e : Nat) : Nat → State → State
  | 0, s => s
  | fuel + 1, s =>
    let ta := rf s (aMgtPairCtrl p) 12 0
    let tb := rf s (aMgtPairCtrl p) 28 16
    let a : At := ⟨BitVec.ofNat 13 ta, BitVec.ofNat 2 e⟩
    let b : At := ⟨BitVec.ofNat 13 tb, BitVec.ofNat 2 e⟩
    let ga := getEng s a
    let gb := getEng s b
    match ga.snaps, gb.snaps with
    | x :: xs, y :: ys =>
      let n := ga.done - xs.length
      let s := setEng s a { ga with snaps := xs }
      let s := setEng s b { gb with snaps := ys }
      let s := rcount s (aMgtPairStat p) 31 0 1
      let s :=
        if x = y ∨ rbit s (aMgtPairStat p) 63 then s
        else
          let s := rset (rsetb s (aMgtPairStat p) 63 true) (aMgtPairStat p) 62 61 e
          report s (openUnit 0x10D0) 0x10D0
            { a0 := BitVec.ofNat 64 (ta + tb * 2 ^ 16), a1 := BitVec.ofNat 64 n, a2 := x, a3 := y }
      comparePair p e fuel s
    | _, _ => s

/-- An entry of a named engine completes: its signature is snapshotted and compared (R493). -/
def pairComplete (s : State) (a : At) : State :=
  match pairedEngine s a with
  | none => s
  | some p =>
    let s := modEng s a (fun g => { g with snaps := g.snaps ++ [g.sig], done := g.done + 1 })
    comparePair p a.eng.toNat 17 s

/-- The engine is 16 completions ahead of its partner and holds its next entry (R493). -/
def pairHolds (s : State) (a : At) : Bool :=
  match pairedEngine s a with
  | none => false
  | some p =>
    let o : At := ⟨BitVec.ofNat 13 (pairOther s p a.tile.toNat), a.eng⟩
    decide ((getEng s o).done + 16 ≤ (getEng s a).done)

/-- An abort, reset, isolation or power-off that touches a paired tile ends its pair (R494). -/
def breakPair (s : State) (t : Nat) : State :=
  match pairOf s t with
  | none => s
  | some p => report (rsetb s (aMgtPairCtrl p) 63 false) (openUnit 0x10D2) 0x10D2

end Sys2Proof.Machine
end

