-- ==== Sys2Proof/Machine/Queue.lean ====
section
/-! DEFINITION. Launch queues and pushes (R73 to R80), tile groups (R88 to R93), semaphore registers, engine abort and
tile reset (R98, R99), and the clock gate of a tile (R94). -/

namespace Sys2Proof.Machine

/-! ### Tile groups (R88, R89, Table 3.10) -/

def grpEn (s : State) (g : Nat) : Bool := rbit s (aTileGrp g) 63

/-- The rectangle of a descriptor word holds tile `t`. -/
def grpHas (w : Word) (t : Nat) : Bool :=
  bit w (32 + dieOf t) && decide (fld w 20 16 ≤ rowOf t) && decide (rowOf t < fld w 20 16 + fld w 29 24) &&
  decide (fld w 4 0 ≤ colOf t) && decide (colOf t < fld w 4 0 + fld w 13 8)

/-- The enabled group of a tile. -/
def groupOf (s : State) (t : Nat) : Option Nat :=
  (List.range 64).find? (fun g => grpEn s g && grpHas (regGet s (aTileGrp g)) t)

def grpSize (w : Word) : Nat := popcount 8 (fld w 39 32) * fld w 29 24 * fld w 13 8

/-- R89. -/
def grpRank (w : Word) (t : Nat) : Nat :=
  popcount (dieOf t) (fld w 39 32) * fld w 29 24 * fld w 13 8 + (rowOf t - fld w 20 16) * fld w 13 8 +
    (colOf t - fld w 4 0)

/-- The members of a descriptor in rank order. -/
def grpMembers (w : Word) : List Nat :=
  ((List.range 8).filter (fun d => bit w (32 + d))).flatMap (fun d =>
    (List.range (fld w 29 24)).flatMap (fun r =>
      (List.range (fld w 13 8)).map (fun c => d * 1024 + (fld w 20 16 + r) * 32 + (fld w 4 0 + c))))

/-- The tiles of a rectangle that may reach past its dies' edges. -/
def grpTiles (w : Word) : List Nat := (grpMembers w).filter (grpHas w)

/-- The group word that x4 takes at entry start (Table 3.4). -/
def groupWord (s : State) (t : Nat) : Word :=
  match groupOf s t with
  | none => BitVec.ofNat 64 (2 ^ 63)
  | some g =>
    let w := regGet s (aTileGrp g)
    BitVec.ofNat 64 (g * 2 ^ 32 + grpSize w * 2 ^ 16 + grpRank w t)

/-- Engine `e` of a tile waits at GBAR. (DEDUCED, log entry 105.) -/
def atGbar (s : State) (t e : Nat) : Bool :=
  match ((getTile s t).engine e).held with
  | some b => b.ctl = some .gbar && !((getTile s t).engine e).full && ((getTile s t).engine e).answer.isNone
  | none => false

/-- An engine of a tile holds a waiting or running entry, or the tile is under Chatter (R90, R487). -/
def tileBusy (s : State) (t : Nat) : Bool :=
  (getTile s t).chatter || !allEngines (getTile s t) (fun g => !g.busy)

/-- A GBAR of a tile is pending on some engine. -/
def gbarPending (s : State) (t : Nat) : Bool := atGbar s t 0 || atGbar s t 1 || atGbar s t 2 || atGbar s t 3

/-- A tile whose group changes owes no barrier of the old one. -/
def freeTile (s : State) (t : Nat) : State :=
  let x := getTile s t
  setTile s t { x with eng := tmap {} (fun _ g => { g with stuck := false }) x.eng }

/-- A write to TILE_GRPg (R90). -/
def wTileGrp (s : State) (g : Nat) (v : Word) : Nat × State :=
  let old := regGet s (aTileGrp g)
  let busy (w : Word) : Bool := (grpTiles w).any (fun t => tileBusy s t || gbarPending s t)
  let shares := (List.range 64).any (fun h =>
    h ≠ g && grpEn s h && (grpMembers v).any (grpHas (regGet s (aTileGrp h))))
  let bad :=
    if bit v 63 then
      fld v 39 32 = 0 || fld v 29 24 = 0 || fld v 13 8 = 0 ||
      decide (32 < fld v 20 16 + fld v 29 24) || decide (32 < fld v 4 0 + fld v 13 8) ||
      shares || busy old || busy v
    else bit old 63 && (busy old || busy v)
  if bad then refused s (openUnit 0x1043) 0x1043
  else (0, typedWrite ((grpTiles old ++ grpTiles v).foldl freeTile s) (aTileGrp g) v)

/-! ### Pushes (R75 to R79, R91) -/

/-- The module is in THERMAL-HOLD (R441). -/
def thermalHold (s : State) : Bool := rbit s aThmHold 63

/-- The first two words of an entry show a reserved KIND or CRET 3. -/
def entryBad (w0 : Word) : Bool := 1 < fld w0 63 60 || fld w0 35 34 = 3

/-- The refusal that stands highest for one queue (Table 3.3), FULL among them; 0 when it accepts. -/
def pushStatus (s : State) (t e : Nat) (w0 : Word) : Nat :=
  if tileIsolated s t then 6
  else if thermalHold s then 7
  else if !tilePowered s t ∨ inStandby s then 5
  else if (getTile s t).resetting then 4
  else if ((getTile s t).engine e).phase = .aborting then 3
  else if entryBad w0 then 8
  else if 16 ≤ ((getTile s t).engine e).queue.length then 1
  else 0

/-- The place of a status in Table 3.3, the highest refusal first. -/
def statusRank : Nat → Nat
  | 9 => 0 | 6 => 1 | 7 => 2 | 5 => 3 | 4 => 4 | 3 => 5 | 8 => 6 | 1 => 7 | 2 => 8 | _ => 9

/-- The higher refusal of two. -/
def worseStatus (a b : Nat) : Nat := if statusRank b < statusRank a then b else a

/-- Puts an entry in a queue, stamped and numbered, and wakes the tile (R44, R48, R94, R95). -/
def acceptEntry (s : State) (t e : Nat) (w0 w1 w2 w3 : Word) (grp : Option (Nat × Nat)) : State :=
  let s := wakeTile s t
  let (st, s) := takeStamp s (unitOfEngine t e)
  let (n, s) := takeSeq s (unitOfEngine t e)
  modEng s ⟨BitVec.ofNat 13 t, BitVec.ofNat 2 e⟩ (fun g => { g with queue := g.queue ++ [⟨w0, w1, w2, w3, st, n, grp⟩] })

/-- A push to one queue: status and state (R77 leaves the queue of a refused push as it was). -/
def tilePush (s : State) (t e : Nat) (w0 w1 w2 w3 : Word) : Nat × State :=
  let c := pushStatus s t e w0
  if c ≠ 0 then (c, s) else (0, acceptEntry s t e w0 w1 w2 w3 none)

/-- A group push: all members or none (R91). -/
def groupPush (s : State) (g e : Nat) (w0 w1 w2 w3 : Word) : Nat × State :=
  if !grpEn s g then (9, s)
  else
    let ms := grpMembers (regGet s (aTileGrp g))
    let one (t : Nat) : Nat := if pushStatus s t e w0 = 1 then 2 else pushStatus s t e w0
    let c := ms.foldl (fun c t => worseStatus c (one t)) 0
    if c ≠ 0 then (c, s)
    else
      let key := g * 4 + e
      let n := tget 0 s.grpPush key
      let s := { s with grpPush := tset 0 s.grpPush key (n + 1) }
      let s :=
        if fld w0 35 34 = 0 then s
        else { s with grpCred := s.grpCred ++ [⟨key, n, ms.length, w0, w1⟩] }
      (0, ms.foldl (fun s t => acceptEntry s t e w0 w1 w2 w3 (some (key, n))) s)

/-- Who may push to a tile or group window: the host, and an S engine of the same module (R75). -/
def mayPush : Req → Bool
  | .host => true
  | .engine e => e.eng = 3
  | _ => false

/-! ### Credit returns (R79) -/

/-- Sends the credit return of an entry whose slot frees on an engine. -/
def creditReturn (s : State) (a : At) (w0 w1 : Word) : State :=
  match fld w0 35 34 with
  | 1 =>
    report s (unitOfEngine a.tile.toNat a.eng.toNat) Config.creditCode.toNat
      { event := true, tag := fld w1 63 48, a0 := engineArg a 0 }
  | 2 => token s (fld w0 29 17) (fld w0 33 30) 1
  | _ => s

/-- One member less to free a slot of a group push. -/
def credLess (key push : Nat) : List GrpCred → List GrpCred
  | [] => []
  | c :: cs =>
    if c.key = key ∧ c.push = push then { c with left := c.left - 1 } :: cs else c :: credLess key push cs

/-- Fires the group credits of a queue whose members have all freed their slots, in push order (R91). The event of a group's
    credit names the member that frees its slot last (DESIGN CHOICE, log entry 120). -/
def fireCredits (a : At) (key : Nat) : List GrpCred → State → List GrpCred × State
  | [], s => ([], s)
  | c :: cs, s =>
    if c.key = key then
      if c.left = 0 then fireCredits a key cs (creditReturn s a c.w0 c.w1) else (c :: cs, s)
    else
      let (rest, s) := fireCredits a key cs s
      (c :: rest, s)

/-- The slot of an entry frees as it starts. (DESIGN CHOICE, log entry 29.) -/
def freeSlot (s : State) (a : At) (x : Entry) : State :=
  match x.grp with
  | none => creditReturn s a x.w0 x.w1
  | some (key, n) =>
    let (cs, s) := fireCredits a key (credLess key n s.grpCred) s
    { s with grpCred := cs }

/-- A discarded entry's group credit never fires (R79). -/
def dropCredit (s : State) (x : Entry) : State :=
  match x.grp with
  | none => s
  | some (key, n) => { s with grpCred := s.grpCred.filter (fun c => !(c.key = key && c.push = n)) }

/-! ### Waits (R82, R83) -/

/-- The wait an engine has pending: its semaphore and amount. The entry wait is a wait of the queue's head while no
    entry runs; the in-stream wait is a held WAIT. (DEDUCED, log entry 60.) -/
def pendingWait (g : Engine) : Option (Nat × Nat) :=
  match g.phase, g.running, g.queue, g.held with
  | .idle, none, x :: _, _ => if fld x.w0 55 48 = 0 then none else some (fld x.w0 59 56, fld x.w0 55 48)
  | .streamWait, _, _, some b =>
    match b.ctl with
    | some (.wait sem n) => if g.full || g.answer.isSome then none else some (sem.toNat, n.toNat)
    | _ => none
  | _, _, _, _ => none

/-- An engine before `e` has a wait on the semaphore that would be granted first (R83). -/
def earlierWait (x : Tile) (e sem : Nat) : Bool :=
  (List.range e).any (fun k =>
    match pendingWait (x.engine k) with
    | some (m, n) => m = sem && decide (n ≤ x.semVal sem)
    | none => false)

/-- A tile's clock runs. -/
def tileRuns (s : State) (t : Nat) : Bool :=
  tilePowered s t && !tileIsolated s t && !(getTile s t).gated && !(getTile s t).resetting &&
  decide ((getCluster s (clusterOf t)).clk = .running)

/-- Takes `n` from a semaphore where the wait for it is granted; `none` where it is not. -/
def takeSem (s : State) (t e sem n : Nat) : Option State :=
  let x := getTile s t
  if n = 0 then some s
  else if x.semVal sem < n ∨ earlierWait x e sem then none
  else some (setTile s t (x.setSem sem (x.semVal sem - n)))

/-- ENTRY_START: the head's wait is granted and it starts (R74 steps 1 and 2). -/
def startEntry (s : State) (a : At) : State :=
  let g := getEng s a
  let t := a.tile.toNat
  match g.queue with
  | [] => s
  | x :: rest =>
    if g.phase ≠ .idle ∨ g.running.isSome ∨ !tileRuns s t ∨ pairHolds s a then s
    else
      match takeSem s t a.eng.toNat (fld x.w0 59 56) (fld x.w0 55 48) with
      | none => s
      | some s =>
        let x4 := groupWord s t
        let s := modEng s a (fun g =>
          let g := ((((g.setX 1 (BitVec.ofNat 64 (fld x.w1 47 0))).setX 2 x.w2).setX 3 x.w3).setX 4 x4)
          let run := fld x.w0 63 60 = 0
          { g with queue := rest, running := some x, loops := []
                   phase := if run then .run else .drain
                   pc := if run then BitVec.ofNat 12 (fld x.w0 11 0) else g.pc })
        freeSlot s a x

/-! ### Abort and tile reset (R98, R99) -/

/-- Members of an engine's group, the tile itself where it is in none. -/
def groupMates (s : State) (t : Nat) : List Nat :=
  match groupOf s t with
  | some g => grpMembers (regGet s (aTileGrp g))
  | none => [t]

/-- An engine is aborted while a GBAR of its group is pending: every other member waits at that barrier, as it stands there
    or as it reaches it, until the host aborts its same engine too (R92). The abort of an engine that waits for just that
    strands nobody anew. -/
def strandMates (s : State) (a : At) : State :=
  let pending (t : Nat) : Bool := atGbar s t a.eng.toNat && !((getTile s t).engine a.eng.toNat).stuck
  if (getEng s a).stuck ∨ !((groupMates s a.tile.toNat).any pending) then s
  else
    (groupMates s a.tile.toNat).foldl (fun s t =>
      if t ≠ a.tile.toNat then
        modEng s ⟨BitVec.ofNat 13 t, a.eng⟩ (fun g => { g with stuck := true })
      else s) s

/-- The collectives that an engine launched no longer signal its tile (R98): every one in flight, those of earlier entries
    among them, and only at that tile (DESIGN CHOICE, log entry 121). -/
def muteLaunched (s : State) (a : At) : State :=
  let m (e : ChEntry) : ChEntry := if e.launcher = some a then { e with mute := true } else e
  { s with chn := { s.chn with
      lanes := tmap {} (fun _ l => { l with queue := l.queue.map m }) s.chn.lanes
      colls := s.chn.colls.map (fun c => { c with cmd := m c.cmd }) } }

/-- Aborts one engine (R98). It reads ABORTING until its last transfer has completed, and at least until
    ENGINE_ABORT_COMPLETE: a push of the same cycle meets ABORTING (R101). (DESIGN CHOICE, log entry 119.) -/
def abortEngine (s : State) (a : At) : State :=
  let s := strandMates s a
  let g := getEng s a
  let s := g.queue.foldl dropCredit s
  let s := setEng s a
    { g with queue := [], running := none, phase := .aborting, fault := 0
             held := none, full := false, answer := none, plan := none, stuck := false, results := [], loops := []
             xfers := g.xfers.map (fun x => { x with discard := true }) }
  muteLaunched s a

/-- Aborts the engines whose bit is 1 in `mask`. -/
def abortMask (s : State) (t mask : Nat) : State :=
  let s := if mask % 16 = 0 then s else breakPair s t
  (List.range 4).foldl (fun s e =>
    if mask.testBit e then abortEngine s ⟨BitVec.ofNat 13 t, BitVec.ofNat 2 e⟩ else s) s

/-- No engine of a tile is completing an abort. -/
def noAbort (x : Tile) : Bool := allEngines x (fun g => g.phase ≠ .aborting)

/-- A tile reset ends once its aborts have (R99). -/
def endReset (s : State) (t : Nat) : State :=
  let x := getTile s t
  if x.resetting && !x.chatter && noAbort x then setTile s t { x with resetting := false } else s

/-- What a tile reset sets after its aborts (R99): T fields, semaphores, accumulators, sequence counters.
    (DEDUCED, log entry 53.) -/
def resetTileState (s : State) (t : Nat) : State :=
  let x := getTile s t
  let s := setTile s t { x with sem := [], acc := [], cexp := [], rmax := []
                                eng := tmap {} (fun _ g => { g with pc := 0 }) x.eng }
  let s := resetRegs s (ofTile t) codeT
  { s with rep := { s.rep with seq := tkeep (fun u => !(0x8000 ≤ u && u % 0x2000 = t)) s.rep.seq } }

/-- Starts a tile reset; it ends when its aborts do (R99). -/
def resetTile (s : State) (t : Nat) : State :=
  let s := resetTileState (abortMask s t 15) t
  setTile s t { getTile s t with resetting := true }

/-- Who may write the registers of chapters 03 to 07 beyond the host: a tile engine, where R103 says so.
    (DEDUCED, log entry 109.) -/
def r103 (s : State) : Nat × State := refuse s unitFirmware 0x902B

/-- An access to a register of a tile that is off, isolated or under Chatter (R96, R487, Table 10.8). -/
def tileRegCode (s : State) (req : Req) (t a : Nat) : Option (Nat × State) :=
  let c := tileCode s t
  if c = 0 then none
  else
    some (c, if c = 0x3010 then reportLost s req (dieOf t)
             else if isRemote req then s
             else report s (unitOfTile t) c { a0 := tileArg t, a1 := BitVec.ofNat 64 a })

/-- A write that only the host and the management controller may make, to a register of a tile (R103). -/
def tileHostAsk (s : State) (req : Req) (t a : Nat) (f : State → Nat × State) : Nat × State :=
  hostOnly req unitFirmware 0x902B a (fun s =>
    match tileRegCode s req t a with
    | some r => r
    | none => f (wakeTile s t)) s

/-- Such a write that is never refused. -/
def tileHostWrite (s : State) (req : Req) (t a : Nat) (f : State → State) : Nat × State :=
  tileHostAsk s req t a (fun s => (0, f s))

/-- A write to TILE_CTRL: TRESET before ABORT, the wider first (Table 3.8). -/
def wTileCtrl (s : State) (req : Req) (t : Nat) (v : Word) : Nat × State :=
  tileHostWrite s req t (aTileCtrl t) (fun s => if bit v 8 then resetTile s t else abortMask s t (fld v 3 0))

/-- A write to TILE_SEMn. -/
def wTileSem (s : State) (req : Req) (t n : Nat) (v : Word) : Nat × State :=
  tileHostWrite s req t (aTileSem t n) (fun s => setTile s t ((getTile s t).setSem n (fld v 15 0)))

/-- The host, or a tile engine of this module. -/
def isHostOrEngine : Req → Bool
  | .engine _ => true
  | r => isHost r

/-- The fault that a token raises at its tile: 0x1_042 where the tile is deaf, 0x1_041 where its sum saturates. -/
def tokenFault (s : State) (t sem n : Nat) : Nat :=
  if tokenCode s t n ≠ 0 then 0x1042 else if 65535 < (getTile s t).semVal sem + n then 0x1041 else 0

/-- A write to TILE_SEMADD, a token by R81 and R83. It answers the host with the fault that it raises (R401), and every requester
    with that of R96. -/
def wTileSemadd (s : State) (req : Req) (t : Nat) (v : Word) : Nat × State :=
  if !isHostOrEngine req then r103 s
  else reached req (aTileSemadd t) (fun s =>
    let c := tokenFault s t (fld v 19 16) (fld v 7 0)
    (if isHost req ∨ c = 0x1042 then c else 0, token s t (fld v 19 16) (fld v 7 0))) s

/-! ### The commands of chapter 03 that need no bundle -/

/-- A write to a tile's register, as a command: a stopped cluster's gate holds it until the clock runs (R95). -/
def tileWritten (s : State) (req : Req) (a : Nat) (v : Word) (k : State → Nat × State) : Host.Outcome State Fault Refusal :=
  if heldBack s (memSpan a 8) ∧ !barred s req a then .next (holdWork s (memSpan a 8) (.write req a v)) else answered (k s)

/-- A push and what it answers: its status, and error too where that is FENCED (Table 3.3); the host's pushes fail with
    0x9_005 in RECOVERY (R454). -/
def pushed (s : State) (req : Req) (f : State → Nat × State) : Host.Outcome State Fault Refusal :=
  if barred s req (aTileGrp 0) then answered (refuse s unitSecurity 0x9005)
  else .next (replied (f s).2 (f s).1 (if (f s).1 = 6 then [0x10, 0x30] else []))

/-- A push by anyone whom R75 does not name completes with error 0x2_0F0. -/
def notPushed (s : State) : Host.Outcome State Fault Refusal :=
  answered (refuse s unitFirmware 0x20F0)

/-- LAUNCH_PUSH. -/
def execLaunchPush (t : TileId) (e : BitVec 2) (w0 w1 w2 w3 : Word) (req : Req) (s : State) :
    Host.Outcome State Fault Refusal :=
  if mayPush req then pushed s req (fun s => tilePush s t.toNat e.toNat w0 w1 w2 w3) else notPushed s

/-- GROUP_PUSH. -/
def execGroupPush (g : BitVec 6) (e : BitVec 2) (w0 w1 w2 w3 : Word) (req : Req) (s : State) :
    Host.Outcome State Fault Refusal :=
  if mayPush req then pushed s req (fun s => groupPush s g.toNat e.toNat w0 w1 w2 w3) else notPushed s

/-- ENTRY_START. -/
def execEntryStart (a : At) (s : State) : Host.Outcome State Fault Refusal := .next (startEntry s a)

/-- TOKEN_ARRIVAL. -/
def execTokenArrival (t : TileId) (sem : BitVec 4) (n : BitVec 8) (s : State) : Host.Outcome State Fault Refusal :=
  .next (token s t.toNat sem.toNat n.toNat)

/-- TILE_SEMADD_WRITE. -/
def execTileSemaddWrite (req : Req) (t : TileId) (v : Word) (s : State) : Host.Outcome State Fault Refusal :=
  tileWritten s req (aTileSemadd t.toNat) v (fun s => wTileSemadd s req t.toNat v)

/-- TILE_SEM_WRITE. -/
def execTileSemWrite (req : Req) (t : TileId) (n : BitVec 4) (v : Word) (s : State) :
    Host.Outcome State Fault Refusal :=
  tileWritten s req (aTileSem t.toNat n.toNat) v (fun s => wTileSem s req t.toNat n.toNat v)

/-- ENGINE_ABORT: a write of ABORT bits. -/
def execEngineAbort (req : Req) (t : TileId) (mask : BitVec 4) (s : State) : Host.Outcome State Fault Refusal :=
  tileWritten s req (aTileCtrl t.toNat) (mask.setWidth 64) (fun s => wTileCtrl s req t.toNat (mask.setWidth 64))

/-- ENGINE_ABORT_COMPLETE: the last transfer of an aborting engine has completed (R98). -/
def execEngineAbortComplete (a : At) (s : State) : Host.Outcome State Fault Refusal :=
  let g := getEng s a
  if g.phase = .aborting ∧ g.xfers.isEmpty then
    .next (endReset (setEng s a { g with phase := .idle }) a.tile.toNat)
  else .next s

/-- TILE_GRP_WRITE. -/
def execTileGrpWrite (req : Req) (g : BitVec 6) (v : Word) (s : State) : Host.Outcome State Fault Refusal :=
  answered (hostOnly req unitFirmware 0x902B (aTileGrp g.toNat) (fun s => wTileGrp s g.toNat v) s)

/-- A tile may gate its clock (R94). -/
def mayGate (s : State) (t : Nat) : Bool := (getTile s t).idle && tileRuns s t && !(getTile s t).chatter

/-- TILE_CLOCK_GATE. -/
def execTileClockGate (t : TileId) (s : State) : Host.Outcome State Fault Refusal :=
  if mayGate s t.toNat then .next (setTile s t.toNat { getTile s t.toNat with gated := true }) else .next s

/-- TILE_ACTIVATION: Bellows admits a waiting activation, at most 16 in any 1 µs (R94, R427). -/
def execTileActivation (t : TileId) (s : State) : Host.Outcome State Fault Refusal :=
  if (getTile s t.toNat).waking ∧ (getCluster s (clusterOf t.toNat)).admits ∧ !s.thm.hold then .next (activate s t.toNat)
  else .next s

end Sys2Proof.Machine
end

