-- ==== Sys2Proof/Machine/Reed.lean ====
section
/-! DEFINITION. Reeds: rings, vector stores, matrix-vector commands, deliveries and tokens (chapter 08). -/

namespace Sys2Proof.Machine

def getReed (s : State) (n : Nat) : Reed := tget {} s.reed n
def setReed (s : State) (n : Nat) (r : Reed) : State := { s with reed := tset {} s.reed n r }

/-- The domain of a stack's Reeds (Table 15.1). -/
def reedDom (stack : Nat) : Nat := 12 * (stack / 2) + 8 + stack % 2

def reedOn (s : State) (n : Nat) : Bool := domOn s (reedDom (n / 32)) && !dieIsolated s (n / 64)

/-- REED_STATUS.STATE: 0 IDLE, 1 RUN, 2 PAUSED, 3 FAULTED, 4 ABORTING, 5 OUT. -/
def reedState (s : State) (n : Nat) : Nat := rf s (aReedStatus n) 63 60
def reedHead (s : State) (n : Nat) : Nat := rf s (aReedStatus n) 15 0
def reedTail (s : State) (n : Nat) : Nat := rf s (aReedTail n) 15 0
def reedLog (s : State) (n : Nat) : Nat := rf s (aReedRing n) 51 48
def setReedState (s : State) (n st : Nat) : State := rset s (aReedStatus n) 63 60 st

/-- HELD follows the result buffer. -/
def setHeld (s : State) (n : Nat) (h : Option RHold) : State :=
  rsetb (setReed s n { getReed s n with held := h }) (aReedStatus n) 19 h.isSome

/-- A running Reed goes IDLE once nothing is waiting, running or on its way. -/
def reedSettle (s : State) (n : Nat) : State :=
  let r := getReed s n
  if reedState s n = 1 ∧ r.blocks.isEmpty ∧ r.bad = none ∧ r.toks.isEmpty ∧ reedHead s n = reedTail s n then
    rset (setReedState s n 0) (aReedStatus n) 59 44 0
  else s

/-- An aborting Reed goes IDLE once its outstanding deliveries have finished (R238); one whose channel retrains reads PAUSED
    (R268). -/
def reedEndAbort (s : State) (n : Nat) : State :=
  if reedState s n = 4 ∧ (getReed s n).blocks.isEmpty then
    rset (rset (setReedState s n (if chState s n = 1 then 2 else 0)) (aReedStatus n) 43 28 0) (aReedStatus n) 59 44 0
  else s

/-- A fault of the Reed (R238): the faulting command delivers no further block. -/
def reedFault (s : State) (n code addr : Nat) : State :=
  let s := setHeld s n none
  let s := rset (setReedState s n 3) (aReedStatus n) 43 28 code
  report s (unitOfReed n) code
    { tag := rf s (aReedStatus n) 59 44, a0 := BitVec.ofNat 64 n, a1 := BitVec.ofNat 64 addr, failing := true }

/-! ### Registers (R225, R226) -/

/-- A register access that a Reed completes with error: its die is isolated or its domain off. -/
def reedRegCode (s : State) (req : Req) (n : Nat) : Option (Nat × State) :=
  if dieIsolated s (n / 64) then
    some (0x3010, reportLost s req (n / 64))
  else if !domOn s (reedDom (n / 32)) then some ((Config.openCode 425).toNat, s)
  else none

def reedRefuse (s : State) (n code a : Nat) : Nat × State :=
  (code, report s (unitOfReed n) code { a0 := BitVec.ofNat 64 n, a1 := BitVec.ofNat 64 a })

def wReedRing (s : State) (req : Req) (n : Nat) (v : Word) : Nat × State :=
  match reedRegCode s req n with
  | some r => r
  | none =>
    if reedState s n = 0 ∧ reedHead s n = reedTail s n ∧ 4 ≤ fld v 51 48 ∧ fld v 51 48 ≤ 12 then
      (0, typedWrite s (aReedRing n) v)
    else reedRefuse s n 0x2043 (aReedRing n)

/-- A write to REED_TAIL (R226). With LOG2SZ 0 there is no ring, and every write is refused: R226's two tests alone would let a
    difference of 1 pass, and the spec says no more (DESIGN CHOICE, log entry 147). -/
def wReedTail (s : State) (req : Req) (n : Nat) (v : Word) : Nat × State :=
  match reedRegCode s req n with
  | some r => r
  | none =>
    let new := fld v 15 0
    let size := 2 ^ reedLog s n
    let st := reedState s n
    if st = 5 then reedRefuse s n 0x2047 (aReedTail n)
    else if st = 3 ∨ st = 4 ∨ reedLog s n = 0 ∨ size < (new + 65536 - reedHead s n) % 65536 ∨
        size < (new + 65536 - reedTail s n) % 65536 then reedRefuse s n 0x2043 (aReedTail n)
    else
      let s := typedWrite s (aReedTail n) v
      (0, if st = 0 ∧ reedHead s n ≠ new then setReedState s n (if chState s n = 1 then 2 else 1) else s)

/-- REED_CTRL.ABORT (R238). A Reed that is OUT stays OUT. ABORTING lasts at least to the end of the reference cycle
    (DESIGN CHOICE, log entry 36). -/
def wReedCtrl (s : State) (req : Req) (n : Nat) (v : Word) : Nat × State :=
  match reedRegCode s req n with
  | some r => r
  | none =>
    if !bit v 0 ∨ reedState s n = 5 then (0, s)
    else
      let s := setReed s n { getReed s n with toks := [], bad := none }
      let s := setHeld s n none
      let s := rset s (aReedStatus n) 15 0 (reedTail s n)
      (0, setReedState s n 4)

/-- W1C of REED_STATUS. -/
def wReedStatus (s : State) (req : Req) (n : Nat) (v : Word) : Nat × State :=
  match reedRegCode s req n with
  | some r => r
  | none => (0, typedWrite s (aReedStatus n) v)

/-! ### Commands (R227, R228) -/

/-- The four words of an entry. -/
structure RCmd where
  w0 : Word
  w1 : Word
  w2 : Word
  w3 : Word
  deriving DecidableEq, Repr

/-- A command may start: the Reed runs, an entry waits, and no failed read is still to be reported. -/
def reedReady (s : State) (n : Nat) : Bool :=
  reedOn s n && reedState s n = 1 && reedHead s n ≠ reedTail s n && (getReed s n).bad.isNone

def reedEntryAddr (s : State) (n : Nat) : Nat :=
  rf s (aReedRing n) 47 6 * 64 + reedHead s n % 2 ^ reedLog s n * 32

/-- HEAD passes the entry and RUN_TAG takes its TAG. -/
def reedTake (s : State) (n tag : Nat) : State :=
  let s := rset s (aReedStatus n) 15 0 ((reedHead s n + 1) % 65536)
  rset s (aReedStatus n) 59 44 tag

/-- Bits of W0 that every command reserves. -/
def reedW0Bad (w : Word) : Bool := fld w 59 48 ≠ 0 || fld w 22 16 ≠ 0

/-- The HBM that a VLOAD reads. -/
def RCmd.spans (k : RCmd) : List (Nat × Nat) :=
  if fld k.w0 63 60 = 1 then memSpan (fld k.w1 47 0) (fld k.w2 49 32) else []

/-- Starts the entry at HEAD where it holds operation `op`, and where no channel that it reads by retrains (Table 8.5): an entry
    with a reserved operation, or one that cannot be read, faults whichever is asked for; one that holds another operation leaves
    the Reed as it is. (DESIGN CHOICE, log entry 30.) -/
def reedStart (s : State) (n op : Nat) (f : State → RCmd → State) : State :=
  if !reedReady s n then s
  else if heldBack s (memSpan (reedEntryAddr s n) 32) then callTiles s (memSpan (reedEntryAddr s n) 32)
  else
    let a := reedEntryAddr s n
    let (bs, c, s') := memRead s (.reed (BitVec.ofNat 9 n)) a 32
    if c ≠ 0 then reedFault (reedTake s' n 0) n (Config.openCode 227).toNat a
    else
      let k : RCmd := ⟨wordAt bs 0, wordAt bs 8, wordAt bs 16, wordAt bs 24⟩
      let o := fld k.w0 63 60
      if o ≠ 1 ∧ o ≠ 2 ∧ o ≠ 3 then reedFault (reedTake s' n (fld k.w0 15 0)) n 0x2040 a
      else if o ≠ op then s
      else if heldBack s k.spans then callTiles s k.spans
      else f (reedTake s' n (fld k.w0 15 0)) k

/-- The command's token waits for `blocks` deliveries. -/
def reedOwe (s : State) (n blocks : Nat) (w0 : Word) : State :=
  let r := getReed s n
  setReed s n { r with toks := r.toks ++ [⟨blocks, fld w0 47 35, fld w0 34 31, fld w0 30 23, fld w0 15 0⟩] }

/-- Reports the lowest of a list of codes. -/
def lowest : List Nat → Nat
  | [] => 0
  | c :: cs => if cs = [] then c else min c (lowest cs)

def codeIf (b : Bool) (c : Nat) : List Nat := if b then [c] else []

def vectorStore : Nat := 131072

/-- A range lies wholly in HBM or in one tile store (R231). -/
def inMemOrStore (a len : Nat) : Bool :=
  decide (a + len ≤ hbmBytes) ||
  (decide (storeBase ≤ a) && decide (a + len ≤ storeEnd) &&
    decide ((a - storeBase) / 0x40000 = (a + (len - 1) - storeBase) / 0x40000))

/-- VLOAD (Table 8.2). A LEN above 131,072 is taken as a range outside the store, 0x2_042, and a DOFF that is no multiple of 64
    as a reserved field value, 0x2_040: Table 8.10 names no code for either (DESIGN CHOICE, log entry 148). -/
def reedVload (n : Nat) (s : State) (k : RCmd) : State :=
  let src := fld k.w1 47 0
  let len := fld k.w2 49 32
  let doff := fld k.w2 16 0
  let codes :=
    codeIf (reedW0Bad k.w0 || fld k.w1 63 48 ≠ 0 || fld k.w2 63 50 ≠ 0 || fld k.w2 31 17 ≠ 0 || k.w3 ≠ 0 ||
      doff % 64 ≠ 0) 0x2040 ++
    codeIf (decide (vectorStore < doff + len) || (len ≠ 0 && !inMemOrStore src len)) 0x2042
  if codes ≠ [] then reedFault s n (lowest codes) src
  else if len = 0 then reedOwe s n 0 k.w0
  else
    let (bs, c, s) := memRead s (.reed (BitVec.ofNat 9 n)) src len
    if c ≠ 0 then reedFault s n 0x2046 src
    else
      let r := getReed s n
      reedOwe (setReed s n { r with store := wrBytes r.store doff bs }) n 0 k.w0

/-! ### MV (Table 8.3, R229 to R236) -/

def roundUp64 (n : Nat) : Nat := (n + 63) / 64 * 64

/-- Bytes of a row's elements, padded. -/
def rowElemBytes (wf k : Nat) : Nat := roundUp64 ((k * elemBits wf + 7) / 8)

/-- R229. -/
def rowBytes (wf k : Nat) : Nat := rowElemBytes wf k + (if isMX wf then roundUp64 (k / 32) else 0)

def wfmtOk (c : Nat) : Bool := c ≤ 6 || (9 ≤ c && c ≤ 14)
def xfmtOk (c : Nat) : Bool := c = 0 || c = 1 || c = 5 || c = 7 || c = 8

/-- Table 8.4. -/
def anchorPart : Nat → Int
  | 0 => -9 | 1 => -16 | 2 => -3 | 3 => -4 | 4 => -1 | _ => 0

/-- The anchor of an MV (R232). -/
def mvAnchor (wf xf field : Nat) : Int :=
  if wf ≤ 6 ∧ (xf = 0 ∨ xf = 1 ∨ xf = 5) then anchorPart wf + anchorPart xf else sext 9 field

/-- Every granule of a row lies in a channel-affine region on channel `n` (R230). -/
def rowOnChannel (s : State) (n a len : Nat) : Bool :=
  (List.range (len / 64)).all (fun i =>
    match place s (a + 64 * i) with
    | some (g, p) => rgnAffine s g && p.chan = n
    | none => false)

/-- The values of a weight row: its elements times their block scales. -/
def weightRow (wf k : Nat) (bs : List Byte) : List FNum :=
  let raw := leNat bs
  let eb := rowElemBytes wf k
  (List.range k).map (fun i =>
    let v := decodeElem wf (packedAt raw (elemBits wf) i)
    if isMX wf then fmul v (e8m0 (raw / 2 ^ (8 * (eb + i / 32)) % 256)) else v)

/-- The finite contributions that one sign allows, added. -/
def finSum (neg : Bool) (cs : List VClass) : Int :=
  cs.foldl (fun m c => match c with
    | .fin w => if decide (w < 0) = neg then m + w else m
    | _ => m) 0

/-- The partial sums from `x` leave the finite range upward (`neg` false) or downward in some order. -/
def mayPass (neg : Bool) (x : VClass) (cs : List VClass) : Bool :=
  match x with
  | .fin w => if neg then decide (w + finSum true cs < -vlMax) else decide (vlMax < w + finSum false cs)
  | _ => false

/-- Every result that some order of the additions of Table 5.5 gives, from `x` on: one only where no order shows (R156). -/
def sumResults (x : VClass) (cs : List VClass) : List VClass :=
  let l := x :: cs
  let up := mayPass false x cs
  let down := mayPass true x cs
  let has (c : VClass) : Bool := l.contains c
  let satUp := has (.sat false)
  let satDown := has (.sat true)
  let inf (neg : Bool) : List VClass :=
    match x with
    | .inf _ => [.inf neg]
    | _ => if (satUp && (satDown || down)) || (satDown && up) then [.inf neg, .nan] else [.inf neg]
  if has .nan || (has (.inf false) && has (.inf true)) then [.nan]
  else if has (.inf false) then inf false
  else if has (.inf true) then inf true
  else if satUp && satDown then [.nan]
  else if satUp then .sat false :: (if down then [.nan] else [])
  else if satDown then .sat true :: (if up then [.nan] else [])
  else
    let whole :=
      match x with
      | .fin w => w + finSum false cs + finSum true cs
      | _ => 0
    (if decide (vlMax < whole ∨ whole < -vlMax) then [] else [.fin whole]) ++
    (if up then [.sat false] else []) ++ (if down then [.sat true] else [])

/-- The one of a list that a free value picks. -/
def picked (w : Nat) : List VClass → VClass
  | [c] => c
  | l => l.getD (w / 4 % l.length) .nan

/-- A result that a saturated or infinite sum may have met on its way. -/
def VClass.hides : VClass → Bool
  | .nan => true
  | .inf _ => true
  | _ => false

/-- A sum of contributions from `start` by Table 5.5, with its flags. Where the order of the additions shows (R156) the
    spec names none: a free value picks among the results that the orders give, and says whether a sum that ends in NaN
    or infinity saturated on its way (DESIGN CHOICE, log entry 31). `d` numbers the draw. -/
def reedSum (d : Nat) (start : BitVec 128) (cs : List VClass) : BitVec 128 × Flg :=
  let x := vclass start
  let w := (Config.freeWord d).toNat
  let r := picked w (sumResults x cs)
  let pass := mayPass false x cs || mayPass true x cs
  (vword r, ((Flg.all (cs.map vflags)).or (if cs = [] then {} else vflags r)).or
    { ovf := r.hides && pass && w.testBit 0 })

/-- Rows read so far: their values, or the address of the row that failed. -/
def readWeights (wf k rstr : Nat) : Nat → State → Nat → List (List FNum) × Option Nat × State
  | 0, s, _ => ([], none, s)
  | m + 1, s, a =>
    if k = 0 then
      let (rows, bad, s) := readWeights wf k rstr m s (a + rstr * 64)
      ([] :: rows, bad, s)
    else
      let (bs, c, s) := hbmRead s a (rowBytes wf k) false 1
      if c ≠ 0 then ([], some a, s)
      else
        let (rows, bad, s) := readWeights wf k rstr m s (a + rstr * 64)
        (weightRow wf k bs :: rows, bad, s)

/-- A block of 1 KiB: element (v, j) is row 8b + j of vector v; rows and vectors beyond the command's are 0 (R233). -/
def blockBytes (nv rows b : Nat) (word : Nat → Nat → BitVec 128) : List Byte :=
  (List.range 64).flatMap (fun e =>
    let v := e / 8
    let r := 8 * b + e % 8
    natLE 16 (if v < nv ∧ r < rows then (word r v).toNat else 0))

/-- MV. A WADDR that is no multiple of 64 and a K above 16,384 are taken as reserved field values, 0x2_040: Table 8.10 names no
    code for them (DESIGN CHOICE, log entry 148). (DEDUCED, log entry 50.) -/
def reedMv (n : Nat) (s : State) (k : RCmd) : State :=
  let rows := fld k.w1 63 48
  let waddr := fld k.w1 47 0
  let wf := fld k.w2 63 60
  let xf := fld k.w2 59 56
  let nv := fld k.w2 55 53 + 1
  let accm := fld k.w2 52 51
  let kk := fld k.w2 39 25
  let rstr := fld k.w2 15 0
  let dtile := fld k.w3 63 51
  let doff := fld k.w3 50 39
  let vbase := fld k.w3 38 28
  let vstr := fld k.w3 27 17
  let anchor := mvAnchor wf xf (fld k.w2 48 40)
  let rb := rowBytes wf kk
  let vb := (kk * elemBits xf + 7) / 8
  let deliver := accm = 0 ∨ accm = 3
  let add := accm = 2 ∨ accm = 3
  let r := getReed s n
  let heldOk :=
    match r.held with
    | some h => h.rows = rows && h.nv = nv && h.anchor = anchor
    | none => false
  let codes :=
    codeIf (reedW0Bad k.w0 || fld k.w2 50 49 ≠ 0 || fld k.w2 24 16 ≠ 0 || fld k.w3 16 0 ≠ 0 || !wfmtOk wf ||
      !xfmtOk xf || decide (16384 < kk) || waddr % 64 ≠ 0 || (isMX wf && kk % 32 ≠ 0) ||
      decide (rstr * 64 < rb)) 0x2040 ++
    codeIf (kk ≠ 0 && !((List.range rows).all (fun i => rowOnChannel s n (waddr + i * rstr * 64) rb))) 0x2041 ++
    codeIf (rows ≠ 0 && kk ≠ 0 && (List.range nv).any (fun v => decide (vectorStore < (vbase + v * vstr) * 64 + vb)))
      0x2042 ++
    codeIf ((!deliver && decide (128 < rows)) || (add && !heldOk)) 0x2044 ++
    codeIf (deliver && decide (0x40000 < doff * 64 + (rows + 7) / 8 * 1024)) 0x2045
  if codes ≠ [] then reedFault s n (lowest codes) waddr
  else
    let vecs := (List.range nv).map (fun v => valuesOf xf kk (rdBytes r.store ((vbase + v * vstr) * 64) vb))
    let (ws, bad, s) := readWeights wf kk rstr rows s waddr
    let start (i v : Nat) : BitVec 128 :=
      match r.held with
      | some h => if add then h.words.getD (i * nv + v) 0 else 0
      | none => 0
    let cells := (List.range ws.length).flatMap (fun i => (List.range nv).map (fun v =>
      reedSum (s.free + i * nv + v) (start i v) ((zipMul (ws.getD i []) (vecs.getD v [])).map (vcontrib anchor))))
    let s := drawn s (2 * rows * nv)
    let f := Flg.all (cells.map Prod.snd)
    let s := rorb s (aReedStatus n) (BitVec.ofNat 64 (flagBit f.inf 16 + flagBit f.nan 17 + flagBit f.ovf 18))
    let words := cells.map Prod.fst
    let word (i v : Nat) : BitVec 128 := words.getD (i * nv + v) 0
    let base := storeBase + dtile * 0x40000 + doff * 64
    let nblk := if bad.isSome then ws.length / 8 else (rows + 7) / 8
    let blocks := (List.range nblk).map (fun b => RBlock.mk (base + b * 1024) (blockBytes nv rows b word))
    let r := getReed s n
    match bad with
    | some a => setReed s n { r with blocks := r.blocks ++ (if deliver then blocks else []), bad := some a }
    | none =>
      if deliver then
        reedOwe (setReed (setHeld s n none) n { r with blocks := r.blocks ++ blocks, held := none }) n nblk k.w0
      else reedOwe (setHeld s n (some ⟨rows, nv, anchor, words⟩)) n 0 k.w0

/-- SIGNAL: only a token. -/
def reedSig (n : Nat) (s : State) (k : RCmd) : State :=
  if reedW0Bad k.w0 then reedFault s n 0x2040 (reedEntryAddr s n) else reedOwe s n 0 k.w0

/-- One delivery less for the oldest command that still owes one. -/
def tokLess : List RTok → List RTok
  | [] => []
  | t :: ts => if t.left = 0 then t :: tokLess ts else { t with left := t.left - 1 } :: ts

/-- The commands before the oldest one that still owes a delivery. -/
def tokBefore : List RTok → List RTok
  | [] => []
  | t :: ts => if t.left = 0 then t :: tokBefore ts else []

/-- TAG of the oldest command that still owes a delivery; of the running one where none does. -/
def tokTag (run : Nat) : List RTok → Nat
  | [] => run
  | t :: ts => if t.left = 0 then tokTag run ts else t.tag

/-- Delivers the oldest block; where the blocks before a failed row have all been delivered, the Reed faults.
    (DEDUCED, log entry 63.) -/
def reedDeliver (s : State) (n : Nat) : State :=
  if !reedOn s n then s
  else
    let r := getReed s n
    match r.blocks with
    | b :: bs =>
      if heldBack s (memSpan b.addr b.data.length) then callTiles s (memSpan b.addr b.data.length)
      else
      let (c, s) := memWrite s (.reed (BitVec.ofNat 9 n)) b.addr b.data
      let r := getReed s n
      if c ≠ 0 ∧ reedState s n ≠ 4 ∧ reedState s n ≠ 5 then
        let s := rset s (aReedStatus n) 59 44 (tokTag (rf s (aReedStatus n) 59 44) r.toks)
        reedFault (setReed s n { r with blocks := [], toks := tokBefore r.toks, bad := none }) n 0x2045 b.addr
      else reedSettle (setReed s n { r with blocks := bs, toks := tokLess r.toks }) n
    | [] =>
      match r.bad with
      | some a => reedFault (setReed s n { r with bad := none }) n 0x2048 a
      | none => s

/-- Fires the oldest command's token once its blocks are delivered (R228). -/
def reedFire (s : State) (n : Nat) : State :=
  if !reedOn s n then s
  else
    let r := getReed s n
    match r.toks with
    | t :: ts =>
      if t.left ≠ 0 then s
      else reedSettle (token (setReed s n { r with toks := ts }) t.tile t.sem t.n) n
    | [] => s

/-! ### Outside conditions (Table 8.5) -/

/-- The Reed's channel starts retraining: STATE reads PAUSED, with or without a command (R268). -/
def reedPause (s : State) (n : Nat) : State := if reedState s n ≤ 1 then setReedState s n 2 else s

/-- The Reed's channel is back. -/
def reedResume (s : State) (n : Nat) : State := if reedState s n = 2 then reedSettle (setReedState s n 1) n else s

/-- The Reed's channel is excluded: commands discarded as by abort, without tokens, and STATE OUT; outstanding
    deliveries finish. -/
def reedOut (s : State) (n : Nat) : State :=
  let s := setReed s n { getReed s n with toks := [], bad := none }
  let s := setHeld s n none
  let s := rset s (aReedStatus n) 15 0 (reedTail s n)
  setReedState s n 5

def isReedKind : Kind → Bool
  | .reedRing => true
  | .reedTail => true
  | .reedStatus => true
  | .reedCtrl => true
  | _ => false

/-- Loses every Reed that `p` picks, with its ring registers and vector store (R231, R425). One that is OUT stays OUT
    until a module reset (Table 8.5). -/
def clearReeds (s : State) (p : Nat → Bool) : State :=
  let outs := (List.range 512).filter (fun n => p n && reedState s n = 5)
  let s := resetRegs { s with reed := tkeep (fun n => !p n) s.reed } (fun r => isReedKind r.kind && p r.i) codeD
  outs.foldl (fun s n => setReedState s n 5) s

/-! ### The commands -/

/-- REED_RING_WRITE. -/
def execReedRingWrite (req : Req) (n : BitVec 9) (v : Word) (s : State) : Host.Outcome State Fault Refusal :=
  answered (reached req (aReedRing n.toNat) (fun s => wReedRing s req n.toNat v) s)

/-- REED_TAIL_WRITE. -/
def execReedTailWrite (req : Req) (n : BitVec 9) (v : Word) (s : State) : Host.Outcome State Fault Refusal :=
  answered (reached req (aReedTail n.toNat) (fun s => wReedTail s req n.toNat v) s)

/-- REED_ABORT. -/
def execReedAbort (req : Req) (n : BitVec 9) (s : State) : Host.Outcome State Fault Refusal :=
  answered (reached req (aReedCtrl n.toNat) (fun s => wReedCtrl s req n.toNat 1) s)

/-- VLOAD. -/
def execVload (n : BitVec 9) (s : State) : Host.Outcome State Fault Refusal :=
  .next (reedStart s n.toNat 1 (reedVload n.toNat))

/-- MV. -/
def execMv (n : BitVec 9) (s : State) : Host.Outcome State Fault Refusal :=
  .next (reedStart s n.toNat 2 (reedMv n.toNat))

/-- REED_SIGNAL. -/
def execReedSignal (n : BitVec 9) (s : State) : Host.Outcome State Fault Refusal :=
  .next (reedStart s n.toNat 3 (reedSig n.toNat))

/-- REED_BLOCK_DELIVERY. -/
def execReedBlockDelivery (n : BitVec 9) (s : State) : Host.Outcome State Fault Refusal :=
  .next (reedDeliver s n.toNat)

/-- REED_TOKEN. -/
def execReedToken (n : BitVec 9) (s : State) : Host.Outcome State Fault Refusal := .next (reedFire s n.toNat)

end Sys2Proof.Machine
end

