-- ==== Sys2Proof/Machine/HbmCtl.lean ====
section
/-! DEFINITION. The memory registers and events of chapter 09: regions, exclusion, policies, retraining, flush, the
arbiter, and the HBM requests as commands. -/

namespace Sys2Proof.Machine

/-! ### The region map (R246, R247) -/

def isClosing (s : State) (n : Nat) : Bool := s.closing.any (fun c => c.1 = n)

/-- A region counts as enabled for the overlap checks. -/
def rgnLive (s : State) (n : Nat) : Bool := rgnEn s n || isClosing s n

/-- A CTRL word places data on a stack. -/
def ctrlUsesStack (w : Word) (stk : Nat) : Bool :=
  !bit w 62 || (decide (fld w 47 44 ≤ stk) && decide (stk < fld w 47 44 + fld w 52 48))

/-- Channels in service of an AFFINE word's stacks. -/
def ctrlNch (s : State) (w : Word) : Nat := (affineList s (fld w 47 44) (fld w 52 48)).length

/-- Bytes of each pseudo-channel of a stack that a region takes (R246). -/
def rgnDevLen (s : State) (w : Word) (size stk : Nat) : Nat :=
  if bit w 62 then 256 * ((size + ctrlNch s w * 512 - 1) / (ctrlNch s w * 512))
  else 256 * ((size + 8192 * inService s stk - 1) / (8192 * inService s stk))

/-- Two half-open ranges share a byte. -/
def rangesMeet (a la b lb : Nat) : Bool := decide (a < b + lb) && decide (b < a + la)

/-- The device ranges of a CTRL word for region `n` and of another region meet on some stack, or the former ends beyond
    the pseudo-channel. Every channel in service of a stack has the same range. -/
def devBad (s : State) (n : Nat) (w : Word) : Bool :=
  (List.range 16).any (fun stk =>
    ctrlUsesStack w stk &&
    (let a := rgnDbase s n * 256
     let la := rgnDevLen s w (rgnSize s n) stk
     decide (pcBytes < a + la) ||
     (List.range 16).any (fun m =>
       m ≠ n && rgnLive s m && ctrlUsesStack (regGet s (aHbmRgnCtrl m)) stk &&
       rangesMeet a la (rgnDbase s m * 256) (rgnDevLen s (regGet s (aHbmRgnCtrl m)) (rgnSize s m) stk))))

/-- A write that sets EN is refused (R246). -/
def rgnEnableBad (s : State) (n : Nat) (v : Word) : Bool :=
  let size := rgnSize s n
  let base := rgnBase s n
  let blk := fld v 23 0 * 64
  rgnEn s n || fld v 60 59 = 3 || size = 0 || decide (hbmBytes < base + size) ||
  (if bit v 62 then
     blk = 0 || decide (16 < fld v 47 44 + fld v 52 48) || fld v 52 48 = 0 ||
     size % (blk * ctrlNch s v) ≠ 0
   else size % 0x40000 ≠ 0) ||
  (List.range 16).any (fun m => m ≠ n && rgnLive s m && rangesMeet base size (rgnBase s m) (rgnSize s m)) ||
  devBad s n v

def rgnRefused (s : State) : Nat × State := refused s unitFirmware 0x2051

/-- A write to HBM_RGNn_CTRL. -/
def wRgnCtrl (s : State) (n : Nat) (v : Word) : Nat × State :=
  if isClosing s n then rgnRefused s
  else if bit v 63 then
    if rgnEnableBad s n v then rgnRefused s else (0, typedWrite s (aHbmRgnCtrl n) v)
  else if rgnEn s n then
    (0, { rsetb s (aHbmRgnCtrl n) 63 false with closing := s.closing ++ [(n, v)] })
  else (0, typedWrite s (aHbmRgnCtrl n) v)

/-- A write to HBM_RGNn_BASE, _SIZE or _DEV at `a`. -/
def wRgnWord (s : State) (n a : Nat) (v : Word) : Nat × State :=
  if rgnLive s n then rgnRefused s else (0, typedWrite s a v)

/-- Granule `g` lies in region `n`. -/
def inRgn (s : State) (n g : Nat) : Bool :=
  decide (rgnBase s n ≤ g * 64) && decide (g * 64 < rgnBase s n + rgnSize s n)

/-- Writes back and drops the lines of a region in one die's cache. -/
def dropRgnLines (s : State) (n d : Nat) : State :=
  let ls := linesOf s d
  let s := (ls.filter (fun l => inRgn s n l.gran && l.dirty)).foldl writeBack s
  setLines s d (ls.filter (fun l => !inRgn s n l.gran))

/-- Drains the entries of a region. -/
def drainRgn (s : State) (n : Nat) : State :=
  s.chan.foldl (fun s c => (c.2.wc.filter (fun e => inRgn s n e.gran)).foldl (fun s e => drainEntry s c.1 e) s) s

/-- A channel of the region retrains. -/
def rgnRetrains (s : State) (n : Nat) : Bool :=
  (List.range 512).any (fun c => ctrlUsesStack (regGet s (aHbmRgnCtrl n)) (c / 32) && chState s c = 1)

/-- Held work has still to read or write the region. -/
def rgnWanted (s : State) (n : Nat) : Bool :=
  s.waits.any (fun w => w.spans.any (fun x => rangesMeet x.1 x.2 (rgnBase s n) (rgnSize s n)))

/-- REGION_CLOSE_COMPLETE (R247): the clearing write then completes. -/
def closeRgn (s : State) (n : Nat) : State :=
  match s.closing.find? (fun c => c.1 = n) with
  | none => s
  | some (_, v) =>
    if rgnRetrains s n ∨ rgnWanted s n then s
    else
      let s := drainRgn s n
      let s := (List.range 8).foldl (fun s d => dropRgnLines s n d) s
      typedWrite { s with closing := s.closing.filter (fun c => c.1 ≠ n) } (aHbmRgnCtrl n) v

/-! ### Requests (R264, R267 to R269) -/

/-- Event of a channel. -/
def chanEvent (s : State) (c code : Nat) (a2 : Word := 0) : State :=
  report s (unitOfChan c) code { a0 := BitVec.ofNat 64 c, a2 := a2 }

/-- A trigger of a retraining; ignored while the channel retrains, trains or is EXCLUDED (Table 9.7). -/
def wantRetrain (s : State) (c : Nat) (down : Bool) : State :=
  if chState s c = 0 ∨ (down ∧ chState s c = 2) then setChan s c { getChan s c with wait := true } else s

/-- A correctable error on a channel (R267). -/
def correctable (s : State) (c : Nat) : State :=
  let s := rcount s (aHbmChStatus c) 31 16 1
  let n := (getChan s c).ceWin + 1
  let s := setChan s c { getChan s c with ceWin := n }
  if rf s (aHbmChCtrl c) 23 8 = n then wantRetrain (chanEvent s c 0x2060) c false else s

/-- Puts a key into a rising list. -/
def insertKey (k : Nat) : List Nat → List Nat
  | [] => [k]
  | x :: xs => if k < x then k :: x :: xs else if k = x then x :: xs else x :: insertKey k xs

/-- Marks the granules read from the device as bad (an uncorrectable error meets them). -/
def markBad (s : State) (g : Nat) (alloc : Bool) : Nat → State
  | 0 => s
  | n + 1 =>
    let s := match place s (g * 64) with
      | some (_, p) =>
        if (servingLine s (homeDie p.chan) g alloc).isSome ∨ s.bad.contains p.key then s
        else { s with bad := insertKey p.key s.bad }
      | none => s
    markBad s (g + 1) alloc n

/-- HBM accesses of a Reed are its weight reads, which allocate nothing (R250). -/
def reqAllocs : Req → Bool
  | .reed _ => false
  | _ => true

/-- The first granule of a read takes its bytes from the device, where their code is read. -/
def readsDevice (s : State) (a : Nat) (alloc : Bool) : Option Spot :=
  match place s a with
  | some (_, p) =>
    if (servingLine s (homeDie p.chan) (a / 64) alloc).isNone ∧ chanCode s p.chan = 0 then some p else none
  | none => none

/-- Performs a request: a read or a write, with its reply. `ecc` 1 is a corrected error on the first granule's channel,
    2 an uncorrectable one (R267). -/
def doRequest (s : State) (r : HbmReq) : State :=
  let a := r.addr
  let alloc := reqAllocs r.req
  let failed (s : State) (c n : Nat) : State := replied (reportAccess s r.req c (failAddr s a n c)) c []
  if hbmBytes < a + r.len then failed s 0x2001 0
  else
    match r.data with
    | some bs =>
      let (c, s) := hbmWrite s a bs 3
      if c ≠ 0 then failed s c bs.length else replied s 0 []
    | none =>
      let s := if r.ecc = 2 then markBad s (a / 64) alloc (granCount a r.len) else s
      let s :=
        match readsDevice s a alloc with
        | some p => if r.ecc = 1 ∧ r.len ≠ 0 then correctable s p.chan else s
        | none => s
      let (bs, c, s) := hbmRead s a r.len alloc (readClass r.req) (!isRemote r.req)
      if c ≠ 0 then failed s c r.len else replied s 0 bs

/-- A request arrives: RECOVERY may refuse it (R454); it waits for a channel that retrains, and is performed otherwise
    (R264, R268). (DESIGN CHOICE, log entry 15.) -/
def takeRequest (s : State) (r : HbmReq) : State :=
  let xs := memSpan r.addr r.len
  if barred s r.req r.addr then
    let (c, s) := refuse s unitSecurity 0x9005
    replied s c []
  else if heldBack s xs then holdWork s xs (.access r) else doRequest s r

/-- A record arrives from one whom R255 names. -/
def takeRecord (s : State) (req : Req) (w0 w1 w2 w3 : Word) : State :=
  let xs := recordSpans (wordLE w0 ++ wordLE w1 ++ wordLE w2 ++ wordLE w3)
  if heldBack s xs then holdWork s xs (.record req w0 w1 w2 w3)
  else
    let (c, s) := ownRecord s req w0 w1 w2 w3
    replied s c []

/-- Work accepted before the close of its region meets the region as it was (R247): `k` runs with EN of the closing regions
    still set. -/
def beforeClose (s : State) (k : State → State) : State :=
  let ns := s.closing.map (·.1)
  let s := ns.foldl (fun s n => rsetb s (aHbmRgnCtrl n) 63 true) s
  ns.foldl (fun s n => rsetb s (aHbmRgnCtrl n) 63 false) (k s)

/-- Ends what a channel's arbiters still hold: its queued requests complete with error (R269, R271). -/
def dropQueues (s : State) (c : Nat) : State :=
  [2 * c, 2 * c + 1].foldl (fun s p => setArb s p { getArb s p with q := [], cur := none }) s

/-! ### Exclusion (R271) -/

/-- A write to HBM_EXCL. A region whose close is in progress still places data on its stacks, so no request waits for a
    channel that is excluded (DEDUCED, log entry 146). -/
def wHbmExcl (s : State) (stk : Nat) (v : Word) : Nat × State :=
  let has := rbit s (aHbmExcl stk) 5
  let used := (List.range 16).any (fun n => rgnLive s n && ctrlUsesStack (regGet s (aHbmRgnCtrl n)) stk)
  if has ∨ (bit v 5 ∧ used) then refused s unitFirmware 0x2054 (BitVec.ofNat 64 (stk * 32 + fld v 4 0))
  else
    let s := typedWrite s (aHbmExcl stk) v
    if !bit v 5 then (0, s)
    else
      let c := stk * 32 + fld v 4 0
      let s := rset s (aHbmChStatus c) 63 60 3
      let s := setChan s c { getChan s c with wait := false }
      let s := reedOut s c
      let s := rset s aHbmCap 19 0 (rf s aHbmCap 19 0 - 1152)
      (0, dropQueues (chanEvent s c 0x2066) c)

/-! ### Channels (R265 to R269) -/

/-- Channels of a stack in HOT-REFRESH, but for `c`. -/
def hotOthers (s : State) (c : Nat) : Nat :=
  ((List.range 32).filter (fun k => c / 32 * 32 + k ≠ c && rbit s (aHbmChCtrl (c / 32 * 32 + k)) 1)).length

/-- A write to HBM_CHn_CTRL. -/
def wChCtrl (s : State) (c : Nat) (v : Word) : Nat × State :=
  if bit v 1 ∧ 4 ≤ hotOthers s c then refused s unitFirmware 0x2055 (BitVec.ofNat 64 c)
  else
    let s := typedWrite s (aHbmChCtrl c) v
    (0, if bit v 2 then wantRetrain s c true else s)

/-- Thresholds of Table 9.6 that a reading exceeds. -/
def stepsAbove (t : Int) : Nat := if 95 < t then 3 else if 90 < t then 2 else if 85 < t then 1 else 0

def stepAt : Nat → Int
  | 1 => 85 | 2 => 90 | _ => 95

/-- Steps left by a reading 2 K below their threshold. -/
def stepDown (t : Int) : Nat → Nat
  | 0 => 0
  | n + 1 => if t ≤ stepAt (n + 1) - 2 then stepDown t n else n + 1

/-- The step after a reading (R265). -/
def nextStep (old : Nat) (t : Int) : Nat := if old < stepsAbove t then stepsAbove t else stepDown t old

/-- Refresh interval code of a step. -/
def refOf (step : Nat) : Nat := if step = 3 then 2 else if step = 0 then 0 else 1

/-- One channel meets its stack's reading (R265, R268). -/
def chanReading (s : State) (c : Nat) (t : Int) : State :=
  if dieIsolated s (homeDie c) then s
  else
  let s := rset s (aHbmChStatus c) 59 52 (low 8 t)
  if chState s c = 3 then s
  else
    let st := nextStep (getChan s c).step t
    let s := setChan s c { getChan s c with step := st }
    let thr := if rbit s (aHbmChCtrl c) 1 then 0 else st
    let changed := rf s (aHbmChStatus c) 51 50 ≠ thr ∨ rf s (aHbmChStatus c) 49 48 ≠ refOf st
    let s := rset (rset s (aHbmChStatus c) 51 50 thr) (aHbmChStatus c) 49 48 (refOf st)
    let s := if changed then chanEvent s c 0x2065 else s
    let moved := t - (getChan s c).trained
    if 20 ≤ moved ∨ moved ≤ -20 then wantRetrain s c false else s

/-- Another channel of the stack retrains. -/
def stackRetrains (s : State) (c : Nat) : Bool := (List.range 32).any (fun k => chState s (c / 32 * 32 + k) = 1)

/-- RETRAINING_START (R268). -/
def startRetrain (s : State) (c : Nat) : State :=
  if !(getChan s c).wait ∨ dieIsolated s (homeDie c) ∨ stackRetrains s c ∨ !(chState s c = 0 ∨ chState s c = 2) then s
  else
    let s := setChan s c { getChan s c with wait := false }
    let s := rset s (aHbmChStatus c) 63 60 1
    let s := rcount s (aHbmChStatus c) 47 32 1
    reedPause (chanEvent s c 0x2062) c

/-- The retraining of a channel ends: back in service, with the duration in µs. -/
def endRetrain (s : State) (c us : Nat) : State :=
  let s := rset s (aHbmChStatus c) 63 60 0
  let s := setChan s c { getChan s c with trained := sext 8 (rf s (aHbmChStatus c) 59 52) }
  reedResume (chanEvent s c 0x2063 (BitVec.ofNat 64 us)) c

/-- The retraining of a channel fails: the channel is DOWN (R269). -/
def failRetrain (s : State) (c : Nat) : State :=
  dropQueues (reedResume (chanEvent (rset s (aHbmChStatus c) 63 60 2) c 0x2064) c) c

/-! ### Flush (R251) -/

def wScCtrl (s : State) (d : Nat) (v : Word) : Nat × State :=
  (0, if bit v 0 then rsetb s (aHbmScStatus d) 63 true else s)

/-- Writes back every dirty line of a die and keeps it. -/
def flushDie (s : State) (d : Nat) : State :=
  let s := ((linesOf s d).filter (fun l => l.dirty)).foldl writeBack s
  setLines s d ((linesOf s d).map (fun l => { l with dirty := false }))

/-- A dirty line of a die waits to be written back by a channel that retrains (R268). -/
def flushHeld (s : State) (d : Nat) : Bool :=
  (linesOf s d).any (fun l => l.dirty && (match placeHeld s (l.gran * 64) with
    | some p => chanHolds s p.chan
    | none => false))

/-- Drains every write-combining entry of a die's channels. -/
def drainDie (s : State) (d : Nat) : State :=
  (List.range 64).foldl (fun s k => (getChan s (d * 64 + k)).wc.foldl (fun s e => drainEntry s (d * 64 + k) e) s) s

/-! ### The arbiter (R260 to R263) -/

/-- The head of a class that is ready. -/
def readyHead (a : Arb) (ready : Nat) (cls : Nat) : Option ArbReq :=
  if ready.testBit cls then (tget [] a.q cls).head? else none

/-- The class that wins among `cs`: highest priority, then most lost rounds, then class order. -/
def arbBest (a : Arb) (ready : Nat) : List Nat → Option (Nat × ArbReq)
  | [] => none
  | c :: cs =>
    match readyHead a ready c, arbBest a ready cs with
    | none, w => w
    | some r, none => some (c, r)
    | some r, some (d, x) =>
      if x.prio < r.prio ∨ (x.prio = r.prio ∧ x.lost ≤ r.lost) then some (c, r) else some (d, x)

/-- Ages the ready heads that lost; `win` is the winner's class, 9 where no class wins. -/
def arbAge (a : Arb) (ready win : Nat) : Arb :=
  let age (c : Nat) (l : List ArbReq) : List ArbReq :=
    if c = win ∨ !ready.testBit c then l
    else match l with
      | r :: rs => { r with prio := satAt 15 (r.prio + 1), lost := r.lost + 1 } :: rs
      | [] => []
  { a with q := tmap [] age a.q }

/-- The class whose grant is in progress: the request behind it heads no queue, since the bursts not yet served stay at the
    head (R262); 9 where there is none. -/
def grantClass (a : Arb) : Nat :=
  match a.cur with
  | some (c, _) => c
  | none => 9

/-- Puts the bursts that a grant still owes back at the head of its queue at priority 15 (R262). -/
def arbGiveBack (a : Arb) : Arb :=
  match a.cur with
  | none => a
  | some (c, r) => { a with q := tmod [] a.q c (fun l => { r with prio := 15 } :: l), cur := none }

/-- Ordinary grants leave a slot empty: of every 4, the last THR (R265). (DESIGN CHOICE, log entry 125.) -/
def throttled (a : Arb) : Bool := decide (4 ≤ a.slot + a.thr)

/-- Counts `n` burst slots. -/
def Arb.pass (a : Arb) (n : Nat) : Arb := { a with slot := (a.slot + n) % 4 }

/-- One slot of the grant in progress. -/
def arbServe (a : Arb) (c : Nat) (r : ArbReq) : Arb :=
  { a with cur := if r.bursts ≤ 1 then none else some (c, { r with bursts := r.bursts - 1 }) }

/-- One decision of the arbiter: at a burst boundary inside a grant only an emergency requester counts. `thr` is the
    channel's THR, which a grant in progress does not meet (Table 9.7); `stop` holds ordinary grants back while the
    channel retrains (R268). -/
def arbRound (a : Arb) (ready thr : Nat) (stop : Bool) : Arb :=
  let a := if a.cur.isNone then { a with thr := thr } else a
  if a.refresh ≠ 0 then
    ({ arbGiveBack (arbAge a ready (grantClass a)) with refresh := a.refresh - 1, grants := (5, 2) :: a.grants }).pass 2
  else if a.debug ≠ 0 then
    ({ arbGiveBack (arbAge a ready (grantClass a)) with debug := a.debug - 1, grants := (6, 1) :: a.grants }).pass 1
  else if stop then a
  else if throttled a then a.pass 1
  else
    match a.cur with
    | some (c, r) => (arbServe a c r).pass 1
    | none =>
      match arbBest a ready [0, 1, 2, 3, 4] with
      | none => a.pass 1
      | some (c, r) =>
        let a := arbAge a ready c
        (arbServe { a with q := tmod [] a.q c List.tail, grants := (c, r.bursts) :: a.grants } c r).pass 1

/-! ### Requests as commands -/

/-- HBM_READ. -/
def execHbmRead (req : Req) (addr : BitVec 48) (len : BitVec 16) (ecc : BitVec 2) (s : State) :
    Host.Outcome State Fault Refusal :=
  .next (takeRequest s { req := req, addr := addr.toNat, len := len.toNat, ecc := ecc })

/-- HBM_WRITE. -/
def execHbmWrite (req : Req) (addr : BitVec 48) (bytes : List Byte) (s : State) : Host.Outcome State Fault Refusal :=
  .next (takeRequest s { req := req, addr := addr.toNat, len := bytes.length, data := some bytes })

/-- WC_DRAIN: the entries of a channel that retrains stay (R268). -/
def execWcDrain (c : BitVec 9) (gran : BitVec 34) (s : State) : Host.Outcome State Fault Refusal :=
  .next (if chanHolds s c.toNat then s else drainGran s c.toNat gran.toNat)

/-- Who may write the atomic window (R255). -/
def mayAtomic : Req → Bool
  | .host => true
  | .firmware => true
  | .engine e => e.eng = 3
  | .dma _ => true
  | .remote _ _ => true
  | _ => false

/-- ATOMIC_RECORD. -/
def execAtomicRecord (req : Req) (w0 w1 w2 w3 : Word) (s : State) : Host.Outcome State Fault Refusal :=
  .next (if barred s req windowBase then replied (refuse s unitSecurity 0x9005).2 0x9005 []
    else if !mayAtomic req then replied (report s unitFirmware 0x9021) 0x9021 []
    else takeRecord s req w0 w1 w2 w3)

/-- ARBITER_ROUND: `ready` says which classes' heads are ready. -/
def execArbiterRound (pc : BitVec 10) (ready : BitVec 5) (s : State) : Host.Outcome State Fault Refusal :=
  let c := pc.toNat / 2
  .next (setArb s pc.toNat (arbRound (getArb s pc.toNat) ready.toNat (rf s (aHbmChStatus c) 51 50) (chState s c = 1)))

/-- REFRESH_DUE: a refresh that comes due in a retraining is served inside it (Table 9.7). -/
def execRefreshDue (pc : BitVec 10) (s : State) : Host.Outcome State Fault Refusal :=
  if chState s (pc.toNat / 2) = 1 then .next s
  else
    let a := getArb s pc.toNat
    .next (setArb s pc.toNat { a with refresh := a.refresh + 1 })

/-- STACK_TEMPERATURE_READING, in °C. (DEDUCED, log entry 88.) -/
def execStackTemperatureReading (stack : BitVec 4) (temp : BitVec 8) (s : State) : Host.Outcome State Fault Refusal :=
  .next ((List.range 32).foldl (fun s k => chanReading s (stack.toNat * 32 + k) temp.toInt) s)

/-- CE_WINDOW_START: the windows of all channels start at a tick whose TICK is a multiple of 25,000 (R267). -/
def execCeWindowStart (s : State) : Host.Outcome State Fault Refusal :=
  if s.drone.tick.toNat % 25000 ≠ 0 then .next s
  else .next { s with chan := tmap {} (fun _ c => { c with ceWin := 0 }) s.chan }

/-- A memory register's write (R272). -/
def hbmOnly (req : Req) (a : Nat) (f : State → Nat × State) (s : State) : Nat × State :=
  hostOnly req unitFirmware 0x9021 a f s

/-- REGION_ENABLE: a write that sets EN. -/
def execRegionEnable (req : Req) (n : BitVec 4) (v : Word) (s : State) : Host.Outcome State Fault Refusal :=
  answered (hbmOnly req (aHbmRgnCtrl n.toNat) (fun s => wRgnCtrl s n.toNat (setBit v 63 true)) s)

/-- REGION_DISABLE: a write that clears EN. (DEDUCED, log entry 32.) -/
def execRegionDisable (req : Req) (n : BitVec 4) (v : Word) (s : State) : Host.Outcome State Fault Refusal :=
  answered (hbmOnly req (aHbmRgnCtrl n.toNat) (fun s => wRgnCtrl s n.toNat (setBit v 63 false)) s)

/-- REGION_CLOSE_COMPLETE. -/
def execRegionCloseComplete (n : BitVec 4) (s : State) : Host.Outcome State Fault Refusal := .next (closeRgn s n.toNat)

/-- HBM_EXCL_WRITE. -/
def execHbmExclWrite (req : Req) (stack : BitVec 4) (v : Word) (s : State) : Host.Outcome State Fault Refusal :=
  answered (hbmOnly req (aHbmExcl stack.toNat) (fun s => wHbmExcl s stack.toNat v) s)

/-- CHANNEL_POLICY_WRITE. -/
def execChannelPolicyWrite (req : Req) (c : BitVec 9) (v : Word) (s : State) : Host.Outcome State Fault Refusal :=
  answered (hbmOnly req (aHbmChCtrl c.toNat) (fun s => wChCtrl s c.toNat v) s)

/-- RETRAIN: a write of 1 to RETRAIN that leaves the other fields. -/
def execRetrain (req : Req) (c : BitVec 9) (s : State) : Host.Outcome State Fault Refusal :=
  answered (hbmOnly req (aHbmChCtrl c.toNat) (fun s => (0, wantRetrain s c.toNat true)) s)

/-- RETRAINING_START. -/
def execRetrainingStart (c : BitVec 9) (s : State) : Host.Outcome State Fault Refusal := .next (startRetrain s c.toNat)

/-- FLUSH. -/
def execFlush (req : Req) (die : BitVec 3) (s : State) : Host.Outcome State Fault Refusal :=
  answered (hbmOnly req (aHbmScCtrl die.toNat) (fun s => wScCtrl s die.toNat 1) s)

/-- FLUSH_COMPLETE: the last write-back has completed (R251). -/
def execFlushComplete (die : BitVec 3) (s : State) : Host.Outcome State Fault Refusal :=
  if rbit s (aHbmScStatus die.toNat) 63 ∧ !flushHeld s die.toNat then .next (rsetb (flushDie s die.toNat) (aHbmScStatus die.toNat) 63 false)
  else .next s

end Sys2Proof.Machine
end

