-- ==== Sys2Proof/Machine/Link.lean ====
section
/-! DEFINITION. SMBus alerts (R22, R418), and the frames and states of the host link that other units meet
(R398 to R400). -/

namespace Sys2Proof.Machine

/-! ### Alerts -/

/-- The readings of the last sample of the sensors that are not voted out, in 1/16 °C, by die. -/
def validReads (s : State) (d : Nat) : List Int :=
  ((List.range (if d < 8 then 64 else 16)).filter (fun k => !rbit s (aThmSens d k) 47)).map
    (fun k => sext 16 (rf s (aThmSens d k) 63 48))

def thmSoft (s : State) : Int := s.thm.soft

/-- Any junction reads above the soft limit. -/
def aboveSoft (s : State) : Bool :=
  (List.range 12).any (fun d => (validReads s d).any (fun t => decide (thmSoft s * 16 < t)))

/-- The conditions of R418, bit by bit. -/
def alertConds (s : State) : Nat :=
  flagBit (rbit s aThmHold 62) 0 + flagBit (aboveSoft s) 1 + flagBit (rf s aHlStatus 63 62 ≠ 2) 2 +
    flagBit (!s.pins.pwrGood) 3

def alertPending (s : State) : Bool := alertConds s &&& s.mgt.smbMask.toNat ≠ 0

/-- ALERT_N goes low when an enabled condition is pending. -/
def alertCheck (s : State) : State :=
  if alertPending s then { s with mgt := { s.mgt with alert := true } } else s

/-! ### Frames (Table 14.1) -/

def frTT (f : Frame) : Nat := fld f.w0 63 58
def frLen (f : Frame) : Nat := fld f.w0 57 48
def frSeq (f : Frame) : Nat := fld f.w0 47 32
def frAck (f : Frame) : Nat := fld f.w0 31 16
def frTag (f : Frame) : Nat := fld f.w0 15 0

def hlState (s : State) : Nat := rf s aHlStatus 63 62
def hlUpNow (s : State) : Bool := hlState s = 2

/-- LSEQ of the last frame received in order. -/
def hlLack (s : State) : Nat := (s.hl.expect + 65535) % 65536

/-- The header's words as bytes. -/
def frHeader (f : Frame) : List Byte := wordsLE [f.w0, f.w1, f.w2]

/-- Whole cells of 64 B: zeros follow the last byte (R355). -/
def inCells (bs : List Byte) : List Byte := bs ++ List.replicate ((64 - bs.length % 64) % 64) 0

/-- A frame as it goes to its lane: header, body and CRC-32, in ceil((28 + LEN) / 64) cells (R398). -/
def frWire (f : Frame) : List Byte := inCells (frHeader f ++ f.body ++ natLE 4 (crc32 (frHeader f ++ f.body)))

/-- Cells queued on a lane, a started one among them. -/
def laneCells (q : Tbl Nat) (l : Nat) : Nat := (tget 0 q l + 15) / 16

/-- The lane with the fewest cells queued among ascending `ls`, the lowest on a tie (R355). -/
def pickLane (q : Tbl Nat) : List Nat → Option Nat
  | [] => none
  | l :: ls =>
    match pickLane q ls with
    | some k => if laneCells q l ≤ laneCells q k then some l else some k
    | none => some l

/-- Queues `n` cells on the lane that R355 picks. -/
def queueCells (q : Tbl Nat) (ls : List Nat) (n : Nat) : Nat × Tbl Nat :=
  match pickLane q ls with
  | some l => (l, tset 0 q l (tget 0 q l + 16 * n))
  | none => (0, q)

/-- A reference cycle of 40 ns takes 7 13/16 cells from each lane, which sends 12.5 GB/s (R354). The model lets them flow, and
    forms no block (DESIGN CHOICE, log entry 140). -/
def drainLanes (q : Tbl Nat) : Tbl Nat := tmap 0 (fun _ n => n - 125) q

/-- A Bell's lanes in service, as places of its port's queues. -/
def servedLanes (s : State) (b base : Nat) : List Nat :=
  ((List.range 32).filter (fun l => rbit s (aBelLanes b) (32 + l))).map (base + ·)

/-- Hands frames to the lanes, the oldest first. -/
def toWire (s : State) (fs : List Frame) : State :=
  let ls := servedLanes s 6 0
  { s with hl := { s.hl with
      wire := (fs.map frWire).reverse ++ s.hl.wire
      laneQ := fs.foldl (fun q f => (queueCells q ls ((frWire f).length / 64)).2) s.hl.laneQ } }

/-- A frame that has not taken its LSEQ. (DEDUCED, log entry 106.) -/
def mkFrame (tt len tag : Nat) (addr : Word) (body : List Byte) : Frame :=
  { w0 := BitVec.ofNat 64 (tt * 2 ^ 58 + len % 1024 * 2 ^ 48 + tag % 65536), w1 := addr, w2 := 0, body := body }

/-- Sends a frame: it takes the next LSEQ, the LACK and its stamp, and stays in the replay buffer. -/
def launchFrame (s : State) (f : Frame) : State :=
  let (st, s) := takeStamp s unitHostLink
  let f := { f with w0 := setFld (setFld f.w0 47 32 s.hl.next) 31 16 (hlLack s), w2 := st }
  toWire { s with hl := { s.hl with replay := s.hl.replay ++ [f], next := (s.hl.next + 1) % 65536 } } [f]

/-- Sends the waiting frames while the link is UP and the replay buffer holds fewer than 256. -/
def pumpFrames (s : State) : List Frame → State
  | [] => s
  | f :: fs =>
    if hlUpNow s ∧ s.hl.replay.length < 256 then
      pumpFrames (launchFrame { s with hl := { s.hl with wait := fs } } f) fs
    else s

def sendFrame (s : State) (f : Frame) : State :=
  let s := { s with hl := { s.hl with wait := s.hl.wait ++ [f] } }
  pumpFrames s s.hl.wait

/-- The host link is UP: Bell H is (R397, R400). -/
def hlRise (s : State) (adapter : Nat) : State :=
  let s := rset (rset s aHlStatus 63 62 2) aHlStatus 47 32 adapter
  let s := report s unitHostLink 0xA001 { a0 := BitVec.ofNat 64 adapter }
  let s := if s.hl.woke then report { s with hl := { s.hl with woke := false } } unitFirmware 0x8042 else s
  pumpFrames s s.hl.wait

/-- Bell H is out of UP: HOLD (R400). -/
def hlFall (s : State) : State := if hlUpNow s then alertCheck (rset s aHlStatus 63 62 1) else s

end Sys2Proof.Machine
end

