-- ==== Sys2Proof/Machine/Fabric.lean ====
section
/-! DEFINITION. The fabric router, its flows and their registers (chapter 11): routing, credits, sending, loss. -/

namespace Sys2Proof.Machine

/-! ### Packets (Tables 11.3 and 11.4) -/

def pkDst (p : Packet) : Nat := fld p.w0 63 48
def pkSrc (p : Packet) : Nat := fld p.w0 47 32
def pkCls (p : Packet) : Nat := fld p.w0 31 30
def pkVc (p : Packet) : Nat := fld p.w0 29 27
def pkEpoch (p : Packet) : Bool := bit p.w0 26
def pkMc (p : Packet) : Bool := bit p.w0 25
def pkMgrp (p : Packet) : Nat := fld p.w0 23 12
def pkDet (p : Packet) : Bool := bit p.w0 11
def pkHops (p : Packet) : Nat := fld p.w0 6 0
def pkFlow (p : Packet) : Nat := fld p.w1 63 48
def pkSeq (p : Packet) : Nat := fld p.w1 47 32
def pkLen (p : Packet) : Nat := fld p.w1 31 22
def pkOpc (p : Packet) : Nat := fld p.w1 21 16
def pkOpid (p : Packet) : Nat := fld p.w1 15 0

/-- The class that Table 11.4 gives an opcode; none where it is reserved. -/
def opcClass : Nat → Option Nat
  | 0x01 => some 0 | 0x02 => some 0 | 0x03 => some 0 | 0x04 => some 0 | 0x05 => some 0
  | 0x11 => some 1 | 0x12 => some 1 | 0x13 => some 1 | 0x14 => some 1 | 0x15 => some 1
  | 0x20 => some 2 | 0x30 => some 3 | _ => none

/-- A packet that R310 discards with 0x4_014. -/
def malformed (p : Packet) : Bool :=
  (opcClass (pkOpc p)).isNone || decide (512 < (pkLen p)) || (pkVc p) / 2 ≠ (pkCls p) || fld p.w0 10 7 ≠ 0 || ((pkMc p) && (pkCls p) ≠ 2)

/-- The header's 32 bytes. -/
def pkHeader (p : Packet) : List Byte := wordsLE [p.w0, p.w1, p.w2, p.w3]

/-- The bytes of a packet under its CRC: VC[0], DET and HOPS taken as 0 (R308). -/
def pkCovered (p : Packet) : List Byte :=
  wordsLE [setFld (setBit (setBit p.w0 27 false) 11 false) 6 0 0, p.w1, p.w2, p.w3] ++ p.payload

/-- A whole packet: header, payload and CRC (R308). -/
def pkBytes (p : Packet) : List Byte := pkHeader p ++ p.payload ++ natLE 4 (crc32 (pkCovered p))

/-- Cells of 64 B that a packet takes (R355). -/
def pkCells (p : Packet) : Nat := (36 + (pkLen p) + 63) / 64

/-- The unit field of a router port (Table 2.4). -/
def unitOfPort (p : Nat) : Nat := 0x4000 + p

/-- ARG words of class 0x4 (Table 17.3). -/
def packetInfo (p : Packet) : Info :=
  { a0 := BitVec.ofNat 64 (pkFlow p), a1 := BitVec.ofNat 64 (pkSeq p), a2 := BitVec.ofNat 64 (pkOpid p) }

/-! ### Flow contexts (R321, R322) -/

def flowOf (s : State) (n : Nat) : Flow := tget {} s.fab.flows n
def setFlow (s : State) (n : Nat) (f : Flow) : State := { s with fab := { s.fab with flows := tset {} s.fab.flows n f } }

def flowEn (s : State) (n : Nat) : Bool := rbit s (aFabFlowCfg n) 63
def flowRecv (s : State) (n : Nat) : Bool := rbit s (aFabFlowCfg n) 62
def flowClass (s : State) (n : Nat) : Nat := rf s (aFabFlowCfg n) 61 60
def flowBroken (s : State) (n : Nat) : Bool := rbit s (aFabFlowCfg n) 59
def flowWin (s : State) (n : Nat) : Nat := rf s (aFabFlowCfg n) 56 48
def flowRidx (s : State) (n : Nat) : Nat := rf s (aFabFlowCfg n) 31 16
def flowPeer (s : State) (n : Nat) : Nat := rf s (aFabFlowCfg n) 15 0

/-- The contexts whose CFG register holds something. -/
def flowsListed (s : State) : List Nat :=
  s.regs.filterMap (fun r =>
    match regAt r.1 with
    | some ⟨.fabFlowCfg, n, _⟩ => some n
    | _ => none)

/-- The enabled send context toward a module in a class. -/
def sendFlow (s : State) (peer cls : Nat) : Option Nat :=
  (flowsListed s).find? (fun n =>
    flowEn s n && !flowRecv s n && flowPeer s n = peer && flowClass s n = cls)

/-- The class of an operation. -/
def FKind.cls : FKind → Nat
  | .put .. => 0
  | .get .. => 0
  | .ld _ => 0
  | .st .. => 0
  | .msg .. => 3
  | _ => 1

/-- Data packets of `len` bytes (R304). -/
def dataPackets (len : Nat) : Nat := (len + 511) / 512

/-- Packets an operation sends. -/
def FKind.packets : FKind → Nat
  | .put _ _ _ len _ _ _ => dataPackets len + 1
  | .getData _ data _ _ => dataPackets data.length + 1
  | _ => 1

def openOps (f : Flow) : Nat := (f.ops.filter (fun o => o.opid.isSome)).length

/-- Opens waiting operations, in order, while fewer than 16 are open (R322). -/
def openWaiting : List FOp → Nat → Nat → List FOp × Nat
  | [], _, next => ([], next)
  | o :: os, n, next =>
    if o.opid.isSome ∨ 16 ≤ n then
      let (rest, k) := openWaiting os n next
      (o :: rest, k)
    else
      let (rest, k) := openWaiting os (n + 1) ((next + 1) % 65536)
      ({ o with opid := some next } :: rest, k)

def reopen (f : Flow) : Flow :=
  let (ops, k) := openWaiting f.ops (openOps f) f.nextOpid
  { f with ops := ops, nextOpid := k }

/-- Why an operation fails at issue: 0x4_015 without an identity (R303), 0x4_011 without a send context (R321),
    0x4_022 on a broken flow (R328). -/
def startCode (s : State) (peer : Nat) (k : FKind) : Nat :=
  if !idValid s then 0x4015
  else
    match sendFlow s peer k.cls with
    | none => 0x4011
    | some n => if flowBroken s n then 0x4022 else 0

/-- Starts an operation: its code, its number, and the state. -/
def startOp (s : State) (peer : Nat) (k : FKind) (owner : FOwner) : Nat × Nat × State :=
  let c := startCode s peer k
  match sendFlow s peer k.cls with
  | none => (c, 0, s)
  | some n =>
    if c ≠ 0 then (c, 0, s)
    else
      let uid := s.fab.nextUid
      let f := flowOf s n
      let s := setFlow s n (reopen { f with ops := f.ops ++ [{ uid := uid, kind := k, owner := owner }] })
      (0, uid, { s with fab := { s.fab with nextUid := uid + 1 } })

/-- DEDUCED, log entry 68. -/
def portUp (s : State) (p : Nat) : Bool := rf s (aFabPortStatus p) 63 60 = 1

/-- PEER and REMOTE with which an engine's fault for a failed operation toward module `peer` is reported: 0x4_022 alone carries
    them (R480). -/
def faultOrigin (code peer : Nat) (remote : Bool) : Nat × Bool := if code = 0x4022 then (peer, remote) else (0, false)

/-- An engine transfer hears from one of its operations; its first error stands. -/
def xferHears (s : State) (e : At) (xid code : Nat) (w : Nat × Bool := (0, false)) : State :=
  modEng s e (fun g => { g with xfers := g.xfers.map (fun x =>
    if x.id = xid then
      { x with
        left := x.left - 1
        code := if x.code = 0 then BitVec.ofNat 16 code else x.code
        from_ := if code ≠ 0 ∧ x.code = 0 then w else x.from_ }
    else x) })

/-- A bundle that has had no effect gives back what its WAIT took (R109, R140). -/
def giveBack (s : State) (e : At) : State :=
  match (getEng s e).held with
  | some b =>
    match b.ctl with
    | some (.wait sem n) => if n = 0 then s else semAdd s e.tile.toNat sem.toNat n.toNat
    | _ => s
  | none => s

/-- The address that a held LDG or STG names. -/
def scalarAddr (g : Engine) : Word :=
  match g.held with
  | some b =>
    match b.scl with
    | some (.ldg _ xa) => g.xr xa
    | some (.stg xa _) => g.xr xa
    | _ => 0
  | none => 0

/-- The LDG or STG that a bundle waits for has failed: the bundle has no effect, and the engine faults with the lower code where
    it holds a TRAP too (R127, R140). -/
def failScalar (s : State) (e : At) (code : Nat) (w : Nat × Bool := (0, false)) : State :=
  let g := getEng s e
  match g.held.bind (fun b => b.ctl) with
  | some (.trap c) =>
    if code < 0x10F0 then faultEngine (giveBack s e) e code (scalarAddr g) 0 w else faultEngine (giveBack s e) e 0x10F0 0 (c.setWidth 64)
  | _ => faultEngine (giveBack s e) e code (scalarAddr g) 0 w

/-- An operation's owner hears of its end with error (R129). -/
def ownerFails (s : State) (o : FOp) (code : Nat) (w : Nat × Bool) : State :=
  match o.owner with
  | .xfer e xid => xferHears s e xid code w
  | .scalar e =>
    match (getEng s e).answer with
    | some (_, uid) => if uid = o.uid then failScalar s e code w else s
    | none => s
  | .answer _ => s

/-- Takes an operation out of its flow and opens the next. -/
def closeOp (s : State) (n uid : Nat) : State :=
  let f := flowOf s n
  setFlow s n (reopen { f with ops := f.ops.filter (fun o => o.uid ≠ uid) })

/-- An operation ends with error. The report of an engine that faults for it names the flow's module, and carries REMOTE where the
    port by which the operation's last packet left is UP (R330, R480); an operation of which no packet has left carries no
    REMOTE. (DESIGN CHOICE, log entry 152.) -/
def failOp (s : State) (n uid code : Nat) : State :=
  match (flowOf s n).ops.find? (fun o => o.uid = uid) with
  | none => s
  | some o => ownerFails (closeOp s n uid) o code (faultOrigin code (flowPeer s n) (o.opid.isSome && portUp s o.port))

/-- The operation that an OPID names in a send context. -/
def opOf (s : State) (n opid : Nat) : Option FOp := (flowOf s n).ops.find? (fun o => o.opid = some opid)

/-! ### Ports and credits (R298, R357) -/


/-- The mask of optical ports that are UP. -/
def upMask (s : State) : Nat :=
  (List.range 6).foldl (fun m p => if portUp s p then m + 2 ^ p else m) 0

/-- Cells of free credit at a port on a VC. -/
def freeCredit (s : State) (p vc : Nat) : Nat :=
  4096 - (tget 0 s.fab.sent (p * 8 + vc) - tget 0 s.fab.freed (p * 8 + vc))

/-- PKTS of a port counts a packet sent through it (Table 11.12). -/
def countSent (s : State) (p : Nat) : State := rset s (aFabPortPkts p) 63 0 (rf s (aFabPortPkts p) 63 0 + 1)

/-- Sends the queued packets of an optical port that have credit, oldest first on each VC. -/
def pumpHeld (p : Nat) : List RHeld → List Nat → State → List RHeld × State
  | [], _, s => ([], s)
  | h :: hs, blocked, s =>
    if h.port ≠ p ∨ h.last ≠ 0 ∨ blocked.contains (pkVc h.pkt) then
      let (r, s) := pumpHeld p hs blocked s
      (h :: r, s)
    else if freeCredit s p (pkVc h.pkt) < (pkCells h.pkt) then
      let (r, s) := pumpHeld p hs ((pkVc h.pkt) :: blocked) s
      (h :: r, s)
    else
      let key := p * 8 + (pkVc h.pkt)
      let n := tget 0 s.fab.sent key + (pkCells h.pkt)
      let (l, q) := queueCells s.fab.laneQ (servedLanes s p (p * 32)) (pkCells h.pkt)
      let s := { s with fab := { s.fab with sent := tset 0 s.fab.sent key n, laneQ := q } }
      let s := countSent s p
      let (r, s) := pumpHeld p hs blocked s
      ({ h with last := n, lane := l % 32 } :: r, s)

def pump (s : State) (p : Nat) : State :=
  if !portUp s p then s
  else
    let (hs, s) := pumpHeld p s.fab.held [] s
    { s with fab := { s.fab with held := hs } }

/-- A CREDIT message: the cumulative count of cells freed on one VC, modulo 2^32 (R357). -/
def creditVc (s : State) (p vc v : Nat) : State :=
  let key := p * 8 + vc
  let sent := tget 0 s.fab.sent key
  let n := sent - (sent + 2 ^ 32 - v % 2 ^ 32) % 2 ^ 32
  let drop (h : RHeld) : Bool := h.port = p && (pkVc h.pkt) = vc && h.last ≠ 0 && decide (h.last ≤ n)
  { s with fab := { s.fab with freed := tset 0 s.fab.freed key n, held := s.fab.held.filter (fun h => !drop h) } }

/-- Packets held whose EPOCH differs from INJ (R317). -/
def oldCount (s : State) : Nat :=
  (s.fab.held.filter (fun h => (pkEpoch h.pkt) ≠ rbit s aFabEpoch 63)).length

/-! ### Routing (R313, R314, R319) -/

def routeWord (s : State) (b : Bool) (d : Nat) : Word := regGet s (if b then aFabRouteB d else aFabRouteA d)

/-- What the routing of a packet gives. -/
inductive Routed where
  | own                              -- delivered here
  | out (port : Nat) (p : Packet)
  | noRoute                          -- discarded with 0x4_013
  | noPort                           -- no candidate port (R329)
  deriving DecidableEq, Repr

/-- The port of a mask with most free credit on a VC, the lowest on a tie. -/
def bestPort (s : State) (cand vc : Nat) : List Nat → Option Nat
  | [] => none
  | p :: ps =>
    match bestPort s cand vc ps with
    | none => if cand.testBit p then some p else none
    | some q => if cand.testBit p ∧ freeCredit s q vc ≤ freeCredit s p vc then some p else some q

/-- Ports of an axis. -/
def axisMask (a : Nat) : Nat := 3 * 2 ^ (a / 2 * 2)

/-- R313 and R314 for a unicast packet that arrived on port `a`. -/
def routeOf (s : State) (p : Packet) (a : Nat) : Routed :=
  if (pkDst p) = moduleId s then .own
  else if a < 6 ∧ !rbit s aFabCfg 63 then .noRoute
  else
    let e := routeWord s (pkEpoch p) (pkDst p)
    let min := fld e 5 0
    let det := fld e 13 8
    let up := upMask s
    if !bit e 63 ∨ (pkHops p) = 127 then .noRoute
    else
      let cand :=
        if (pkDet p) ∧ a < 6 ∧ (min ||| det) &&& axisMask a = (min ||| det) then 2 ^ (a ^^^ 1) &&& up
        else if min &&& up ≠ 0 then min &&& up
        else det &&& up
      match bestPort s cand (pkVc p) [0, 1, 2, 3, 4, 5] with
      | none => .noPort
      | some o =>
        let w := if !(pkDet p) ∧ det.testBit o then setBit p.w0 11 true else p.w0
        let w := if a < 6 ∧ o / 2 ≠ a / 2 then setBit (setBit w 27 false) 11 false else w
        let w := if rbit s aFabCfg (50 + o) then setBit w 27 true else w
        .out o { p with w0 := setFld w 6 0 ((pkHops p) + 1) }

/-- Adds 1 to a discard count of a port. -/
def countCrc (s : State) (p : Nat) : State := rcount s (aFabPortDrop p) 63 32 1
def countRoute (s : State) (p : Nat) : State := rcount s (aFabPortDrop p) 31 16 1
def countMc (s : State) (p : Nat) : State := rcount s (aFabPortDrop p) 15 0 1

/-- Records the port by which a packet and its operation last left. -/
def leftBy (s : State) (own : Option (Nat × Nat)) (seq port : Nat) : State :=
  match own with
  | none => s
  | some (n, uid) =>
    let f := flowOf s n
    setFlow s n { f with
      ops := f.ops.map (fun o => if o.uid = uid then { o with port := port } else o)
      unacked := f.unacked.map (fun u => if u.seq = seq then { u with port := port } else u) }

def holdPacket (s : State) (h : RHeld) : State := { s with fab := { s.fab with held := s.fab.held ++ [h] } }

/-- A packet is routed from arrival port `a`. -/
def routePacket (s : State) (p : Packet) (a : Nat) (own : Option (Nat × Nat)) : State :=
  match routeOf s p a with
  | .own => holdPacket s { port := 15, pkt := p, orig := p, from_ := a, own := own }
  | .out o q => pump (holdPacket (leftBy s own (pkSeq p) o) { port := o, pkt := q, orig := p, from_ := a, own := own }) o
  | .noRoute => report (countRoute s a) (unitOfPort a) 0x4013 (packetInfo p)
  | .noPort =>
    let s := countRoute s a
    match own with
    | some (n, uid) => failOp s n uid 0x4030
    | none => s

/-- One copy of a multicast packet (R319); a copy for an internal port is written by the caller. -/
def mcCopy (p : Packet) (a : Nat) (s : State) (o : Nat) : State :=
  if o < 6 then
    if portUp s o then
      let w := if a < 6 ∧ o / 2 ≠ a / 2 then setBit (setBit p.w0 27 false) 11 false else p.w0
      let w := if rbit s aFabCfg (50 + o) then setBit w 27 true else w
      let q := { p with w0 := setFld w 6 0 ((pkHops p) + 1) }
      pump (holdPacket s { port := o, pkt := q, orig := p, from_ := a }) o
    else countMc s o
  else if o = 14 then sendFrame (countSent s 14) (mkFrame 0x28 (36 + p.payload.length) 0 0 (pkBytes p))
  else s

/-- Ports of a multicast packet's group other than the arrival port. -/
def mcPorts (s : State) (p : Packet) (a : Nat) : List Nat :=
  (List.range 15).filter (fun o => rbit s (aFabMc (pkMgrp p)) o && o ≠ a)

/-- Sends the copies that leave by optical ports and the host port, and writes those of internal ports; the copies of
    a group whose EN is 0 are dropped (R319). Answers the first error of a write, 0 without one. -/
def multicast (s : State) (p : Packet) (a : Nat) : Nat × State :=
  (mcPorts s p a).foldl (fun x o =>
    if !rbit x.2 (aFabMc (pkMgrp p)) 63 then (x.1, countMc x.2 o)
    else if 6 ≤ o ∧ o < 14 then
      let (c, s) := dataWrite (countSent x.2 o) (.remote (BitVec.ofNat 16 (pkSrc p)) (BitVec.ofNat 4 o)) (fld p.w3 47 0)
        p.payload 0x4024
      (if x.1 = 0 then c else x.1, s)
    else (x.1, mcCopy p a x.2 o)) (0, s)

/-- A packet enters the router: SEEN follows (R317). -/
def seePacket (s : State) (p : Packet) : State :=
  if (pkEpoch p) ≠ rbit s aFabEpoch 63 then rsetb s aFabEpoch 62 true else s

/-- A packet that this module injects takes INJ and enters from an internal port or the host port (R309). -/
def inject (s : State) (p : Packet) (a : Nat) (own : Option (Nat × Nat)) : State :=
  if !idValid s then s
  else
    let p := { p with w0 := setFld (setBit (setBit (setBit p.w0 26 (rbit s aFabEpoch 63)) 27 false) 11 false) 6 0 0 }
    if (pkMc p) then (multicast s p a).2 else routePacket s p a own

/-! ### Sending (R322, R324, R326) -/

/-- W0 and W1 of a packet of this module. -/
def mkW0 (s : State) (dst cls : Nat) (last : Bool) : Word :=
  BitVec.ofNat 64 (dst * 2 ^ 48 + moduleId s * 2 ^ 32 + cls * 2 ^ 30 + cls * 2 ^ 28 + (if last then 2 ^ 24 else 0))

def mkW1 (flow seq len opc opid : Nat) : Word :=
  BitVec.ofNat 64 (flow % 65536 * 2 ^ 48 + seq % 65536 * 2 ^ 32 + len % 1024 * 2 ^ 22 + opc * 2 ^ 16 + opid % 65536)

/-- Opcode, W3 and payload of packet `k` of an operation. -/
def packetBody (s : State) (k : FKind) (i : Nat) : Nat × Word × List Byte :=
  match k with
  | .put t src dst len rcnt rsem rtile =>
    if i < dataPackets len then
      (0x01, BitVec.ofNat 64 (dst + i * 512), localRead s t (src + i * 512) (Nat.min 512 (len - i * 512)))
    else
      (0x02, BitVec.ofNat 64 (dataPackets len * 2 ^ 44 + rtile * 2 ^ 31 + rsem * 2 ^ 27 + rcnt * 2 ^ 19), [])
  | .get src dst len => (0x03, BitVec.ofNat 64 src, natLE 8 (dst % 2 ^ 48) ++ natLE 4 len)
  | .msg t src q len => (0x30, BitVec.ofNat 64 q, localRead s t src len)
  | .ld a => (0x04, BitVec.ofNat 64 a, [])
  | .st a v => (0x05, BitVec.ofNat 64 a, wordLE v)
  | .getData dst data opid status =>
    if i < dataPackets data.length then (0x11, BitVec.ofNat 64 (dst + i * 512), (data.drop (i * 512)).take 512)
    else (0x12, BitVec.ofNat 64 (dataPackets data.length * 2 ^ 44 + status * 2 ^ 16 + opid), [])
  | .opack opid status => (0x13, BitVec.ofNat 64 (status * 2 ^ 16 + opid), [])
  | .ldrsp opid status v => (0x14, BitVec.ofNat 64 (status * 2 ^ 16 + opid), wordLE v)

/-- The unit that injects an owner's packets. Those of an answer (OPACK, GETDATA, LDRSP) are stamped by the router port by which
    the request came: R44 says the injecting unit, and no rule says which unit of the target that is (DESIGN CHOICE, log entry
    154). -/
def ownerUnit : FOwner → Nat
  | .xfer e _ => unitOfEngine e.tile.toNat e.eng.toNat
  | .scalar e => unitOfEngine e.tile.toNat e.eng.toNat
  | .answer p => unitOfPort p

/-- What a port die injects enters by the host port, since an injected packet comes by no optical port (R314). -/
def ownerPort : FOwner → Nat
  | .xfer e _ => 6 + dieOf e.tile.toNat
  | .scalar e => 6 + dieOf e.tile.toNat
  | .answer p => if p < 6 then 14 else p

/-- Where an operation reads its packet's payload, and what of it the owner's transfers are writing (R113). -/
def payloadSource (k : FKind) (i : Nat) : Nat :=
  match k with
  | .put t src _ _ _ _ _ => localPhys t (src + i * 512)
  | .msg t src _ _ => localPhys t src
  | _ => 0

/-- The payload as the owner's engine reads it. -/
def ownerBytes (s : State) (o : FOwner) (k : FKind) (i : Nat) (bs : List Byte) : List Byte × State :=
  match o with
  | .xfer e xid =>
    match (getEng s e).xfers.find? (fun x => x.id = xid) with
    | some x => if payloadSource k i = 0 then (bs, s) else xferBytes s x (payloadSource k i) bs
    | none => (bs, s)
  | _ => (bs, s)

/-- Builds a packet of a send context afresh from memory or the answer's state (R326). -/
def buildPacket (s : State) (n : Nat) (own : FOwner) (k : FKind) (i seq opid : Nat) (stamp : Word) : Packet × State :=
  let (opc, w3, body) := packetBody s k i
  let (body, s) := ownerBytes s own k i body
  ({ w0 := mkW0 s (flowPeer s n) (flowClass s n) (i + 1 = k.packets)
     w1 := mkW1 (flowRidx s n) seq body.length opc opid
     w2 := stamp, w3 := w3, payload := body }, s)

/-- The first open operation with packets still to send. -/
def nextToSend (f : Flow) : Option FOp := f.ops.find? (fun o => o.opid.isSome && decide (o.sent < o.kind.packets))

/-- SEQ less the oldest unacknowledged SEQ. -/
def inFlight (f : Flow) : Nat :=
  match f.unacked with
  | [] => 0
  | u :: _ => (f.nextSeq + 65536 - u.seq) % 65536

/-- A flow may send: enabled, in its window, and the module has an identity (R303, R322). -/
def maySend (s : State) (n : Nat) : Bool :=
  idValid s && flowEn s n && !flowRecv s n && decide (inFlight (flowOf s n) < flowWin s n)

/-- The unit that an operation belongs to has gone with its die, so its packets can no longer be built (R292, R326). -/
def ownerGone (s : State) : FOwner → Bool
  | .xfer e _ => tileIsolated s e.tile.toNat
  | .scalar e => tileIsolated s e.tile.toNat
  | .answer _ => false

/-- Sends the next sequenced packet of a flow. -/
def sendNext (s : State) (n : Nat) : State :=
  if !maySend s n then s
  else
    match nextToSend (flowOf s n) with
    | none => s
    | some o =>
      if ownerGone s o.owner then closeOp s n o.uid
      else
      let (st, s) := takeStamp s (ownerUnit o.owner)
      let f := flowOf s n
      let opid := o.opid.getD 0
      let u : Unacked := { seq := f.nextSeq, uid := o.uid, idx := o.sent, opid := opid, kind := o.kind,
                           owner := o.owner, stamp := st, port := 14 }
      let s := setFlow s n { f with
        nextSeq := (f.nextSeq + 1) % 65536
        ops := f.ops.map (fun x => if x.uid = o.uid then { x with sent := x.sent + 1 } else x)
        unacked := f.unacked ++ [u] }
      let (p, s) := buildPacket s n o.owner o.kind o.sent u.seq opid st
      inject s p (ownerPort o.owner) (some (n, o.uid))

/-- Class 0x4 report of a flow's packet by the port by which it last left (R330). -/
def flowReport (s : State) (n code seq opid port : Nat) : State :=
  report s (unitOfPort port) code
    { peer := flowPeer s n, remote := portUp s port
      a0 := BitVec.ofNat 64 n, a1 := BitVec.ofNat 64 seq, a2 := BitVec.ofNat 64 opid }

/-- Ends with 0x4_022 every operation of a flow that `p` picks. -/
def failOps (s : State) (n : Nat) (p : FOp → Bool) : State :=
  ((flowOf s n).ops.filter p).foldl (fun s o => failOp s n o.uid 0x4022) s

/-- A flow becomes BROKEN: the operations that wait end at once (R328). (DEDUCED, log entry 66.) -/
def breakFlow (s : State) (n : Nat) : State :=
  failOps (rsetb s (aFabFlowCfg n) 59 true) n (fun o => o.opid.isNone)

/-- GAPTO expires on a packet that no FACK has covered (R326). -/
def retransmit (s : State) (n seq : Nat) : State :=
  match (flowOf s n).unacked.find? (fun u => u.seq = seq) with
  | none => s
  | some u =>
    let retry := rf s aFabTimer 1 0
    let f := flowOf s n
    let s := setFlow s n { f with unacked := f.unacked.map (fun x => if x.seq = seq then { x with tries := x.tries + 1 } else x) }
    if u.tries < retry then
      let s := flowReport s n 0x4021 seq u.opid u.port
      if ownerGone s u.owner then s
      else
        let (p, s) := buildPacket s n u.owner u.kind u.idx u.seq u.opid u.stamp
        inject s p (ownerPort u.owner) (some (n, u.uid))
    else if !flowBroken s n ∨ f.ops.any (fun o => o.uid = u.uid) then
      let s := flowReport s n 0x4022 seq u.opid u.port
      failOp (breakFlow s n) n u.uid 0x4022
    else s

/-- R327: an issuer without any part of its answer ends the operation. -/
def answerTimeout (s : State) (n opid : Nat) : State :=
  match opOf s n opid with
  | none => s
  | some o =>
    if flowClass s n = 1 then s
    else failOp (flowReport s n 0x4022 ((flowOf s n).nextSeq) opid o.port) n o.uid 0x4022

/-- RST of a context (R328, Table 11.5). -/
def resetFlow (s : State) (n : Nat) : State :=
  let s := failOps s n (fun o => o.opid.isSome)
  let f := flowOf s n
  let s := setFlow s n (reopen { f with
    nextSeq := 0, nextOpid := 0, exp := 0, map := [], unacked := [], slots := [], ackDue := false
    ops := f.ops.map (fun o => { o with opid := none, sent := 0 }) })
  rsetb s (aFabFlowCfg n) 59 false

/-! ### Acknowledgement (R323, R324) -/

/-- Bits of a FACK's map: bit i is set when EXP + i has been received. -/
def fackMap (f : Flow) : List Byte :=
  natLE 32 ((List.range 256).foldl (fun m i => if f.map.contains ((f.exp + i) % 65536) then m + 2 ^ i else m) 0)

/-- A receive context sends a FACK. Its FLOW names the receive context it speaks for (DEDUCED, log entry 34). -/
def sendFack (s : State) (n : Nat) : State :=
  let f := flowOf s n
  let (st, s) := takeStamp s (unitOfPort 14)
  let p : Packet :=
    { w0 := mkW0 s (flowPeer s n) 1 false, w1 := mkW1 n 0 32 0x15 0, w2 := st, w3 := BitVec.ofNat 64 f.exp, payload := fackMap f }
  inject (setFlow s n { f with ackDue := false }) p 14 none

/-- A FACK covers a SEQ. -/
def fackCovers (exp : Nat) (map : Nat) (seq : Nat) : Bool :=
  let d := (exp + 65536 - seq) % 65536
  let i := (seq + 65536 - exp) % 65536
  (1 ≤ d && d ≤ 32768) || (decide (i < 256) && map.testBit i)

/-- An RSP operation closes once every packet of it is sent and covered. -/
def rspDone (f : Flow) (o : FOp) : Bool :=
  decide (o.kind.packets ≤ o.sent) && !f.unacked.any (fun u => u.uid = o.uid)

/-- A received FACK frees the SEQs that it marks (R324). -/
def takeFack (s : State) (n exp map : Nat) : State :=
  let f := flowOf s n
  let f := { f with unacked := f.unacked.filter (fun u => !fackCovers exp map u.seq) }
  let f := if flowClass s n = 1 then { f with ops := f.ops.filter (fun o => !rspDone f o) } else f
  setFlow s n (reopen f)

/-- The send context that a FACK from `src` speaks for. -/
def fackFlow (s : State) (src flow : Nat) : Option Nat :=
  (flowsListed s).find? (fun n => flowEn s n && !flowRecv s n && flowPeer s n = src && flowRidx s n = flow)

/-! ### Port changes (R329) -/

/-- A port goes UP: each VC starts with 4,096 credits (R357). -/
def raisePort (s : State) (p : Nat) : State :=
  let keep (k : Nat) : Bool := k / 8 ≠ p
  let s := rset s (aFabPortStatus p) 63 60 1
  { s with fab := { s.fab with sent := tkeep keep s.fab.sent, freed := tkeep keep s.fab.freed, rxFreed := tkeep keep s.fab.rxFreed } }

/-- A port goes DOWN: packets on the fibre are lost, queued ones are routed again. -/
def dropPort (s : State) (p : Nat) : State :=
  if !portUp s p then s
  else
    let queued := s.fab.held.filter (fun h => h.port = p && h.last = 0)
    let s := rset s (aFabPortStatus p) 63 60 0
    let s := { s with fab := { s.fab with held := s.fab.held.filter (fun h => h.port ≠ p) } }
    queued.foldl (fun s h =>
      if (pkMc h.orig) then countMc s p else routePacket s h.orig h.from_ h.own) s

/-! ### Registers (R307, R316, R320, R321, R333, R411) -/

def fabOnly (req : Req) (a : Nat) (f : State → Nat × State) (s : State) : Nat × State :=
  hostOnly req unitFirmware 0x9023 a f s

/-- A fabric Bell is enabled. -/
def bellEnabled (s : State) : Bool := (List.range 6).any (fun b => rbit s (aBelCtrl b) 63)

/-- FAB_CFG without IDV and DLINE: the fields that R411 guards. -/
def identOf (w : Word) : Nat × Nat × Nat := (fld w 63 63, fld w 47 36, fld w 15 0)

def wFabCfg (s : State) (v : Word) : Nat × State :=
  if identOf v ≠ identOf (regGet s aFabCfg) ∧ bellEnabled s then refused s unitHostLink 0xA030
  else (0, typedWrite s aFabCfg v)

def wFabEpoch (s : State) (v : Word) : Nat × State := (0, typedWrite s aFabEpoch v)

/-- A write to FAB_EPOCH from the module itself: SEEN alone (R333). -/
def wFabSeen (s : State) (v : Word) : Nat × State := (0, typedWrite s aFabEpoch (setBit v 63 (rbit s aFabEpoch 63)))

def fabRefuse (s : State) (code : Nat) (flow : Nat := 0) : Nat × State := refused s (openUnit code) code (BitVec.ofNat 64 flow)

def wFabTimer (s : State) (v : Word) : Nat × State :=
  if fld v 47 32 = 0 ∨ fld v 23 16 = 0 then fabRefuse s 0x4032 else (0, typedWrite s aFabTimer v)

/-- A write to FAB_MQq_RING; LOG2SZ outside 4 to 12 is refused with it (DEDUCED, log entry 35). -/
def wMqRing (s : State) (q : Nat) (v : Word) : Nat × State :=
  if (rbit s (aFabMqRing q) 63 ∧ bit v 63) ∨ (bit v 63 ∧ (fld v 51 48 < 4 ∨ 12 < fld v 51 48)) then fabRefuse s 0x4032
  else (0, typedWrite s (aFabMqRing q) v)

/-- A write to HEAD that would pass TAIL is refused (R307). -/
def wMqPtr (s : State) (q : Nat) (v : Word) : Nat × State :=
  let h := rf s (aFabMqPtr q) 15 0
  let t := rf s (aFabMqPtr q) 31 16
  if (t + 65536 - h) % 65536 < (fld v 15 0 + 65536 - h) % 65536 then fabRefuse s 0x4032
  else (0, typedWrite s (aFabMqPtr q) v)

def wMqNote (s : State) (q : Nat) (v : Word) : Nat × State := (0, typedWrite s (aFabMqNote q) v)

/-- A routing-table write: refused to the live copy, and to the other one while OLD ≠ 0 (R316). -/
def wRoute (s : State) (b : Bool) (a : Nat) (v : Word) : Nat × State :=
  if b = rbit s aFabEpoch 63 ∨ oldCount s ≠ 0 then fabRefuse s 0x4031 else (0, typedWrite s a v)

def wFabMc (s : State) (g : Nat) (v : Word) : Nat × State :=
  if bit v 63 ∧ fld v 14 0 = 0 then fabRefuse s 0x4031 else (0, typedWrite s (aFabMc g) v)

/-- Another enabled context has the same PEER, CLASS and DIR. -/
def flowTwin (s : State) (n : Nat) (v : Word) : Bool :=
  (flowsListed s).any (fun m =>
    m ≠ n && flowEn s m && flowPeer s m = fld v 15 0 && flowClass s m = fld v 61 60 && flowRecv s m = bit v 62)

def wFlowCfg (s : State) (n : Nat) (v : Word) : Nat × State :=
  if bit v 63 ∧ (fld v 56 48 = 0 ∨ 256 < fld v 56 48 ∨ fld v 61 60 = 2 ∨ flowTwin s n v) then fabRefuse s 0x4032 n
  else (0, typedWrite s (aFabFlowCfg n) v)

def wFlowState (s : State) (n : Nat) (v : Word) : Nat × State := (0, if bit v 63 then resetFlow s n else s)

/-! ### The commands of chapter 11 that send, time out and write -/

/-- PACKET_SEND. -/
def execPacketSend (n : BitVec 16) (s : State) : Host.Outcome State Fault Refusal := .next (sendNext s n.toNat)

/-- FACK_SEND: only where an arrival is not yet covered. -/
def execFackSend (n : BitVec 16) (s : State) : Host.Outcome State Fault Refusal :=
  if flowRecv s n.toNat ∧ flowEn s n.toNat ∧ (flowOf s n.toNat).ackDue ∧ idValid s then .next (sendFack s n.toNat)
  else .next s

/-- RETRANSMIT. -/
def execRetransmit (n seq : BitVec 16) (s : State) : Host.Outcome State Fault Refusal :=
  .next (retransmit s n.toNat seq.toNat)

/-- ANSWER_TIMEOUT. -/
def execAnswerTimeout (n opid : BitVec 16) (s : State) : Host.Outcome State Fault Refusal :=
  .next (answerTimeout s n.toNat opid.toNat)

/-- PORT_DOWN of an optical port. -/
def execPortDown (p : BitVec 4) (s : State) : Host.Outcome State Fault Refusal :=
  if p.toNat < 6 then .next (dropPort s p.toNat) else .next s

/-- ROUTE_ENTRY_WRITE: `copyB` picks the copy. -/
def execRouteEntryWrite (req : Req) (copyB : Bool) (d : BitVec 16) (v : Word) (s : State) :
    Host.Outcome State Fault Refusal :=
  let a := if copyB then aFabRouteB d.toNat else aFabRouteA d.toNat
  answered (fabOnly req a (fun s => wRoute s copyB a v) s)

/-- INJ_WRITE: a write of INJ that leaves SEEN. -/
def execInjWrite (req : Req) (inj : Bool) (s : State) : Host.Outcome State Fault Refusal :=
  answered (fabOnly req aFabEpoch (fun s => wFabEpoch s (setBit 0 63 inj)) s)

/-- MULTICAST_ENTRY_WRITE. -/
def execMulticastEntryWrite (req : Req) (g : BitVec 12) (v : Word) (s : State) : Host.Outcome State Fault Refusal :=
  answered (fabOnly req (aFabMc g.toNat) (fun s => wFabMc s g.toNat v) s)

/-- FLOW_ENABLE: a write that sets EN. -/
def execFlowEnable (req : Req) (n : BitVec 16) (v : Word) (s : State) : Host.Outcome State Fault Refusal :=
  answered (fabOnly req (aFabFlowCfg n.toNat) (fun s => wFlowCfg s n.toNat (setBit v 63 true)) s)

/-- FLOW_RST. -/
def execFlowRst (req : Req) (n : BitVec 16) (s : State) : Host.Outcome State Fault Refusal :=
  answered (fabOnly req (aFabFlowState n.toNat) (fun s => wFlowState s n.toNat (setBit 0 63 true)) s)

/-- A tile engine's STG. -/
def isEngine : Req → Bool
  | .engine _ => true
  | _ => false

/-- MQ_HEAD_WRITE: the host, the management controller, or STG from the module itself (R333). -/
def execMqHeadWrite (req : Req) (q : BitVec 8) (v : Word) (s : State) : Host.Outcome State Fault Refusal :=
  if isEngine req then answered (wMqPtr s q.toNat v)
  else answered (fabOnly req (aFabMqPtr q.toNat) (fun s => wMqPtr s q.toNat v) s)

/-- FAB_CFG_WRITE. -/
def execFabCfgWrite (req : Req) (v : Word) (s : State) : Host.Outcome State Fault Refusal :=
  answered (fabOnly req aFabCfg (fun s => wFabCfg s v) s)

end Sys2Proof.Machine
end

