-- ==== Sys2Proof/Machine/Bells.lean ====
section
/-! DEFINITION. The optical engines (chapter 12): laser ports, training, rings, lanes, lane blocks and registers. -/

namespace Sys2Proof.Machine

def getBell (s : State) (b : Nat) : Bell := tget {} s.bell b
def setBell (s : State) (b : Nat) (x : Bell) : State := { s with bell := tset {} s.bell b x }

/-- The unit field of a Bell (Table 2.4). -/
def unitOfBell (b : Nat) : Nat := 0x5000 + b

/-- Lanes of a Bell (R336). -/
def lanesOf (b : Nat) : List Nat := if b = 6 then [0, 9, 18, 27] else List.range 32

/-- Least lanes in service of a link that is UP (R349). -/
def minLanes (b : Nat) : Nat := if b = 6 then 1 else 24

/-- Lane `l` is one of Bell `b`'s. -/
def isLane (b l : Nat) : Bool := (lanesOf b).contains l

def belEn (s : State) (b : Nat) : Bool := rbit s (aBelCtrl b) 63
def belState (s : State) (b : Nat) : Nat := rf s (aBelStatus b) 63 60
def txState (s : State) (b l : Nat) : Nat := rf s (aBelRingT b l) 63 60
def rxState (s : State) (b l : Nat) : Nat := rf s (aBelRingR b l) 63 60
def inServ (s : State) (b l : Nat) : Bool := rbit s (aBelLanes b) (32 + l)
def laneDisabled (s : State) (b l : Nat) : Bool := rbit s (aBelLanes b) l
def laneOff (s : State) (b l : Nat) : Bool := rbit s (aBelCtrl b) l

/-- The laser line that feeds a lane is present (R337). -/
def laneLit (s : State) (l : Nat) : Bool := rbit s (aBelLp (l / 8)) (40 + l % 8)

/-- The module that a fabric Bell's BEL_PEER names, for reports (R479). -/
def belPeerId (s : State) (b : Nat) : Nat := if b < 6 ∧ rbit s (aBelPeer b) 63 then rf s (aBelPeer b) 15 0 else 0

/-- Report of class 0x5 (Table 17.3). -/
def belReport (s : State) (b code : Nat) (lanes : Nat) (causes : Nat := 0) (a2 : Nat := 0) : State :=
  report s (unitOfBell b) code
    { peer := belPeerId s b, a0 := BitVec.ofNat 64 lanes, a1 := BitVec.ofNat 64 causes, a2 := BitVec.ofNat 64 a2 }

def laneMask (ls : List Nat) : Nat := ls.foldl (fun m l => m + 2 ^ l) 0

/-! ### Control messages that the module sends (R352, R356; Table 12.8) -/

def arithRev (s : State) : Nat := rf s aParamId 31 24

/-- Pads a control message to its 72 bytes. -/
def ctlMsg (bs : List Byte) : List Byte := bs ++ List.replicate (72 - bs.length) 0

/-- The STAT of a Bell: identity, port, ARITH_REV and STATE, RXOK of the receive rings that hold their own lane, STEPREQ of
    those that have not found it (R347), and the DISABLED lanes. -/
def ownStat (s : State) (b : Nat) : Stat :=
  { modId := BitVec.ofNat 16 (moduleId s), port := BitVec.ofNat 8 b, arith := BitVec.ofNat 8 (arithRev s)
    state := BitVec.ofNat 8 (belState s b)
    rxok := BitVec.ofNat 32 (laneMask ((lanesOf b).filter (fun l => rxState s b l = 2)))
    steq := (getBell s b).rxFail, dis := BitVec.ofNat 32 (rf s (aBelLanes b) 31 0) }

def statBytes (m : Stat) : List Byte :=
  ctlMsg ([1, 0] ++ natLE 2 m.modId.toNat ++ natLE 1 m.port.toNat ++ natLE 1 m.arith.toNat ++ natLE 1 m.state.toNat ++
    [0] ++ natLE 4 m.rxok.toNat ++ natLE 4 m.steq.toNat ++ natLE 4 m.dis.toNat)

/-- CREDIT: the cells freed on each VC of port `p` since it came UP (R357). -/
def creditBytes (s : State) (p : Nat) : List Byte :=
  ctlMsg ([2] ++ List.replicate 7 0 ++ (List.range 8).flatMap (fun v => natLE 4 (tget 0 s.fab.rxFreed (p * 8 + v))))

def timeBytes (stamp : Word) : List Byte := ctlMsg ([3] ++ List.replicate 7 0 ++ wordLE stamp)

def sendCtl (s : State) (b : Nat) (m : List Byte) : State := setBell s b { getBell s b with out := m :: (getBell s b).out }

/-- A Bell that trains or is UP sends its STAT in its blocks: a new one from here on where it has changed. The repeats of
    one message in later blocks are not listed (DESIGN CHOICE, log entry 136). -/
def speak (s : State) (b : Nat) : State :=
  let st := belState s b
  if st = 0 ∨ st = 7 ∨ (getBell s b).said = some (ownStat s b) then s
  else
    let m := ownStat s b
    sendCtl (setBell s b { getBell s b with said := some m }) b (statBytes m)

/-! ### Training (R351, Table 12.6) -/

/-- The link leaves UP: its port goes DOWN, or the host link goes to HOLD. -/
def belDown (s : State) (b : Nat) : State :=
  if b = 6 then hlFall s else dropPort s b

/-- Takes every lane out of service. -/
def clearLanes (s : State) (b : Nat) : State :=
  let s := rset (rset s (aBelLanes b) 63 32 0) (aBelStatus b) 59 54 0
  setBell s b { getBell s b with part := [] }

/-- Every ring dark, its heater at 0. -/
def darkRings (s : State) (b : Nat) : State :=
  (lanesOf b).foldl (fun s l =>
    let s := rset (rset (rset s (aBelRingT b l) 63 60 0) (aBelRingT b l) 57 48 0) (aBelRingT b l) 9 0 0
    rset (rset (rset s (aBelRingR b l) 63 60 0) (aBelRingR b l) 57 48 0) (aBelRingR b l) 9 0 0) s

/-- A Bell as training starts: the lanes that left in the sample are still to be named (R350), and the messages that it
    sent stay listed. -/
def Bell.fresh (x : Bell) : Bell := { left := x.left, causes := x.causes, los := x.los, out := x.out }

/-- A link stops: OFF, its rings dark. -/
def belOff (s : State) (b : Nat) : State :=
  let up := belState s b = 5
  let s := darkRings (clearLanes (rset s (aBelStatus b) 63 60 0) b) b
  let s := setBell s b (getBell s b).fresh
  if up then belDown s b else s

/-- The link goes to FAILED with 0x5_013. -/
def belFail (s : State) (b : Nat) : State :=
  belReport (rset s (aBelStatus b) 63 60 7) b 0x5013 (rf s (aBelLanes b) 63 32)

/-- Lanes that may still come into service. -/
def canServe (s : State) (b : Nat) : Nat :=
  ((lanesOf b).filter (fun l => !laneDisabled s b l && !(getBell s b).txFail.getLsbD l)).length

/-- A lane meets R349, but for the link being UP; LANEOFF keeps it out. -/
def laneMeets (s : State) (b l : Nat) : Bool :=
  txState s b l = 2 && rxState s b l = 2 && (getBell s b).rxok.getLsbD l && !laneDisabled s b l && !laneOff s b l

def setServ (s : State) (b l : Nat) (v : Bool) : State :=
  let s := rsetb s (aBelLanes b) (32 + l) v
  rset s (aBelStatus b) 59 54 (popcount 32 (rf s (aBelLanes b) 63 32))

/-- Every present transmit ring is locked or failed. -/
def txDone (s : State) (b : Nat) : Bool :=
  (lanesOf b).all (fun l => !laneLit s l || txState s b l = 2 || (getBell s b).txFail.getLsbD l || laneDisabled s b l)

/-- Every receive ring has found its lane or is DISABLED. -/
def rxDone (s : State) (b : Nat) : Bool := (lanesOf b).all (fun l => rxState s b l = 2 || laneDisabled s b l)

/-- Rings of every lane start to search, but a transmit ring without light. -/
def startTx (s : State) (b : Nat) : State :=
  (lanesOf b).foldl (fun s l => rset s (aBelRingT b l) 63 60 (if laneLit s l then 1 else 5)) s

def startRx (s : State) (b : Nat) : State := (lanesOf b).foldl (fun s l => rset s (aBelRingR b l) 63 60 1) s

/-- One move through Table 12.6 where its condition holds. 0x5_010 carries NLANES (DEDUCED, log entry 135). -/
def belMove (s : State) (b : Nat) : State :=
  let st := belState s b
  if st < 1 ∨ 4 < st then s
  else if canServe s b < minLanes b then belFail s b
  else if st = 1 then
    if minLanes b ≤ ((lanesOf b).filter (laneLit s)).length then startTx (rset s (aBelStatus b) 63 60 2) b else s
  else if st = 2 then
    if txDone s b then startRx (rset s (aBelStatus b) 63 60 3) b else s
  else if st = 3 then
    let x := getBell s b
    if rxDone s b ∧ 3 ≤ x.peer ∧ x.peer ≤ 5 then setBell (rset s (aBelStatus b) 63 60 4) b { x with matched := 0 } else s
  else if st = 4 then
    let ok := (lanesOf b).filter (laneMeets s b)
    if 16 ≤ (getBell s b).matched ∧ minLanes b ≤ ok.length then
      let s := rsetb (rset s (aBelStatus b) 63 60 5) (aBelStatus b) 53 false
      let s := ok.foldl (fun s l => setServ s b l true) s
      let s := setBell s b { getBell s b with los := (getBell s b).los &&& ~~~(BitVec.ofNat 32 (laneMask ok)) }
      let s := belReport s b 0x5010 (rf s (aBelStatus b) 59 54)
      if b = 6 then hlRise s (rf s (aBelStatus 6) 31 16) else raisePort s b
    else s
  else s

def belAdvance (s : State) (b : Nat) : State := belMove (belMove (belMove s b) b) b

/-- Training starts at LIGHT. -/
def belTrain (s : State) (b : Nat) : State :=
  let up := belState s b = 5
  let s := rcount (rset s (aBelStatus b) 63 60 1) (aBelStatus b) 15 8 1
  let s := darkRings (clearLanes s b) b
  let s := rset s (aBelLanes b) 31 0 0
  let s := (lanesOf b).foldl (fun s l => rsetb (rset s (aBelRingT b l) 59 58 0) (aBelRingR b l) 20 false) s
  let s := setBell s b (getBell s b).fresh
  speak (belAdvance (if up then belDown s b else s) b) b

/-! ### Lanes in service (R349, R350) -/

def causeBit : LeaveCause → Nat
  | .nolight => 0 | .rxlos => 1 | .pinned => 2 | .fec => 3 | .peer => 4

/-- A link that is UP with fewer lanes than its minimum trains afresh. -/
def belMinimum (s : State) (b : Nat) : State :=
  if belState s b = 5 ∧ rf s (aBelStatus b) 59 54 < minLanes b then
    belTrain (belReport s b 0x5013 (rf s (aBelLanes b) 63 32)) b
  else s

/-- Both rings of a lane search again from their last HEAT. -/
def relockLane (s : State) (b l : Nat) : State :=
  let s := setBell s b { getBell s b with rxFail := (getBell s b).rxFail &&& ~~~(BitVec.ofNat 32 (2 ^ l)) }
  let s := rset s (aBelRingT b l) 63 60 (if laneLit s l then 1 else 5)
  rset s (aBelRingR b l) 63 60 1

/-- The received power of a lane has fallen: 0x5_014 once every lane of its fibre has lost it (Table 12.5). -/
def loseLight (s : State) (b l : Nat) : State :=
  let x := getBell s b
  let los := x.los ||| BitVec.ofNat 32 (2 ^ l)
  let fibre := (lanesOf b).filter (fun k => k / 8 = l / 8)
  let s := setBell s b { x with los := los }
  if !x.los.getLsbD l ∧ fibre.all (fun k => los.getLsbD k) then belReport s b 0x5014 (laneMask fibre) else s

/-- A lane in service leaves it for a cause of Table 12.5. The link's minimum is tested once every lane that leaves with it has left
    (R350). -/
def leaveOne (s : State) (b l : Nat) (c : LeaveCause) : State :=
  let s := if c = .rxlos ∧ belState s b ≠ 0 ∧ isLane b l then loseLight s b l else s
  if belState s b ≠ 5 ∨ !inServ s b l then s
  else
    let s := relockLane (setServ s b l false) b l
    let x := getBell s b
    setBell s b { x with
      left := x.left ||| BitVec.ofNat 32 (2 ^ l), causes := x.causes ||| BitVec.ofNat 5 (2 ^ causeBit c)
      part := tset [] x.part l [] }

/-- One lane leaves. -/
def leaveLane (s : State) (b l : Nat) (c : LeaveCause) : State :=
  let t := leaveOne s b l c
  if belState s b ≠ 5 ∨ !inServ s b l then t else speak (belMinimum t b) b

/-- A lane becomes DISABLED with 0x5_012. -/
def disableLane (s : State) (b l : Nat) : State :=
  if laneDisabled s b l then s
  else
    let s := rsetb s (aBelLanes b) l true
    let s := rset (rset s (aBelRingT b l) 63 60 4) (aBelRingR b l) 63 60 4
    let s := if inServ s b l then setServ s b l false else s
    belReport s b 0x5012 (2 ^ l)

/-- A relock that failed; the third in a row disables the lane. -/
def relockFailed (s : State) (b l : Nat) : State :=
  let x := getBell s b
  let n := tget 0 x.relocks l + 1
  let s := setBell s b { x with relocks := tset 0 x.relocks l n }
  if n = 3 then belMinimum (disableLane s b l) b else s

/-- Lanes of an UP link that meet R349 again rejoin with 0x5_015; lanes that LANEOFF names leave. -/
def rejoinLanes (s : State) (b : Nat) : State :=
  if belState s b ≠ 5 then s
  else
    let s := (lanesOf b).foldl (fun s l =>
      if laneMeets s b l ∧ !inServ s b l then
        let x := getBell s b
        let s := setBell s b { x with relocks := tset 0 x.relocks l 0, los := x.los &&& ~~~(BitVec.ofNat 32 (2 ^ l)) }
        belReport (setServ s b l true) b 0x5015 (2 ^ l)
      else if laneOff s b l ∧ inServ s b l then setServ s b l false
      else s) s
    belMinimum s b

/-- After anything changed at a Bell. -/
def belSettle (s : State) (b : Nat) : State := speak (rejoinLanes (belAdvance s b) b) b

/-! ### Laser ports (R339) -/

/-- STATE of a laser port: a line above +20.0 dBm is HIGH. -/
def lpState (lines : Nat) (high : Bool) : Nat :=
  if high then 3 else if lines = 0 then 0 else if lines = 255 then 2 else 1

/-- A laser-port event of port `p` (R414). -/
def lpReport (s : State) (p code lines : Nat) : State :=
  if rbit s aMgtSite (56 + p) then report s unitFirmware code { a0 := BitVec.ofNat 64 (p + lines * 256) } else s

/-- The lanes that absent lines feed leave service on every Bell. -/
def darkenLane (s : State) (b l : Nat) : State :=
  if belState s b < 2 then s
  else
    let s := if txState s b l = 3 then rset s (aBelRingT b l) 59 58 (rf s (aBelRingT b l) 59 58 - 1) else s
    let was := inServ s b l
    let s := if txState s b l = 0 ∨ txState s b l = 4 then s else rset s (aBelRingT b l) 63 60 5
    if was then leaveOne s b l .nolight else s

/-- Present at +14.0 dBm, which is 25,118.9 µW; HIGH above +20.0 dBm, which is 100,000 µW. -/
def linePresent (uw : Nat) : Bool := 25119 ≤ uw

/-- The rings that lines of port `p` feed relock from their last HEAT. -/
def relight (s : State) (p lines : Nat) : State :=
  (List.range 7).foldl (fun s b =>
    (lanesOf b).foldl (fun s l =>
      if l / 8 = p ∧ lines.testBit (l % 8) ∧ txState s b l = 5 then rset s (aBelRingT b l) 63 60 1 else s) s) s

/-- A measurement of a port: a line measured absent counts as present again only by `laserReturn`. -/
def laserMeasure (s : State) (p : Nat) (uw : List Nat) : State :=
  let old := rf s (aBelLp p) 47 40
  let lost := tget 0 s.lpLost p
  let lit := laneMask ((List.range 8).filter (fun w => linePresent (uw.getD w 0)))
  let seen := lit &&& (255 ^^^ lost)
  let gone := old &&& (255 ^^^ seen)
  let high := uw.any (fun v => decide (100000 < v))
  let wasHigh := rf s (aBelLp p) 63 60 = 3
  let s := rset (rset s (aBelLp p) 47 40 seen) (aBelLp p) 15 0 (satAt 65535 (uw.foldl (· + ·) 0 / 10))
  let s := rset s (aBelLp p) 63 60 (lpState seen high)
  let s := { s with lpLost := tset 0 s.lpLost p (lost ||| (255 ^^^ lit)) }
  let s := if gone ≠ 0 then lpReport s p 0x5001 gone else s
  let s := if high ∧ !wasHigh then lpReport s p 0x5003 seen else s
  let s := (List.range 7).foldl (fun s b =>
    (lanesOf b).foldl (fun s l => if l / 8 = p ∧ gone.testBit (l % 8) then darkenLane s b l else s) s) s
  (List.range 7).foldl belSettle (relight s p (seen &&& (255 ^^^ old)))

/-- A lost line has stayed present for 100 ms. -/
def laserReturn (s : State) (p w : Nat) : State :=
  let lost := tget 0 s.lpLost p
  if !lost.testBit w then s
  else
    let lines := rf s (aBelLp p) 47 40 ||| 2 ^ w
    let s := { s with lpLost := tset 0 s.lpLost p (lost - 2 ^ w) }
    let s := rset s (aBelLp p) 47 40 lines
    let s := rset s (aBelLp p) 63 60 (lpState lines (rf s (aBelLp p) 63 60 = 3))
    let s := lpReport s p 0x5002 (2 ^ w)
    (List.range 7).foldl belSettle (relight s p (2 ^ w))

/-! ### Drive (R341) -/

/-- The level of a pair of bits, the one sent first before: Gray-coded. -/
def pamLevel (first second : Bool) : Nat := if first then (if second then 2 else 3) else if second then 1 else 0

/-- The code with which the modulator DAC of a lane's ring drives a pair of bits: that level of LEVELS. -/
def driveCode (s : State) (b l : Nat) (first second : Bool) : Nat :=
  let k := 24 + 6 * pamLevel first second
  rf s (aBelRingT b l) (k + 5) k

/-! ### Rings (R343 to R348) -/

/-- Entry M[i][j] of bus `m`. -/
def xtEntry (s : State) (b m i j : Nat) : Int :=
  sext 16 (rf s (aBelXt b (m * 16 + 2 * i + j / 4)) (16 * (j % 4) + 15) (16 * (j % 4)))

/-- HEAT of ring `r`, 0 to 31 transmit and 32 to 63 receive. -/
def ringAddr (b r : Nat) : Nat := if r < 32 then aBelRingT b r else aBelRingR b (r - 32)
def ringHeat (s : State) (b r : Nat) : Nat := rf s (ringAddr b r) 57 48

/-- The heater code of ring `i` of bus `m` (R343). -/
def dacOf (s : State) (b m i : Nat) : Nat :=
  let js := if b = 6 then [m % 4] else List.range 8
  let acc := js.foldl (fun a j => a + xtEntry s b m i j * (ringHeat s b (m * 8 + j) : Int)) (0 : Int)
  (iclamp 0 1023 ((sext 40 (low 40 acc) + 8192) / 16384)).toNat

/-- Writes the heater codes of every ring. -/
def setDacs (s : State) (b : Nat) : State :=
  (List.range 8).foldl (fun s m =>
    (if b = 6 then [m % 4] else List.range 8).foldl (fun s i =>
      rset s (ringAddr b (m * 8 + i)) 9 0 (dacOf s b m i)) s) s

/-- One ring of a lock-loop iteration: at most 4 codes, and only while LOCKED (R345). -/
def ringIterate (s : State) (b r : Nat) (d : Int) : State :=
  if rf s (ringAddr b r) 63 60 ≠ 2 then setBell s b { getBell s b with pinned := tset 0 (getBell s b).pinned r 0 }
  else
    let h := (iclamp 0 1023 ((ringHeat s b r : Int) + iclamp (-4) 4 d)).toNat
    let s := rset s (ringAddr b r) 57 48 h
    let x := getBell s b
    let n := if h = 0 ∨ h = 1023 then tget 0 x.pinned r + 1 else 0
    let s := setBell s b { x with pinned := tset 0 x.pinned r n }
    if n = 10 then leaveOne s b (r % 32) .pinned else s

def lockIterate (s : State) (b : Nat) (ds : List Int) : State :=
  if belState s b = 0 then s
  else
    let s := (lanesOf b).foldl (fun s l =>
      ringIterate (ringIterate s b l (ds.getD l 0)) b (32 + l) (ds.getD (32 + l) 0)) s
    belSettle (setDacs s b) b

/-- It is a transmit ring's turn: no lower ring of its row still searches. -/
def txTurn (s : State) (b l : Nat) : Bool :=
  (lanesOf b).all (fun k => !(k / 8 = l / 8 && decide (k < l) && txState s b k = 1 && !(getBell s b).txFail.getLsbD k))

/-- A searching transmit ring finds its line, or reaches HEAT 1023 without one (R346). -/
def txLock (s : State) (b l heat : Nat) (found : Bool) : State :=
  if txState s b l ≠ 1 ∨ !isLane b l ∨ !txTurn s b l ∨ (getBell s b).txFail.getLsbD l then s
  else if found then belSettle (rset (rset s (aBelRingT b l) 63 60 2) (aBelRingT b l) 57 48 heat) b
  else
    let s := rset s (aBelRingT b l) 57 48 1023
    if belState s b = 5 then belSettle (relockFailed s b l) b
    else
      let x := getBell s b
      belSettle (setBell s b { x with txFail := x.txFail ||| BitVec.ofNat 32 (2 ^ l) }) b

/-- It is a receive ring's turn: no lower ring of its bus still searches for the first time (R347). -/
def rxTurn (s : State) (b l : Nat) : Bool :=
  (lanesOf b).all (fun k => !(k / 8 = l / 8 && decide (k < l) && rxState s b k = 1 && !(getBell s b).rxFail.getLsbD k))

/-- A receive ring's scan ends (R347). -/
def rxScan (s : State) (b l heat : Nat) (found : Bool) (idx : Option (BitVec 3)) : State :=
  if rxState s b l ≠ 1 ∨ !isLane b l ∨ belState s b < 3 ∨ !rxTurn s b l then s
  else
    let x := getBell s b
    let bitl := BitVec.ofNat 32 (2 ^ l)
    let a := aBelRingR b l
    if found then
      let s := rset (rset (rset (rsetb s a 20 true) a 23 21 (l % 8)) a 57 48 heat) a 63 60 2
      belSettle (setBell s b { x with rxFail := x.rxFail &&& ~~~bitl }) b
    else
      let s := match idx with
        | some i => rset (rsetb s a 20 true) a 23 21 i.toNat
        | none => rsetb s a 20 false
      let s := rset s a 57 48 1023
      let s := setBell s b { x with rxFail := x.rxFail ||| bitl }
      belSettle (if belState s b = 5 then relockFailed s b l else s) b

/-- The lowest lane of a row for which the peer's STAT asks a step (R348). -/
def stepLane (s : State) (b row : Nat) : Option Nat :=
  (lanesOf b).find? (fun l => l / 8 = row && (getBell s b).steq.getLsbD l && !laneDisabled s b l)

/-- No ring of the row is stepping. -/
def rowQuiet (s : State) (b row : Nat) : Bool := (lanesOf b).all (fun l => !(l / 8 = row && txState s b l = 3))

/-- A ring that stands still can step: one that is locked, has no light, or has found no line. -/
def mayStep (s : State) (b l : Nat) : Bool :=
  txState s b l = 2 || txState s b l = 5 || (txState s b l = 1 && (getBell s b).txFail.getLsbD l)

/-- R348: the ring of the lowest failing lane moves one resonance order. -/
def ringStep (s : State) (b row : Nat) : State :=
  match stepLane s b row with
  | none => s
  | some l =>
    if mayStep s b l ∧ rowQuiet s b row ∧ belState s b ≠ 0 then
      rset (rset s (aBelRingT b l) 63 60 3) (aBelRingT b l) 59 58 (satAt 3 (rf s (aBelRingT b l) 59 58 + 1))
    else s

/-- The step went the way that LOCKMAP gives: upward in HEAT where the lane's bit is 1, downward where it is 0. -/
def stepsRight (s : State) (b l heat : Nat) : Bool :=
  if rbit s (aBelLockmap b) l then decide (ringHeat s b l ≤ heat) else decide (heat ≤ ringHeat s b l)

/-- A step and its rescan end: the ring locks there, where it has light; the third without the lane found disables it. -/
def ringStepEnd (s : State) (b l heat : Nat) (found : Bool) : State :=
  if txState s b l ≠ 3 ∨ !isLane b l ∨ !stepsRight s b l heat then s
  else
    let s := rset (rset s (aBelRingT b l) 63 60 (if laneLit s l then 2 else 5)) (aBelRingT b l) 57 48 heat
    let s := setBell s b { getBell s b with txFail := (getBell s b).txFail &&& ~~~(BitVec.ofNat 32 (2 ^ l)) }
    belSettle (if !found ∧ rf s (aBelRingT b l) 59 58 = 3 then disableLane s b l else s) b

/-! ### Control messages (R352, R356, R357) -/

/-- A STAT message names the expected peer (R352, R397). -/
def statMatches (s : State) (b : Nat) (m : Stat) : Bool :=
  if b = 6 then m.port = 6 else m.modId.toNat = rf s (aBelPeer b) 15 0 && m.port.toNat = rf s (aBelPeer b) 50 48

/-- The peer marks lanes DISABLED: both ends do (R348). -/
def peerDisables (s : State) (b : Nat) (m : BitVec 32) : State :=
  (lanesOf b).foldl (fun s l => if m.getLsbD l then disableLane s b l else s) s

/-- Lanes whose RXOK bit the peer has cleared leave service. -/
def peerClears (s : State) (b : Nat) (m : BitVec 32) : State :=
  (lanesOf b).foldl (fun s l => if m.getLsbD l then s else leaveOne s b l .peer) s

def statCheck (s : State) (b : Nat) (m : Stat) : State :=
  if belState s b ≠ 4 then s
  else
    let a := aBelStatus b
    let s := rset (rset (rset s a 31 16 m.modId.toNat) a 50 48 m.port.toNat) a 47 40 m.arith.toNat
    if statMatches s b m then
      let x := getBell s b
      setBell s b { x with matched := x.matched + 1 }
    else
      belReport (rsetb (rset s a 63 60 6) a 53 true) b 0x5020 0 0 (m.modId.toNat + m.port.toNat * 2 ^ 16)

/-- A STAT message arrives. A different ARITH_REV raises 0x4_0C2 on Bell H too, whose byte no rule excepts (R57; DESIGN
    CHOICE, log entry 126). -/
def takeStat (s : State) (b : Nat) (m : Stat) : State :=
  let st := belState s b
  if st = 0 ∨ st = 6 ∨ st = 7 then s
  else
    let x := getBell s b
    let s := setBell s b { x with rxok := m.rxok, steq := m.steq, peer := m.state.toNat }
    let s :=
      if m.arith.toNat ≠ arithRev s ∧ !x.arithSaid then
        report (setBell s b { getBell s b with arithSaid := true }) (openUnit 0x40C2) 0x40C2
      else s
    let s := peerDisables s b m.dis
    let s := if belState s b = 5 then peerClears s b m.rxok else s
    belSettle (statCheck s b m) b

/-- A CREDIT message: counts for VC 0 to 7. -/
def takeCredit (s : State) (b : Nat) (cs : List Nat) : State :=
  if 6 ≤ b ∨ !portUp s b then s
  else pump ((List.range 8).foldl (fun s v => creditVc s b v (cs.getD v 0)) s) b

/-- STAT fields of a 72 B control message (Table 12.8). -/
def statOf (m : List Byte) : Stat :=
  let n (o k : Nat) : Nat := leNat ((m.drop o).take k)
  { modId := BitVec.ofNat 16 (n 2 2), port := BitVec.ofNat 8 (n 4 1), arith := BitVec.ofNat 8 (n 5 1)
    state := BitVec.ofNat 8 (n 6 1), rxok := BitVec.ofNat 32 (n 8 4), steq := BitVec.ofNat 32 (n 12 4)
    dis := BitVec.ofNat 32 (n 16 4) }

def creditOf (m : List Byte) : List Nat := (List.range 8).map (fun v => leNat ((m.drop (8 + 4 * v)).take 4))

/-! ### Lane blocks (R354, R355) -/

/-- The decoder of a codeword corrects up to 15 symbols (R353). -/
def maxErrs : Nat := 15

/-- The codewords of a block whose count of wrong symbols `p` picks. -/
def blockWords (blk : LaneBlock) (p : Nat → Bool) : BitVec 9 :=
  BitVec.ofNat 9 (laneMask ((List.range 9).filter (fun i => p (blk.errs.getD i 0))))

/-- Codewords corrected, and codewords that could not be. (DESIGN CHOICE, log entry 140.) -/
def blockCorr (blk : LaneBlock) : BitVec 9 := blockWords blk (fun n => decide (1 ≤ n ∧ n ≤ maxErrs))
def blockBad (blk : LaneBlock) : BitVec 9 := blockWords blk (fun n => decide (maxErrs < n))

/-- Codeword of a message bit. -/
def codewordOf (bitNo : Nat) : Nat := bitNo / 5140

/-- The first `n` bytes of cell `c` meet an uncorrectable codeword. -/
def cellBad (blk : LaneBlock) (c n : Nat) : Bool :=
  let lo := codewordOf (2740 + 512 * c)
  let hi := codewordOf (2740 + 512 * c + 8 * n - 1)
  n ≠ 0 && ((blockBad blk).getLsbD lo || (blockBad blk).getLsbD hi)

/-- Bytes of a packet or a frame, from its first cell: header, body and CRC. -/
def wireBytes (host : Bool) (bs : List Byte) : Nat :=
  if host then 28 + fld (wordAt bs 0) 57 48 else 36 + fld (wordAt bs 8) 31 22

/-- Walks the cells of a block: the packets that end in it, and what runs on. -/
def walkCells (host : Bool) (blk : LaneBlock) : List (List Byte) → Nat → List Byte → List (List Byte) × List Byte
  | [], _, part => ([], part)
  | cell :: cs, c, part =>
    let part := if blk.start.getLsbD c then [] else part
    if !blk.valid.getLsbD c ∨ (part = [] ∧ !blk.start.getLsbD c) then walkCells host blk cs (c + 1) []
    else
      let all := part ++ cell
      let need := wireBytes host all
      if cellBad blk c (Nat.min 64 (need - part.length)) then walkCells host blk cs (c + 1) []
      else if need ≤ all.length then
        let (ps, rest) := walkCells host blk cs (c + 1) []
        (all.take need :: ps, rest)
      else walkCells host blk cs (c + 1) all

/-- A fabric packet from its bytes. -/
def packetOf (bs : List Byte) : Packet :=
  let p : Packet :=
    { w0 := wordAt bs 0, w1 := wordAt bs 8, w2 := wordAt bs 16, w3 := wordAt bs 24
      payload := (bs.drop 32).take (bs.length - 36) }
  { p with crcOk := crc32 (pkCovered p) = leNat (bs.drop (bs.length - 4)) }

/-- A host-link frame from its bytes. -/
def frameOf (bs : List Byte) : Frame :=
  { w0 := wordAt bs 0, w1 := wordAt bs 8, w2 := wordAt bs 16, body := (bs.drop 24).take (bs.length - 28)
    crcOk := crc32 (bs.take (bs.length - 4)) = leNat (bs.drop (bs.length - 4)) }

/-- The counts of a block's FEC; more than 16 uncorrectable codewords within 1 ms take the lane out (Table 12.5). -/
def blockFec (s : State) (b l : Nat) (blk : LaneBlock) : State :=
  let bad := popcount 9 (blockBad blk).toNat
  let s := rcount s (aBelFec b) 63 32 (popcount 9 (blockCorr blk).toNat)
  let s := rcount s (aBelFec b) 31 0 bad
  let x := getBell s b
  let n := tget 0 x.fecWin l + bad
  let s := setBell s b { x with fecWin := tset 0 x.fecWin l n }
  if 16 < n then leaveLane s b l .fec else s

/-- The wire bytes of the packets that a block completes on a lane, and the state that keeps what runs on. -/
def blockPackets (s : State) (b l : Nat) (blk : LaneBlock) : List (List Byte) × State :=
  let x := getBell s b
  if (blockBad blk).getLsbD 0 ∨ blk.mode ≠ 1 ∨ belState s b ≠ 5 then ([], setBell s b { x with part := tset [] x.part l [] })
  else
    let (ps, rest) := walkCells (b = 6) blk blk.cells 0 (tget [] x.part l)
    (ps, setBell s b { x with part := tset [] x.part l rest })

/-! ### Temperature (R345) -/

/-- A Bell meets its Calipers reading, in °C. -/
def bellTemp (s : State) (b : Nat) (t : Int) : State :=
  let was := rbit s (aBelTemp b) 0
  let d := t - sext 8 (rf s (aBelTemp b) 47 40)
  let out := decide (25 < d ∨ d < -25)
  let s := rsetb (rset s (aBelTemp b) 15 8 (low 8 t)) (aBelTemp b) 0 out
  if out ∧ !was ∧ !dieIsolated s (bellDie b) then belReport s b 0x5030 0 else s

/-! ### Registers (R359) -/

def belOnly (req : Req) (a : Nat) (f : State → Nat × State) (s : State) : Nat × State :=
  hostOnly req unitFirmware 0x9024 a f s

def belRefuse (s : State) (b : Nat) : Nat × State := refused s (unitOfBell b) 0x5040

/-- A write to BEL_CTRL. A write that sets EN needs PV and IDV, but on Bell H (R352, R397).
    (DEDUCED, log entry 65.) -/
def wBelCtrl (s : State) (b : Nat) (v : Word) : Nat × State :=
  let was := belEn s b
  if bit v 63 ∧ b < 6 ∧ (!rbit s (aBelPeer b) 63 ∨ !idValid s) then belRefuse s b
  else
    let s := typedWrite s (aBelCtrl b) v
    if !bit v 63 then (0, if was then belOff s b else s)
    else if !was ∨ bit v 62 then (0, belTrain s b)
    else (0, rejoinLanes s b)

/-- A write that EN = 1 refuses: BEL_PEER, LOCKMAP, TCAL. -/
def wBelGuarded (s : State) (b a : Nat) (v : Word) : Nat × State :=
  if belEn s b then belRefuse s b else (0, typedWrite s a v)

/-- A write to LEVELS of a transmit ring: L0 < L1 < L2 < L3 (R341). Bell H has only its own rings. -/
def wBelRing (s : State) (b l : Nat) (v : Word) : Nat × State :=
  if !isLane b l then (0, s)
  else if belEn s b ∨ !(fld v 29 24 < fld v 35 30 ∧ fld v 35 30 < fld v 41 36 ∧ fld v 41 36 < fld v 47 42) then belRefuse s b
  else (0, typedWrite s (aBelRingT b l) v)

/-! ### The commands of chapter 12 that carry no packet -/

/-- LASER_MEASUREMENT: the power of each line of a port in µW. -/
def execLaserMeasurement (p : BitVec 2) (uw : List Nat) (s : State) : Host.Outcome State Fault Refusal :=
  .next (laserMeasure s p.toNat uw)

/-- LASER_LINE_RETURN. -/
def execLaserLineReturn (p : BitVec 2) (w : BitVec 3) (s : State) : Host.Outcome State Fault Refusal :=
  .next (laserReturn s p.toNat w.toNat)

/-- BELL_ENABLE: a write that sets EN. -/
def execBellEnable (req : Req) (b : BitVec 3) (v : Word) (s : State) : Host.Outcome State Fault Refusal :=
  if b.toNat < 7 then answered (belOnly req (aBelCtrl b.toNat) (fun s => wBelCtrl s b.toNat (setBit v 63 true)) s) else .next s

/-- BELL_DISABLE: a write that clears EN. -/
def execBellDisable (req : Req) (b : BitVec 3) (v : Word) (s : State) : Host.Outcome State Fault Refusal :=
  if b.toNat < 7 then answered (belOnly req (aBelCtrl b.toNat) (fun s => wBelCtrl s b.toNat (setBit v 63 false)) s) else .next s

/-- BELL_RETRAIN: a write of 1 to RETRAIN that leaves the other fields. -/
def execBellRetrain (req : Req) (b : BitVec 3) (s : State) : Host.Outcome State Fault Refusal :=
  if b.toNat < 7 then
    answered (belOnly req (aBelCtrl b.toNat)
      (fun s => wBelCtrl s b.toNat (setBit (regGet s (aBelCtrl b.toNat)) 62 true)) s)
  else .next s

/-- LOCK_ITERATION: the move each ring's loop asks for, transmit rings 0 to 31 and then receive rings. -/
def execLockIteration (b : BitVec 3) (ds : List Int) (s : State) : Host.Outcome State Fault Refusal :=
  if b.toNat < 7 then .next (lockIterate s b.toNat ds) else .next s

/-- TX_RING_LOCK. -/
def execTxRingLock (b : BitVec 3) (l : BitVec 5) (heat : BitVec 10) (found : Bool) (s : State) :
    Host.Outcome State Fault Refusal :=
  if b.toNat < 7 then .next (txLock s b.toNat l.toNat heat.toNat found) else .next s

/-- RX_RING_SCAN. -/
def execRxRingScan (b : BitVec 3) (l : BitVec 5) (heat : BitVec 10) (found : Bool) (idx : Option (BitVec 3)) (s : State) :
    Host.Outcome State Fault Refusal :=
  if b.toNat < 7 then .next (rxScan s b.toNat l.toNat heat.toNat found idx) else .next s

/-- RING_STEP. -/
def execRingStep (b : BitVec 3) (row : BitVec 2) (s : State) : Host.Outcome State Fault Refusal :=
  if b.toNat < 7 then .next (ringStep s b.toNat row.toNat) else .next s

/-- RING_STEP_COMPLETE. -/
def execRingStepComplete (b : BitVec 3) (l : BitVec 5) (heat : BitVec 10) (found : Bool) (s : State) :
    Host.Outcome State Fault Refusal :=
  if b.toNat < 7 then .next (ringStepEnd s b.toNat l.toNat heat.toNat found) else .next s

/-- STAT. -/
def execStat (b : BitVec 3) (m : Stat) (s : State) : Host.Outcome State Fault Refusal :=
  if b.toNat < 7 then .next (takeStat s b.toNat m) else .next s

/-- CREDIT. -/
def execCredit (b : BitVec 3) (cs : List (BitVec 32)) (s : State) : Host.Outcome State Fault Refusal :=
  .next (takeCredit s b.toNat (cs.map (fun c => c.toNat)))

/-- LANE_LEAVES_SERVICE. -/
def execLaneLeavesService (b : BitVec 3) (l : BitVec 5) (c : LeaveCause) (s : State) : Host.Outcome State Fault Refusal :=
  if b.toNat < 7 then .next (leaveLane s b.toNat l.toNat c) else .next s

/-- LANE_SERVICE_SAMPLE: one 0x5_011 names the lanes that left in the sample. -/
def execLaneServiceSample (b : BitVec 3) (s : State) : Host.Outcome State Fault Refusal :=
  let x := getBell s b.toNat
  if x.left = 0 ∨ 7 ≤ b.toNat then .next s
  else .next (belReport (setBell s b.toNat { x with left := 0, causes := 0 }) b.toNat 0x5011 x.left.toNat x.causes.toNat)

/-- TRAINING_TIMEOUT. -/
def execTrainingTimeout (b : BitVec 3) (s : State) : Host.Outcome State Fault Refusal :=
  let st := belState s b.toNat
  if b.toNat < 7 ∧ 1 ≤ st ∧ st ≤ 4 then .next (belFail s b.toNat) else .next s

/-- FAILED_RETRY. -/
def execFailedRetry (b : BitVec 3) (s : State) : Host.Outcome State Fault Refusal :=
  if b.toNat < 7 ∧ belState s b.toNat = 7 then .next (belTrain s b.toNat) else .next s

/-- EYEH_UPDATE: also the start of the lane's next 1 ms of uncorrectable codewords. -/
def execEyehUpdate (b : BitVec 3) (l : BitVec 5) (eye : BitVec 5) (s : State) : Host.Outcome State Fault Refusal :=
  if isLane b.toNat l.toNat ∧ b.toNat < 7 then
    let x := getBell s b.toNat
    .next (rset (setBell s b.toNat { x with fecWin := tset 0 x.fecWin l.toNat 0 }) (aBelRingR b.toNat l.toNat) 47 43 eye.toNat)
  else .next s

end Sys2Proof.Machine
end

