-- ==== Sys2Proof/Machine/Drone.lean ====
section
/-! DEFINITION. The Drone time base and alignment across modules (R36, R51 to R57). -/

namespace Sys2Proof.Machine

/-- The FRAC units that cycle `k` of the 25,000 of a slew by `t` adds: the shares come to `t` (R52). -/
def slewShare (t : Int) (k : Nat) : Int := t * (k + 1) / 25000 - t * k / 25000

/-- One reference cycle of the time base: the count moves on by a tick, more or less a slew's share. A cycle that would pass
    two tick edges stops at the first where a sample or an exchange falls due there (R51, R429). -/
def Drone.cycle (d : Drone) : Drone :=
  let p := d.sub + 4096 + slewShare d.slew d.ran
  let n : Nat := if p < 4096 then 0 else if p < 8192 ∨ (d.tick + 1).toNat % 250 = 0 then 1 else 2
  let done := decide (25000 ≤ d.ran + 1)
  { d with tick := d.tick + BitVec.ofNat 52 n, sub := p - 4096 * n
           slew := if done then 0 else d.slew, ran := if d.slew = 0 ∨ done then 0 else d.ran + 1 }

/-- The activations of the last 1 µs grow older by a cycle; after 25 cycles one is outside every 1 µs window that ends now
    or later (R427). -/
def Cluster.age (c : Cluster) : Cluster := { c with acts := (c.acts.map (· + 1)).filter (fun a => decide (a ≤ 25)) }

/-- NAKs sent grow older by a cycle; after 25 cycles one is outside every 1 µs (R289). -/
def TLane.age (y : TLane) : TLane := { y with naks := (y.naks.map (· + 1)).filter (fun a => decide (a ≤ 25)) }

/-- The links' marks of what happened just now grow older by a cycle: NAKs, and the first of link failures within 2 µs. -/
def Tenon.age (x : Tenon) : Tenon :=
  { x with
    ends := tmap {} (fun _ e => { e with lanes := tmap {} (fun _ y => y.age) e.lanes }) x.ends
    near := match x.near with
      | some (n, dep) => if n < 50 then some (n + 1, dep) else none
      | none => none }

def isRoot (s : State) : Bool := rbit s aMgtSite 61

/-- One cycle of the 25 MHz reference while the Drone domain has power: 40 ns pass (R36, R39). SLEW clears with the slew
    (Table 2.7); a module that has become the root ends its slew, since the root keeps its time (R54). -/
def tickOnce (s : State) : State :=
  if !s.pins.drone then s
  else
    let d := (if isRoot s then { s.drone with slew := 0, ran := 0 } else s.drone).cycle
    let s' := { s with
      drone := d, cluster := tmap {} (fun _ c => c.age) s.cluster, ten := s.ten.age
      fab := { s.fab with laneQ := drainLanes s.fab.laneQ }, hl := { s.hl with laneQ := drainLanes s.hl.laneQ } }
    if s.drone.slew ≠ 0 ∧ d.slew = 0 then rsetb s' aDrnAlign 61 false else s'

/-- A link takes part in alignment: trained, with a valid delay (Table 14.14). -/
def inAlignment (s : State) (p : Nat) : Bool := portUp s p && rbit s (aMgtDly p) 63

def alignLinks (s : State) : List Nat := (List.range 6).filter (inAlignment s)

/-- DRN_ALIGN as it reads (Table 2.7): ROOT follows the site description, and FREE reads 1 while no link takes part. -/
def readAlign (s : State) : Word :=
  setBit (setBit (regGet s aDrnAlign) 62 (rbit s aMgtSite 61)) 60 (alignLinks s).isEmpty

/-- FRAC units of 1 µs and of 10 ns (9.765625 ps each). -/
def fracUs : Int := 102400
def frac10ns : Int := 1024

/-- ALIGNED after a correction target (R55). (DEDUCED, log entry 58.) -/
def alignTarget (s : State) (t : Int) : State :=
  if -frac10ns ≤ t ∧ t ≤ frac10ns then
    let n := s.drone.inRange + 1
    let s := { s with drone := { s.drone with inRange := n } }
    if 16 ≤ n then rsetb { s with drone := { s.drone with everAligned := true } } aDrnAlign 63 true else s
  else
    let s := { s with drone := { s.drone with inRange := 0 } }
    if (t < -fracUs ∨ fracUs < t) ∧ aligned s then report (rsetb s aDrnAlign 63 false) (openUnit 0x40C0) 0x40C0 else s

/-- Steps the counter forward by the target at once, parts of a tick included (R52). -/
def stepForward (s : State) (t : Int) : State :=
  let (old, s) := takeStamp s unitFirmware
  let v := s.drone.sub + t
  let s := { s with drone := { s.drone with tick := s.drone.tick + BitVec.ofInt 52 (v / 4096), sub := v % 4096, slew := 0, ran := 0 } }
  let s := rcount s aDrnAlign 55 48 1
  report s (openUnit 0x40C1) 0x40C1 { a0 := old, a1 := old + BitVec.ofInt 64 t }

/-- Applies a correction target to a module that is not the time root (R52, R53). -/
def applyTarget (s : State) (t : Int) : State :=
  if !s.drone.everAligned ∧ fracUs < t then rsetb (stepForward s t) aDrnAlign 61 false
  else
    let c := iclamp (-fracUs) fracUs t
    rsetb { s with drone := { s.drone with slew := c, ran := 0 } } aDrnAlign 61 (decide (c = fracUs ∨ c = -fracUs))


/-- One exchange: the mean of the offsets on the links that took part. The root keeps its time (R54). -/
def exchange (s : State) (offs : Tbl Int) : State :=
  if offs.isEmpty then s
  else
    let t := if isRoot s then 0 else (offs.map (fun o => o.2)).foldl (· + ·) 0 / (offs.length : Int)
    let s := { s with drone := { s.drone with offs := [] } }
    let s := rset s aDrnAlign 45 40 (laneMask (offs.map (fun o => o.1)))
    let s := rset s aDrnAlign 31 0 (low 32 (iclamp (-(2 ^ 31 - 1)) (2 ^ 31 - 1) t))
    alignTarget (if isRoot s then s else applyTarget s t) t

/-- The lane of a link that carries its TIME frames: the lowest-numbered one in service (R356). -/
def timeLane (s : State) (p : Nat) : Nat := ((List.range 32).find? ((rf s (aBelLanes p) 63 32).testBit ·)).getD 0

/-- R51: a frame on every trained fabric link, each with the module's stamp. An exchange that lost a frame is closed
    with the offsets it has (R356). FRAC of the transmit stamp comes from the link's router port: R51 says the module's stamp and
    names no unit (DESIGN CHOICE, log entry 153). -/
def sendAlignment (s : State) : State :=
  if s.drone.tick.toNat % 25000 ≠ 0 ∨ !rbit s aMgtSite 62 then s
  else
    let s := exchange s s.drone.offs
    ((List.range 6).filter (portUp s)).foldl (fun s p =>
      let (w, s) := takeStamp s (unitOfPort p)
      { s with drone := { s.drone with sent := (p, timeLane s p, timeBytes w) :: s.drone.sent } }) s

/-- A time-alignment frame arrives (R51): offset = transmit stamp + delay - receive stamp. FRAC of the receive
    stamp too comes from the link's router port (DESIGN CHOICE, log entry 153). -/
def takeTime (s : State) (p : Nat) (tx : Word) : State :=
  if !inAlignment s p ∨ 6 ≤ p then s
  else
    let (rx, s) := takeStamp s (unitOfPort p)
    let o := (tx + BitVec.ofNat 64 (rf s (aMgtDly p) 31 0) - rx).toInt
    let s := { s with drone := { s.drone with offs := tinsert s.drone.offs p o } }
    if (alignLinks s).all (fun l => (tfind s.drone.offs l).isSome) then exchange s s.drone.offs else s

/-- TIME_ALIGNMENT_FRAME_SEND. -/
def execTimeAlignmentFrameSend (s : State) : Host.Outcome State Fault Refusal := .next (sendAlignment s)

/-- TIME. -/
def execTime (p : BitVec 3) (tx : Word) (s : State) : Host.Outcome State Fault Refusal := .next (takeTime s p.toNat tx)

end Sys2Proof.Machine
end

