-- ==== Sys2Proof/Machine/Chanter.lean ====
section
/-! DEFINITION. The Chanter (chapter 13): groups, lanes and their commands, the eight operations, the wire protocol,
barriers, failure, and the registers. -/

namespace Sys2Proof.Machine

def unitOfLane (l : Nat) : Nat := 0x3000 + l
def laneReq (l : Nat) : Req := .chanter (BitVec.ofNat 2 l)
/-- ARG0 of class 0x6 (Table 17.3). -/
def collArg (g q : Nat) : Word := BitVec.ofNat 64 (g + q * 2 ^ 16)

def chanDiv (a b : Nat) : Nat := (a + b - 1) / b

/-! ### Groups (R361 to R365) -/

/-- One axis of a descriptor: masked, ORG, EXT, STR, and the module's own coordinate. -/
structure Axis where
  masked : Bool
  org : Nat
  ext : Nat
  str : Nat
  own : Nat
  deriving DecidableEq, Repr

/-- The three axes X, Y, Z of a group under a CTRL word. -/
def axesOf (s : State) (g : Nat) (ctrl : Word) : List Axis :=
  let b := regGet s (aChnGrpBlk g)
  let c := regGet s aFabCfg
  [⟨bit ctrl 51, fld b 63 59, fld b 58 53, fld b 52 48, fld c 47 43⟩,
   ⟨bit ctrl 52, fld b 47 43, fld b 42 37, fld b 36 32, fld c 42 38⟩,
   ⟨bit ctrl 53, fld b 31 30, fld b 29 27, fld b 26 25, fld c 37 36⟩]

/-- Members on an axis. -/
def Axis.count (a : Axis) : Nat := if a.masked then a.ext else 1

/-- The coordinate of index `i`. -/
def Axis.coord (a : Axis) (i : Nat) : Nat := if a.masked then a.org + i * a.str else a.own

/-- This module's index, if it is a member (R361). -/
def Axis.index (a : Axis) : Option Nat :=
  if a.masked then (List.range a.ext).find? (fun i => a.org + i * a.str = a.own) else some 0

/-- A masked axis that R364 refuses; `top` is its largest coordinate. -/
def Axis.bad (top : Nat) (a : Axis) : Bool :=
  a.masked && (a.ext = 0 || a.str = 0 || decide (top < a.org + (a.ext - 1) * a.str))

/-- This module's rank (R362), if it is a member. -/
def rankIn : List Axis → Nat → Option Nat
  | [], r => some r
  | a :: as, r =>
    match a.index with
    | some i => rankIn as (r * a.count + i)
    | none => none

/-- Coordinates of the members in rank order. -/
def coordsOf : List Axis → List (List Nat)
  | [] => [[]]
  | a :: as => (List.range a.count).flatMap (fun i => (coordsOf as).map (fun cs => a.coord i :: cs))

/-- The module ID at coordinates (R363). -/
def mapId (s : State) : List Nat → Nat
  | [x, y, z] =>
    let e := x * 128 + y * 4 + z
    rf s (aChnMap (e / 4)) (e % 4 * 16 + 15) (e % 4 * 16)
  | _ => 0

/-- The member modules' IDs by module rank. -/
def groupMods (s : State) (g : Nat) (ctrl : Word) : List Nat := (coordsOf (axesOf s g ctrl)).map (mapId s)

def ctrlLocv (w : Word) : Bool := bit w 60
def ctrlLane (w : Word) : Nat := fld w 62 61
def ctrlLgrp (w : Word) : Nat := fld w 59 54
def ctrlGen (w : Word) : Nat := fld w 31 24
def ctrlMcen (w : Word) : Bool := bit w 50
def ctrlMcg (w : Word) : Nat := fld w 47 36
def ctrlChunk (w : Word) : Nat := 2 ^ (9 + fld w 35 32)

/-- The local size L (R362). -/
def localSize (s : State) (w : Word) : Nat := if ctrlLocv w then grpSize (regGet s (aTileGrp (ctrlLgrp w))) else 1

def grpOutst (s : State) (g : Nat) : Nat := rf s (aChnGrpStat g) 47 44
def grpNext (s : State) (g : Nat) : Nat := rf s (aChnGrpStat g) 63 48

/-- A write that sets EN is refused (R364). -/
def chnEnableBad (s : State) (g : Nat) (v : Word) : Bool :=
  let axes := axesOf s g v
  let nmod := (axes.map Axis.count).foldl (· * ·) 1
  let p := nmod * localSize s v
  ((axes.take 2).any (Axis.bad 31) || (axes.drop 2).any (Axis.bad 3)) || (rankIn axes 0).isNone ||
    decide (65536 < p) || (ctrlMcen v && ctrlLocv v) ||
    !inMemOrStore (rf s (aChnGrpStage g) 47 6 * 64) (16 * p * ctrlChunk v)

def pkGroup (p : Packet) : Nat := pkFlow p / 256

/-- Nothing of a group's earlier collectives stays when its EN is set or cleared (R364, R365). -/
def forgetGroup (s : State) (g : Nat) : State :=
  { s with chn := { s.chn with
      colls := s.chn.colls.filter (fun c => c.grp ≠ g)
      slots := s.chn.slots.filter (fun x => x.1 ≠ g)
      early := s.chn.early.filter (fun e => pkGroup e.pkt ≠ g) } }

def chnRefused (s : State) (code g : Nat) : Nat × State := refused s (openUnit code) code (BitVec.ofNat 64 g)

/-- A write to CHN_GRPn_CTRL. -/
def wChnCtrl (s : State) (g : Nat) (v : Word) : Nat × State :=
  let en := rbit s (aChnGrpCtrl g) 63
  let unit := unitOfLane (ctrlLane (if en then regGet s (aChnGrpCtrl g) else v))
  if (en ∧ (bit v 63 ∨ grpOutst s g ≠ 0)) ∨ (!en ∧ bit v 63 ∧ chnEnableBad s g v) then
    refused s unit 0x6001 (collArg g 0)
  else
    let s := typedWrite s (aChnGrpCtrl g) v
    (0, forgetGroup (if bit v 63 then rset s (aChnGrpStat g) 63 48 0 else s) g)

/-- A write to another word of a descriptor: refused while the group is enabled. -/
def wChnWord (s : State) (g a : Nat) (v : Word) : Nat × State :=
  if rbit s (aChnGrpCtrl g) 63 then refused s (unitOfLane (ctrlLane (regGet s (aChnGrpCtrl g)))) 0x6001 (collArg g 0)
  else (0, typedWrite s a v)

/-! ### Commands (Table 13.1) -/

def ChEntry.op (e : ChEntry) : Nat := fld e.w0 63 60
def ChEntry.ty (e : ChEntry) : Nat := fld e.w0 59 56
def ChEntry.rop (e : ChEntry) : Nat := fld e.w0 55 54
def ChEntry.outt (e : ChEntry) : Nat := fld e.w0 53 52
def ChEntry.anchor (e : ChEntry) : Int := sext 9 (fld e.w0 51 43)
def ChEntry.group (e : ChEntry) : Nat := fld e.w0 42 35
def ChEntry.tag (e : ChEntry) : Nat := fld e.w0 15 0
def ChEntry.root (e : ChEntry) : Nat := fld e.w1 63 48
def ChEntry.inA (e : ChEntry) : Nat := fld e.w1 47 0
def ChEntry.stile (e : ChEntry) : Nat := fld e.w2 60 48
def ChEntry.outA (e : ChEntry) : Nat := fld e.w2 47 0
def ChEntry.count (e : ChEntry) : Nat := fld e.w3 63 32
def ChEntry.waitSem (e : ChEntry) : Nat := fld e.w3 31 28
def ChEntry.waitCnt (e : ChEntry) : Nat := fld e.w3 27 20
def ChEntry.sigSem (e : ChEntry) : Nat := fld e.w3 19 16
def ChEntry.sigCnt (e : ChEntry) : Nat := fld e.w3 15 8
def ChEntry.rsd (e : ChEntry) : Nat := fld e.w3 35 32

/-- ES (Table 13.3). -/
def typeSize : Nat → Nat
  | 0 => 4 | 1 => 2 | 2 => 2 | 3 => 1 | 4 => 1 | 5 => 4 | 6 => 16 | _ => 0

/-- The element code of a floating TYPE. -/
def typeCode : Nat → Nat
  | 0 => 15 | 1 => 7 | 2 => 8 | 3 => 0 | _ => 1

/-- The element code of an OUTT. -/
def outtCode : Nat → Nat
  | 1 => 15 | 2 => 7 | _ => 8

/-- The operation of the entry reduces. (DEDUCED, log entry 52.) -/
def ChEntry.reduces (e : ChEntry) : Bool := e.op = 1 || e.op = 2 || e.op = 5

/-- Bytes of a result element. -/
def ChEntry.outSize (e : ChEntry) : Nat :=
  if e.reduces ∧ e.ty = 6 then (match e.outt with | 0 => 16 | 1 => 4 | _ => 2) else typeSize e.ty

def ChEntry.es (e : ChEntry) : Nat := typeSize e.ty

/-- A push status of a lane (R366). -/
def lanePushStatus (s : State) (l : Nat) (w0 : Word) : Nat :=
  if dieIsolated s (8 + l) then 6
  else if thermalHold s then 7
  else if !domOn s (96 + 4 * l + 1) ∨ inStandby s then 5
  else if (tget {} s.chn.lanes l).aborting then 3
  else if fld w0 63 60 = 0 ∨ 8 < fld w0 63 60 ∨ 1 < fld w0 34 33 then 8
  else if 16 ≤ (tget {} s.chn.lanes l).queue.length then 1
  else 0

def getLane (s : State) (l : Nat) : Lane := tget {} s.chn.lanes l
def setLane (s : State) (l : Nat) (x : Lane) : State := { s with chn := { s.chn with lanes := tset {} s.chn.lanes l x } }

def engineOf : Req → Option At
  | .engine e => some e
  | _ => none

/-- A push to a lane. -/
def lanePush (s : State) (l : Nat) (w0 w1 w2 w3 : Word) (by_ : Option At) : Nat × State :=
  let c := lanePushStatus s l w0
  if c ≠ 0 then (c, s)
  else
    let (st, s) := takeStamp s (unitOfLane l)
    let (n, s) := takeSeq s (unitOfLane l)
    (0, setLane s l { getLane s l with queue := (getLane s l).queue ++ [⟨w0, w1, w2, w3, st, n, by_, false, []⟩] })

/-! ### Collectives in flight -/

def Coll.is (g q : Nat) (c : Coll) : Bool := c.grp = g && c.seq = q

def collOf (s : State) (g q : Nat) : Option Coll := s.chn.colls.find? (Coll.is g q)

/-- Puts back a collective that is known. -/
def setColl (s : State) (c : Coll) : State :=
  { s with chn := { s.chn with colls := s.chn.colls.map (fun x => if Coll.is c.grp c.seq x then c else x) } }

def dropColl (s : State) (g q : Nat) : State :=
  { s with chn := { s.chn with colls := s.chn.colls.filter (fun x => !Coll.is g q x) } }

/-- Local size, member modules and ranks of a collective. -/
def Coll.L (c : Coll) : Nat := if ctrlLocv c.ctrl then c.tiles.length else 1
def Coll.nmod (c : Coll) : Nat := c.mods.length
def Coll.P (c : Coll) : Nat := c.nmod * c.L

/-- First element and size in elements of block `r` (R370). -/
def Coll.blockAt (c : Coll) (r : Nat) : Nat := r * chanDiv c.cmd.count c.P
def Coll.blockLen (c : Coll) (r : Nat) : Nat :=
  Nat.min (c.blockAt (r + 1)) c.cmd.count - Nat.min (c.blockAt r) c.cmd.count

/-- The dimension sizes of a RESHARD's descriptor. -/
def rsdDim (rsd : List Word) (d : Nat) : Nat := fld (rsd.getD 0 0) (63 - 16 * d) (48 - 16 * d)
def rsdSrc (rsd : List Word) (d : Nat) : Nat := fld (rsd.getD 1 0) (63 - 8 * d) (56 - 8 * d)
def rsdDst (rsd : List Word) (d : Nat) : Nat := fld (rsd.getD 1 0) (31 - 8 * d) (24 - 8 * d)
def rsdSord (rsd : List Word) (k : Nat) : Nat := fld (rsd.getD 2 0) (63 - 2 * k) (62 - 2 * k)
def rsdDord (rsd : List Word) (k : Nat) : Nat := fld (rsd.getD 2 0) (55 - 2 * k) (54 - 2 * k)
def rsdS (rsd : List Word) (d : Nat) : Int := sext 32 (fld (rsd.getD (3 + d / 2) 0) (63 - 32 * (d % 2)) (32 - 32 * (d % 2)))
def rsdT (rsd : List Word) (d : Nat) : Int := sext 32 (fld (rsd.getD (5 + d / 2) 0) (63 - 32 * (d % 2)) (32 - 32 * (d % 2)))

def product (xs : List Nat) : Nat := xs.foldl (· * ·) 1

/-- It moves nothing and acts as a BARRIER (R371). -/
def Coll.empty (c : Coll) : Bool :=
  c.cmd.op = 7 || (c.cmd.op = 8 && product ((List.range 4).map (rsdDim c.rsd)) = 0) || (c.cmd.op < 7 && c.cmd.count = 0)

/-- The rank of local tile `j` of module `m`. -/
def Coll.rank (c : Coll) (m j : Nat) : Nat := m * c.L + j

/-! ### RESHARD (R378, R379) -/

/-- Rank and byte offset of an element on one side: splits, order, strides. -/
def rsdPlace (dims split ord : List Nat) (stride : List Int) (i : List Nat) : Nat × Int :=
  let b (d : Nat) : Nat := dims.getD d 0 / split.getD d 1
  let q (d : Nat) : Nat := i.getD d 0 / b d
  let u (d : Nat) : Nat := i.getD d 0 % b d
  (ord.foldl (fun r d => r * split.getD d 1 + q d) 0,
   (List.range 4).foldl (fun a d => a + (u d : Int) * stride.getD d 0) 0)

/-- Global indices in order, i0 slowest. -/
def indices : List Nat → List (List Nat)
  | [] => [[]]
  | d :: ds => (List.range d).flatMap (fun i => (indices ds).map (fun r => i :: r))

/-- Every element: source rank and offset, destination rank and offset. -/
def rsdMoves (rsd : List Word) : List ((Nat × Int) × (Nat × Int)) :=
  let d4 (f : Nat → Nat) : List Nat := (List.range 4).map f
  let dims := d4 (rsdDim rsd)
  (indices dims).map (fun i =>
    (rsdPlace dims (d4 (rsdSrc rsd)) (d4 (rsdSord rsd)) ((List.range 4).map (rsdS rsd)) i,
     rsdPlace dims (d4 (rsdDst rsd)) (d4 (rsdDord rsd)) ((List.range 4).map (rsdT rsd)) i))

/-- The moves from module `a` to module `b`, by source tile and destination tile, each in global index order
    (R384; DESIGN CHOICE, log entry 37). -/
def Coll.moves (c : Coll) (a b : Nat) : List ((Nat × Int) × (Nat × Int)) :=
  let ms := rsdMoves c.rsd
  (List.range c.L).flatMap (fun i => (List.range c.L).flatMap (fun j =>
    ms.filter (fun m => m.1.1 = c.rank a i && m.2.1 = c.rank b j)))

/-- A descriptor that R380 makes invalid, the areas apart. -/
def rsdBad (rsd : List Word) (p : Nat) : Bool :=
  let ds := List.range 4
  ds.any (fun d => rsdSrc rsd d = 0 || rsdDst rsd d = 0 ||
    (rsdDim rsd d ≠ 0 && (rsdDim rsd d % rsdSrc rsd d ≠ 0 || rsdDim rsd d % rsdDst rsd d ≠ 0))) ||
  product (ds.map (rsdSrc rsd)) ≠ p || product (ds.map (rsdDst rsd)) ≠ p ||
  repeats (ds.map (rsdSord rsd)) || repeats (ds.map (rsdDord rsd)) ||
  fld (rsd.getD 2 0) 47 0 ≠ 0 || rsd.getD 7 0 ≠ 0

/-! ### Areas (R367, Table 13.2) -/


/-- The address at which rank `j` of a module has byte `o` of an area that starts at `a`. -/
def Coll.at_ (c : Coll) (j a o : Nat) : Nat := if ctrlLocv c.ctrl then localPhys (c.tiles.getD j 0) (a + o) else a + o

/-- An area lies in its region (R122, R3). -/
def areaFits (locv : Bool) (a : Nat) (off : Int) (len : Nat) : Bool :=
  let x : Int := (a : Int) + off
  if len = 0 then true
  else if locv then
    decide (a < 2 ^ 20) &&
    (match localRegion x with
     | some (lo, hi) => lo ≠ bankBase && decide (x + len ≤ hi)
     | none => false)
  else decide (0 ≤ x) && inMemOrStore x.toNat len

/-- The byte spans of IN, as offset and length, of rank `r`; the report area where it acts as a BARRIER (R371, R382). -/
def Coll.inSpans (c : Coll) (r : Nat) : List (Int × Nat) :=
  let n := c.cmd.count * c.cmd.es
  if c.empty then (if c.cmd.inA = 0 then [] else [(0, 2 * c.nmod)])
  else
  match c.cmd.op with
  | 4 => if r = c.cmd.root then [(0, n)] else []
  | 6 => [(0, c.P * n)]
  | 8 => ((rsdMoves c.rsd).filter (fun m => m.1.1 = r)).map (fun m => (m.1.2, c.cmd.es))
  | _ => [(0, n)]

/-- The byte spans of OUT of rank `r`. -/
def Coll.outSpans (c : Coll) (r : Nat) : List (Int × Nat) :=
  let n := c.cmd.count * c.cmd.outSize
  match c.cmd.op with
  | 2 => [(0, c.blockLen r * c.cmd.outSize)]
  | 3 => [(0, c.P * n)]
  | 5 => if r = c.cmd.root then [(0, n)] else []
  | 6 => [(0, c.P * n)]
  | 7 => []
  | 8 => ((rsdMoves c.rsd).filter (fun m => m.2.1 = r)).map (fun m => (m.2.2, c.cmd.es))
  | _ => [(0, n)]

/-- Local ranks: index and rank. -/
def Coll.locals (c : Coll) : List (Nat × Nat) := (List.range c.L).map (fun j => (j, c.rank c.me j))

/-- Every local area lies in its region. -/
def Coll.areasFit (c : Coll) : Bool :=
  let lv := ctrlLocv c.ctrl
  c.locals.all (fun x =>
    (c.inSpans x.2).all (fun p => areaFits lv c.cmd.inA p.1 p.2) &&
    (c.outSpans x.2).all (fun p => areaFits lv c.cmd.outA p.1 p.2))

/-- A command is invalid at its start (R391, R374, R380). -/
def Coll.invalid (c : Coll) (s : State) : Bool :=
  let e := c.cmd
  let w := regGet s (aChnGrpCtrl c.grp)
  !idValid s || !bit w 63 || ctrlLane w ≠ c.lane || (ctrlLocv w && !grpEn s (ctrlLgrp w)) ||
  fld e.w0 32 16 ≠ 0 || fld e.w2 63 61 ≠ 0 || fld e.w3 7 0 ≠ 0 ||
  (e.op ≠ 7 && 6 < e.ty) || (e.reduces && (e.rop = 3 || (e.ty = 6 && e.rop ≠ 0))) || (e.op ≠ 7 && e.outt ≠ 0 && e.ty ≠ 6) ||
  decide (c.P ≤ e.root) ||
  (ctrlLocv w && (decide (2 ^ 20 ≤ e.inA) || decide (2 ^ 20 ≤ e.outA))) ||
  (e.op = 8 && (fld e.w3 63 36 ≠ 0 || rsdBad c.rsd c.P)) || !c.areasFit

/-! ### Packets (R383, Table 13.7) -/

/-- A Chanter packet of this module. -/
def colPacket (s : State) (c : Coll) (dst kind att : Nat) (addr : Nat) (body : List Byte) (stamp : Word) : Packet :=
  { w0 := mkW0 s dst 2 false
    w1 := mkW1 (c.grp * 256 + ctrlGen c.ctrl) c.seq body.length 0x20 (kind * 4096 + att % 4 * 1024)
    w2 := stamp, w3 := BitVec.ofNat 64 (c.me * 2 ^ 48 + addr % 2 ^ 48), payload := body }

/-- Sends a packet to the lane of another member. -/
def sendCol (s : State) (c : Coll) (dst kind att addr : Nat) (body : List Byte) : State :=
  let (st, s) := takeStamp s (unitOfLane c.lane)
  inject s (colPacket s c dst kind att addr body st) 14 none

/-- Member modules other than this one: rank and ID. -/
def Coll.others (c : Coll) : List (Nat × Nat) :=
  ((List.range c.nmod).filter (· ≠ c.me)).map (fun m => (m, c.mods.getD m 0))

/-- Pieces of at most 512 bytes with their offsets. `fuel` bounds them. -/
def pieces : Nat → Nat → List Byte → List (Nat × List Byte)
  | 0, _, _ => []
  | fuel + 1, o, bs => if bs.isEmpty then [] else (o, bs.take 512) :: pieces fuel (o + 512) (bs.drop 512)

def pieceList (bs : List Byte) : List (Nat × List Byte) := pieces (bs.length / 512 + 1) 0 bs

/-- Sends bytes as packets from `addr` on. -/
def sendBytes (s : State) (c : Coll) (dst kind att addr : Nat) (bs : List Byte) : State :=
  (pieceList bs).foldl (fun s p => sendCol s c dst kind att (addr + p.1) p.2) s

/-- Sends result bytes to every member through the multicast group (R386). -/
def sendMulti (s : State) (c : Coll) (addr : Nat) (bs : List Byte) : State :=
  (pieceList bs).foldl (fun s p =>
    let (st, s) := takeStamp s (unitOfLane c.lane)
    let k := colPacket s c 0 4 0 (addr + p.1) p.2 st
    inject s { k with w0 := setFld (setBit k.w0 25 true) 23 12 (ctrlMcg c.ctrl) } 14 none) s

/-! ### Staging slots (R365) -/

/-- The staging slot of a collective. -/
def stageSlot (s : State) (g q : Nat) : Option Nat :=
  (s.chn.slots.find? (fun x => x.1 = g && x.2.2 = q)).map (fun x => x.2.1)

def slotFree (s : State) (g k : Nat) : Bool := !s.chn.slots.any (fun x => x.1 = g && x.2.1 = k)

def leaveSlot (s : State) (g q : Nat) : State :=
  { s with chn := { s.chn with slots := s.chn.slots.filter (fun x => !(x.1 = g && x.2.2 = q)) } }

/-- Gives a collective a slot where it has none and one is free: the one of its number modulo 8, else the lowest (R365;
    DESIGN CHOICE, log entry 37). -/
def giveSlot (s : State) (g q : Nat) : State :=
  if (stageSlot s g q).isSome then s
  else
    match (q % 8 :: List.range 8).find? (slotFree s g) with
    | some k => { s with chn := { s.chn with slots := s.chn.slots ++ [(g, k, q)] } }
    | none => s

/-- Gives a collective that starts a slot: with none free, one that early packets of the latest collective hold, whose bytes
    are kept with their packets until it has a slot again. -/
def startSlot (s : State) (g q : Nat) : State :=
  let s := giveSlot s g q
  if (stageSlot s g q).isSome then s
  else
    let early := (s.chn.slots.filter (fun x => x.1 = g && (collOf s g x.2.2).isNone)).map (fun x => x.2.2)
    let age (r : Nat) : Nat := (r + 65536 - q) % 65536
    match early with
    | [] => s
    | r :: rs =>
      let r := rs.foldl (fun a b => if age a < age b then b else a) r
      let s := leaveSlot s g r
      let s := { s with chn := { s.chn with early := s.chn.early.map (fun e =>
        if pkGroup e.pkt = g ∧ pkSeq e.pkt = r ∧ pkOpid e.pkt / 4096 = 2 then { e with put := none } else e) } }
      giveSlot s g q

/-! ### Failure (R389, R390) -/

/-- Overwrites memory with values that the spec leaves undefined. -/
def undefine (s : State) (a len : Nat) : State :=
  if len = 0 then s
  else
    let bs := freeBytes s len
    let s := drawn s len
    if holdPhys ≤ a then { s with hold := wrBytes s.hold (a - holdPhys) bs }
    else if storeBase ≤ a then { s with mem := wrBytes s.mem a bs }
    else (hbmWrite s a bs 3).2

/-- OUT is left undefined. -/
def Coll.undefineOut (c : Coll) (s : State) : State :=
  c.locals.foldl (fun s x => (c.outSpans x.2).foldl (fun s p =>
    if areaFits (ctrlLocv c.ctrl) c.cmd.outA p.1 p.2 then
      undefine s (c.at_ x.1 ((c.cmd.outA : Int) + p.1).toNat 0) p.2 else s) s) s

/-- Lowers OUTST. -/
def lowerOutst (s : State) (g : Nat) : State := rset s (aChnGrpStat g) 47 44 (grpOutst s g - 1)

/-- A Bell of this module names module `m` as its peer (R479). -/
def isNeighbour (s : State) (m : Nat) : Bool :=
  (List.range 6).any (fun b => rbit s (aBelPeer b) 63 && rf s (aBelPeer b) 15 0 = m)

/-- A collective fails at this module; `tell` sends FAIL to the other members. -/
def failColl (s : State) (g q code : Nat) (a2 : Word) (tell : Bool) (peer : Option Nat := none) : State :=
  match collOf s g q with
  | none => s
  | some c =>
    if c.ended then s
    else
      let s := lowerOutst (leaveSlot (dropColl s g q) g q) g
      let s := rset s (aChnLaneStatus c.lane) 35 20 code
      let s := report s (unitOfLane c.lane) code
        { tag := c.cmd.tag, a0 := collArg g q, a2 := a2, failing := true
          peer := peer.getD 0, remote := peer.any (fun m => !isNeighbour s m) }
      let s := c.undefineOut s
      if tell then c.others.foldl (fun s m => sendCol s c m.2 6 0 code []) s else s

/-- A member tile of this module, or the lane's die, is lost (R390). -/
def Coll.lost (c : Coll) (s : State) : Bool :=
  dieIsolated s (8 + c.lane) ||
  c.tiles.any (fun t => tileIsolated s t || (getTile s t).resetting || (getTile s t).chatter || !tilePowered s t)

/-- Every collective that has lost a member tile or its lane fails (R390). -/
def collsLost (s : State) : State :=
  s.chn.colls.foldl (fun s c => if !c.ended && c.lost s then failColl s c.grp c.seq 0x6030 0 true else s) s

/-- The collectives of a tile that goes into tile reset fail (R390). -/
def tileLost (s : State) (t : Nat) : State :=
  s.chn.colls.foldl (fun s c => if !c.ended && c.tiles.contains t then failColl s c.grp c.seq 0x6030 0 true else s) s

/-- A write to TILE_CTRL, with what a tile reset does to collectives. -/
def tileCtrl (s : State) (req : Req) (t : Nat) (v : Word) : Nat × State :=
  if isHost req ∧ bit v 8 ∧ tileCode s t = 0 then wTileCtrl (tileLost s t) req t v else wTileCtrl s req t v

/-! ### Reading and writing the areas -/

/-- Reads bytes for a lane. A hold buffer answers as its tile's registers do: an arrival that wakes the tile, or 0x1_042 or
    0x3_010 (R94 to R96). -/
def laneRead (s : State) (l a len : Nat) : List Byte × Nat × State :=
  if len = 0 then ([], 0, s)
  else if holdPhys ≤ a ∧ a < holdPhys + 0x20000000 then
    let t := (a - holdPhys) / 0x10000
    match tileRegCode s (laneReq l) t (a % 0x10000) with
    | some (c, s) => ([], c, s)
    | none => (rdBytes s.hold (a - holdPhys) len, 0, wakeTile s t)
  else memRead s (laneReq l) a len

/-- Writes bytes for a lane. -/
def laneWrite (s : State) (l a : Nat) (bs : List Byte) : Nat × State :=
  if bs.isEmpty then (0, s)
  else if holdPhys ≤ a ∧ a < holdPhys + 0x20000000 then
    let t := (a - holdPhys) / 0x10000
    match tileRegCode s (laneReq l) t (a % 0x10000) with
    | some r => r
    | none =>
      let s := wakeTile s t
      (0, { s with hold := wrBytes s.hold (a - holdPhys) bs })
  else memWrite s (laneReq l) a bs

/-- Reads a piece of IN of local rank `j`; an error fails the collective with 0x6_032. -/
def Coll.readIn (c : Coll) (s : State) (j : Nat) (o : Int) (len : Nat) : List Byte × State :=
  let (bs, code, s) := laneRead s c.lane (c.at_ j ((c.cmd.inA : Int) + o).toNat 0) len
  if code ≠ 0 then ([], failColl s c.grp c.seq 0x6032 (BitVec.ofNat 64 code) true) else (bs, s)

/-- Writes result bytes of a collective; an error fails it with 0x6_032. -/
def Coll.writeAt (c : Coll) (s : State) (a : Nat) (bs : List Byte) : State :=
  let (code, s) := laneWrite s c.lane a bs
  if code ≠ 0 then failColl s c.grp c.seq 0x6032 (BitVec.ofNat 64 code) true else s

/-- Result bytes of a packet land: in memory now, or with the code with which they were put there before. -/
def Coll.landed (c : Coll) (s : State) (put : Option Nat) (a : Nat) (bs : List Byte) : State :=
  match put with
  | none => c.writeAt s a bs
  | some 0 => s
  | some k => failColl s c.grp c.seq 0x6032 (BitVec.ofNat 64 k) true

/-- A collective is still in flight. -/
def alive (s : State) (c : Coll) : Bool :=
  match collOf s c.grp c.seq with
  | some x => !x.ended
  | none => false

/-! ### Contributions and chunks (R372 to R374, R385) -/

/-- The chunks of the contributions to owner module `o`: the owner's tile, the byte offset in its block, and the bytes
    of each rank (DESIGN CHOICE, log entry 37). -/
def Coll.chunks (c : Coll) (o : Nat) : List (Nat × Nat × Nat) :=
  let ch := ctrlChunk c.ctrl
  (List.range c.L).flatMap (fun j =>
    let len := c.blockLen (c.rank o j) * c.cmd.es
    (List.range (chanDiv len ch)).map (fun k => (j, k * ch, Nat.min ch (len - k * ch))))

/-- Where chunk `q` starts in the stream of one module's contributions. -/
def chunkAt (L : Nat) (cs : List (Nat × Nat × Nat)) (q : Nat) : Nat := ((cs.take q).map (fun x => L * x.2.2)).foldl (· + ·) 0

/-- The operation reduces. -/
def Coll.reduces (c : Coll) : Bool := c.cmd.reduces && !c.empty

/-- The key of a phase from module `m`. -/
def phaseKey (kind m : Nat) : Nat := kind * 65536 + m

/-- The byte at an offset of a list of pieces. -/
def segByte (o : Nat) : List Seg → Option Byte
  | [] => none
  | g :: gs => if g.at_ ≤ o ∧ o < g.at_ + g.data.length then g.data[o - g.at_]? else segByte o gs

/-- The bytes from an offset on, if all have arrived. -/
def segBytes (gs : List Seg) (o : Nat) : Nat → Option (List Byte)
  | 0 => some []
  | n + 1 =>
    match segByte o gs, segBytes gs (o + 1) n with
    | some b, some bs => some (b :: bs)
    | _, _ => none

/-- Bytes that a list of pieces covers, each once. -/
def segCount : List Seg → Nat
  | [] => 0
  | g :: gs =>
    ((List.range g.data.length).filter (fun i => !gs.any (fun h => h.at_ ≤ g.at_ + i && g.at_ + i < h.at_ + h.data.length))).length
      + segCount gs

def Coll.addSeg (c : Coll) (key at_ : Nat) (bs : List Byte) : Coll :=
  { c with segs := tset [] c.segs key (tget [] c.segs key ++ [⟨at_, bs⟩]) }

/-! ### The staging area (R365, R385; DESIGN CHOICE, log entry 37) -/

/-- Bytes that the staging slot of a collective holds of one source module: two chunks of each of its ranks. -/
def stageRing (ctrl : Word) (L : Nat) : Nat := 2 * L * ctrlChunk ctrl

/-- Where that ring starts for source module `m` of sequence number `q`: eight slots of 2 × P chunks from SBASE. -/
def stageBase (s : State) (g q nmod m : Nat) (ctrl : Word) (L : Nat) : Nat :=
  rf s (aChnGrpStage g) 47 6 * 64 + ((stageSlot s g q).getD (q % 8) * nmod + m) * stageRing ctrl L

/-- A stretch of the ring, as at most two spans of memory: address and length. -/
def ringSpans (base ring o len : Nat) : List (Nat × Nat) :=
  let k := Nat.min len (ring - o % ring)
  [(base + o % ring, k), (base, len - k)]

/-- Puts contribution bytes in the staging area. -/
def stagePut (s : State) (l base ring o : Nat) (bs : List Byte) : State :=
  match ringSpans base ring o bs.length with
  | [(a, k), (b, _)] => (laneWrite (laneWrite s l a (bs.take k)).2 l b (bs.drop k)).2
  | _ => s

/-- Reads contribution bytes back: bytes, code, state. -/
def stageGet (s : State) (l base ring o len : Nat) : List Byte × Nat × State :=
  match ringSpans base ring o len with
  | [(a, k), (b, n)] =>
    let (xs, c, s) := laneRead s l a k
    let (ys, d, s) := laneRead s l b n
    (xs ++ ys, if c ≠ 0 then c else d, s)
  | _ => ([], 0, s)

/-- Stages a piece of the contributions of module `m`, but for bytes consumed already. -/
def Coll.stage (c : Coll) (s : State) (m o : Nat) (bs : List Byte) : State :=
  if o < chunkAt c.L (c.chunks c.me) c.used then s
  else stagePut s c.lane (stageBase s c.grp c.seq c.nmod m c.ctrl c.L) (stageRing c.ctrl c.L) o bs

/-- The contributions of ranks to a chunk whose bytes start at `off` of each module's stream, `len` bytes of each. -/
def Coll.unstage (c : Coll) (off len : Nat) : State → List Nat → List (List Byte) × Nat × State
  | s, [] => ([], 0, s)
  | s, r :: rs =>
    let (b, k, s) := stageGet s c.lane (stageBase s c.grp c.seq c.nmod (r / c.L) c.ctrl c.L) (stageRing c.ctrl c.L)
      (off + r % c.L * len) len
    let (bs, k', s) := c.unstage off len s rs
    (b :: bs, if k ≠ 0 then k else k', s)

/-- One level of the tree of R373 on FP32 values, with its flags. -/
def chnLevel : List FNum → List FNum × Flg
  | x :: y :: rest =>
    let e := fadd x y
    let r := rnd fp32 e
    let (vs, f) := chnLevel rest
    (r :: vs, (fltFlags [x, y] e r).or f)
  | vs => (vs, {})

/-- The tree; `fuel` bounds its levels. -/
def chnTree : Nat → List FNum → FNum × Flg
  | 0, vs => (vs.headD (.zero false), {})
  | fuel + 1, vs =>
    if vs.length ≤ 1 then (vs.headD (.zero false), {})
    else
      let (ws, f) := chnLevel vs
      let (v, g) := chnTree fuel ws
      (v, f.or g)

/-- A list in an order that free values pick: the element taken at each step is one of those left. `d` numbers the draw. -/
def anyOrder {α : Type} (d : Nat) : Nat → List α → List α
  | 0, _ => []
  | n + 1, xs =>
    match xs[(Config.pick d n) % xs.length]? with
    | some x => x :: anyOrder d n (xs.eraseIdx (Config.pick d n % xs.length))
    | none => []

/-- VL128 words added from left to right by Table 5.5, with the flags of every addition. -/
def vlAddUp : List VL → VL × Flg
  | [] => (0, {})
  | x :: xs => xs.foldl (fun a y => ((vladd a.1 y).1, a.2.or (vladd a.1 y).2)) (x, {})

/-- The VL128 sum of the words of all ranks by Table 5.5, with its flags. The order of more than two is not named and
    shows once a sum has saturated (R374, R156): free values pick it (DESIGN CHOICE, log entry 31). -/
def vlReduce (d : Nat) (xs : List VL) : VL × Flg := vlAddUp (anyOrder d xs.length xs)

/-- Reduces one element from the codes of all ranks; `d` numbers a draw. -/
def reduceElem (e : ChEntry) (d : Nat) (xs : List Nat) : Nat × Flg :=
  if e.ty = 6 then
    let (w, f) := vlReduce d (xs.map (BitVec.ofNat 128))
    if e.outt = 0 then (w.toNat, f)
    else
      let (v, clamp) := convOut (outtCode e.outt) (vvalue w e.anchor)
      (v, { f with cvt := clamp })
  else if e.ty = 5 then
    let vs := xs.map (sext 32)
    match vs with
    | [] => (0, {})
    | v :: rest =>
      (low 32 (if e.rop = 0 then rest.foldl (· + ·) v else if e.rop = 1 then rest.foldl max v else rest.foldl min v), {})
  else
    let vs := xs.map (decodeElem (typeCode e.ty))
    if e.rop = 0 then
      let (r, f) := chnTree vs.length vs
      let (v, clamp) := convOut (typeCode e.ty) (.num r)
      (v, { f with cvt := clamp })
    else
      match vs with
      | [] => (0, {})
      | v :: rest =>
        match elemOf (typeCode e.ty) with
        | .flt f => (encodeFloat f (rest.foldl (if e.rop = 1 then fmax else fmin) v), {})
        | _ => (0, {})

/-- Element `i` of a piece. -/
def elemAt (es : Nat) (bs : List Byte) (i : Nat) : Nat := leNat ((bs.drop (i * es)).take es)

/-- Reduces the pieces of all ranks: result bytes and flags. -/
def reducePieces (e : ChEntry) (d : Nat) (ps : List (List Byte)) (n : Nat) : List Byte × Flg :=
  let rs := (List.range n).map (fun i => reduceElem e (d + i) (ps.map (fun p => elemAt e.es p i)))
  (rs.flatMap (fun r => natLE e.outSize r.1), Flg.all (rs.map Prod.snd))

/-- The contributions of every rank to chunk `q` of this module's blocks have arrived. -/
def Coll.holds (c : Coll) (q : Nat) : Bool :=
  let cs := c.chunks c.me
  let off := chunkAt c.L cs q
  let len := (cs.getD q (0, 0, 0)).2.2
  (List.range c.P).all (fun r => (segBytes (tget [] c.segs (phaseKey 2 (r / c.L))) (off + r % c.L * len) len).isSome)

/-- The ATTEMPT under which a phase goes to module `m`: as its latest RESEND asked (R388). -/
def Coll.attTo (c : Coll) (kind m : Nat) : Nat := tget 0 c.att (phaseKey kind m + 2 ^ 20)

/-- Sends one result piece to one rank: to this module's own memory, or by DATA2. -/
def Coll.deliver (c : Coll) (s : State) (m j o : Nat) (bs : List Byte) : State :=
  let a := c.at_ j c.cmd.outA o
  if m = c.me then c.writeAt s a bs else sendBytes s c (c.mods.getD m 0) 4 (c.attTo 4 m) a bs

/-- Sends result bytes for offset `o` of every rank's OUT (R386). A member that has asked for the phase again takes them
    by unicast, under its ATTEMPT (R388). -/
def Coll.deliverAll (c : Coll) (s : State) (o : Nat) (bs : List Byte) : State :=
  if ctrlMcen c.ctrl then
    let s := sendMulti (c.writeAt s (c.at_ 0 c.cmd.outA o) bs) c (c.at_ 0 c.cmd.outA o) bs
    (c.others.filter (fun m => c.attTo 4 m.1 ≠ 0)).foldl (fun s m => c.deliver s m.1 0 o bs) s
  else (List.range c.P).foldl (fun s r => c.deliver s (r / c.L) (r % c.L) o bs) s

/-- Where the result of a chunk goes: its byte offset in OUT. -/
def Coll.resultAt (c : Coll) (j off : Nat) : Nat :=
  let e0 := off / c.cmd.es
  (if c.cmd.op = 2 then e0 else c.blockAt (c.rank c.me j) + e0) * c.cmd.outSize

/-- Writes or sends the result of a chunk (R370, R385). -/
def Coll.putResult (c : Coll) (s : State) (j o : Nat) (bs : List Byte) : State :=
  match c.cmd.op with
  | 1 => c.deliverAll s o bs
  | 2 => c.writeAt s (c.at_ j c.cmd.outA o) bs
  | _ => c.deliver s (c.cmd.root / c.L) (c.cmd.root % c.L) o bs

/-- This module's lane consumes its next chunk where it holds it from all ranks: it reduces the staged contributions,
    writes the result, and then returns CRED (R385). -/
def consume (s : State) (g q : Nat) : State :=
  match collOf s g q with
  | none => s
  | some c =>
    let cs := c.chunks c.me
    match cs[c.used]? with
    | none => s
    | some (j, off, len) =>
      if !c.holds c.used then s
      else
        let (ps, code, s) := c.unstage (chunkAt c.L cs c.used) len s (List.range c.P)
        if code ≠ 0 then failColl s g q 0x6032 (BitVec.ofNat 64 code) true
        else
          let n := len / c.cmd.es
          let (bs, f) := reducePieces c.cmd s.free ps n
          let s := drawn s n
          let s := rorb s (aChnLaneStatus c.lane)
            (BitVec.ofNat 64 (flagBit f.nan 0 + flagBit f.inf 1 + flagBit f.ovf 2 + flagBit f.cvt 3))
          let o := c.resultAt j off
          let s := c.putResult s j o bs
          if !alive s c then s
          else
            let kept := if c.cmd.op = 5 ∧ c.cmd.root / c.L ≠ c.me then c.kept ++ [⟨o, bs⟩] else c.kept
            let c := { c with used := c.used + 1, cred := tset 0 c.cred c.me (c.used + 1), kept := kept }
            c.others.foldl (fun s m => sendCol s c m.2 3 0 c.used []) (setColl s c)

/-- The bytes of one chunk from this module's ranks, in rank order. -/
def Coll.chunkBytes (c : Coll) (o : Nat) (x : Nat × Nat × Nat) : State → List Nat → List Byte × State
  | s, [] => ([], s)
  | s, j :: js =>
    let base := c.blockAt (c.rank o x.1) * c.cmd.es + x.2.1
    let (b, s) := c.readIn s j base x.2.2
    let (bs, s) := c.chunkBytes o x s js
    (b ++ bs, s)

/-- Sends to owner module `o` the next chunk that its credits admit. -/
def sendChunk (s : State) (g q o : Nat) : State :=
  match collOf s g q with
  | none => s
  | some c =>
    let cs := c.chunks o
    let k := tget 0 c.sent o
    match cs[k]? with
    | none => s
    | some x =>
      if tget 0 c.cred o + 2 ≤ k then s
      else
        let (bs, s) := c.chunkBytes o x s (List.range c.L)
        if !alive s c then s
        else
          let c := { c with sent := tset 0 c.sent o (k + 1) }
          let at_ := chunkAt c.L cs k
          if o = c.me then setColl (c.stage s c.me at_ bs) (c.addSeg (phaseKey 2 o) at_ bs)
          else sendBytes (setColl s c) c (c.mods.getD o 0) 2 (c.attTo 2 o) at_ bs

/-- Sends and consumes as far as credits and arrivals allow. `fuel` bounds the chunks. -/
def advance : Nat → State → Nat → Nat → State
  | 0, s, _, _ => s
  | fuel + 1, s, g, q =>
    match collOf s g q with
    | none => s
    | some c =>
      if !c.reduces || c.ended then s
      else
        let s := (List.range c.nmod).foldl (fun s o => sendChunk (sendChunk s g q o) g q o) s
        advance fuel (consume s g q) g q

def advanceColl (s : State) (g q : Nat) : State :=
  match collOf s g q with
  | none => s
  | some c => advance (((List.range c.nmod).map (fun o => (c.chunks o).length)).foldl (· + ·) 2) s g q

/-! ### Data that needs no reduction -/

/-- Sends ALLGATHER and BROADCAST data. -/
def sendGather (s : State) (c : Coll) : State :=
  let n := c.cmd.count * c.cmd.es
  c.locals.foldl (fun s x =>
    if !alive s c ∨ (c.cmd.op = 4 ∧ x.2 ≠ c.cmd.root) then s
    else
      let (bs, s) := c.readIn s x.1 0 n
      if !alive s c then s else c.deliverAll s (if c.cmd.op = 3 then x.2 * n else 0) bs) s

/-- The bytes that this module owes module `b` in an ALLTOALL: destination address and bytes. -/
def Coll.exchange (c : Coll) (s : State) (b : Nat) : List (Nat × List Byte) × State :=
  let n := c.cmd.count * c.cmd.es
  (List.range (c.L * c.L)).foldl (fun acc k =>
    let i := k / c.L
    let j := k % c.L
    let (bs, s) := c.readIn acc.2 i (c.rank b j * n : Nat) n
    (acc.1 ++ [(c.at_ j c.cmd.outA (c.rank c.me i * n), bs)], s)) ([], s)

/-- The bytes that this module owes module `b` in a RESHARD, in order. -/
def Coll.reshardBytes (c : Coll) : State → List ((Nat × Int) × (Nat × Int)) → List Byte × State
  | s, [] => ([], s)
  | s, m :: ms =>
    let (b, s) := c.readIn s (m.1.1 % c.L) m.1.2 c.cmd.es
    let (bs, s) := c.reshardBytes s ms
    (b ++ bs, s)

/-- Writes RESHARD bytes to the places of moves: the first code that is not 0, and the state. -/
def Coll.putMoves (c : Coll) : State → List ((Nat × Int) × (Nat × Int)) → List Byte → Nat × State
  | s, [], _ => (0, s)
  | s, m :: ms, bs =>
    if bs.length < c.cmd.es ∨ c.cmd.es = 0 then (0, s)
    else
      let (k, s) := laneWrite s c.lane (c.at_ (m.2.1 % c.L) ((c.cmd.outA : Int) + m.2.2).toNat 0) (bs.take c.cmd.es)
      let (k', s) := c.putMoves s ms (bs.drop c.cmd.es)
      (if k = 0 then k' else k, s)

/-- Places RESHARD bytes; an error fails the collective with 0x6_032. -/
def Coll.placeMoves (c : Coll) (s : State) (ms : List ((Nat × Int) × (Nat × Int))) (bs : List Byte) : State :=
  let (k, s) := c.putMoves s ms bs
  if k ≠ 0 then failColl s c.grp c.seq 0x6032 (BitVec.ofNat 64 k) true else s

/-- Sends XDATA of ALLTOALL or RESHARD to module `b` as attempt `att`. -/
def sendXdata (s : State) (c : Coll) (b att : Nat) : State :=
  if !alive s c ∧ !c.ended then s
  else if c.cmd.op = 6 then
    let (xs, s) := c.exchange s b
    xs.foldl (fun s x => if b = c.me then c.writeAt s x.1 x.2 else sendBytes s c (c.mods.getD b 0) 7 att x.1 x.2) s
  else
    let (bs, s) := c.reshardBytes s (c.moves c.me b)
    if b = c.me then c.placeMoves s (c.moves b b) bs
    else
      (pieceList bs).foldl (fun s p => sendCol s c (c.mods.getD b 0) 7 att (p.1 / c.cmd.es) p.2) s

/-- Sends what an operation sends at its start. -/
def sendStart (s : State) (c : Coll) : State :=
  if c.empty then s
  else
    match c.cmd.op with
    | 3 => sendGather s c
    | 4 => sendGather s c
    | 6 => (List.range c.nmod).foldl (fun s b => sendXdata s c b 0) s
    | 8 => (List.range c.nmod).foldl (fun s b => sendXdata s c b 0) s
    | _ => advanceColl s c.grp c.seq

/-! ### The coordinator (R377, R381, R382) -/

/-- A CHK record. -/
def Coll.chkBytes (c : Coll) : List Byte :=
  wordLE (c.cmd.w0 &&& maskW 63 43) ++ natLE 8 c.cmd.count ++ natLE 8 c.cmd.root ++
    natLE 8 (if ctrlMcen c.ctrl then c.cmd.outA else 0) ++ (if c.cmd.op = 8 then wordsLE c.rsd else [])

/-- `a` comes before `b` by the order key (R46). -/
def chkBefore (a b : ChkRec) : Bool := later b.stamp a.stamp || (a.stamp = b.stamp && decide (a.src ≤ b.src))

def chkInsert (x : ChkRec) : List ChkRec → List ChkRec
  | [] => [x]
  | y :: ys => if chkBefore x y then x :: y :: ys else y :: chkInsert x ys

def chkSort (cs : List ChkRec) : List ChkRec := cs.foldl (fun acc x => chkInsert x acc) []

/-- One of the last four arrivers; a place that no member fills is a free value. -/
def lateRank (s : State) (rs : List ChkRec) (k : Nat) : Nat :=
  match rs.reverse[k]? with
  | some r => r.rank
  | none => (Config.freeWord (s.free + k)).toNat % 65536

/-- Ticks from the first stamp to the last, saturating. -/
def spreadTicks (first last : Word) : Nat := satAt (2 ^ 24 - 1) ((last - first).toNat / 4096)

/-- A member takes its coordinator's REL (R381). -/
def takeRel (s : State) (g q : Nat) (body : List Byte) : State :=
  match collOf s g q with
  | none => s
  | some c =>
    let s := setColl s { c with rel := true }
    if c.empty then
      let bar := g * 2 ^ 56 + q * 2 ^ 40 + fld (wordAt body 8) 15 0 * 2 ^ 24 +
        spreadTicks (wordAt body 24) (wordAt body 32)
      regPut (regPut s (aChnLaneBar c.lane) (BitVec.ofNat 64 bar)) (aChnLaneLate c.lane) (wordAt body 16)
    else s

/-- The coordinator has every record: it reports a barrier, then releases every member. -/
def releaseAll (s : State) (c : Coll) : State :=
  let rs := chkSort c.chks
  let first := (rs.map ChkRec.stamp).headD 0
  let last := (rs.reverse.map ChkRec.stamp).headD 0
  let arriver := (rs.reverse.map ChkRec.rank).headD 0
  let lates := (List.range 4).foldl (fun n k => n + lateRank s rs k * 2 ^ (16 * k)) 0
  let s := drawn s 4
  let body := natLE 8 0 ++ natLE 8 arriver ++ natLE 8 lates ++ wordLE first ++ wordLE last
  let s :=
    if c.empty ∧ c.cmd.inA ≠ 0 then
      c.locals.foldl (fun s x => c.writeAt s (c.at_ x.1 c.cmd.inA 0) (rs.flatMap (fun r => natLE 2 r.rank))) s
    else s
  if !alive s c then s
  else
    let s :=
      if c.empty ∧ c.late ≠ 0 ∧ c.late * 102400 < (last - first).toNat then
        report s (unitOfLane c.lane) 0x6040
          { peer := c.mods.getD arriver 0, tag := c.cmd.tag, remote := !isNeighbour s (c.mods.getD arriver 0)
            a0 := collArg c.grp c.seq, a1 := BitVec.ofNat 64 ((last - first).toNat / 4096) }
      else s
    let s := c.others.foldl (fun s m => sendCol s c m.2 1 0 0 body) s
    takeRel s c.grp c.seq body

/-- The coordinator takes a CHK record (R377). -/
def takeChk (s : State) (g q : Nat) (r : ChkRec) : State :=
  match collOf s g q with
  | none => s
  | some c =>
    if c.me ≠ 0 ∨ c.ended ∨ c.chks.any (fun x => x.rank = r.rank) then s
    else if r.bytes ≠ c.chkBytes then failColl s g q 0x6010 0 true
    else
      let c := { c with chks := c.chks ++ [r] }
      let s := setColl s c
      if c.chks.length = c.nmod then releaseAll s c else s

/-! ### Receiving (R375, R383, R387) -/

/-- A piece counts toward its phase where it belongs to the current ATTEMPT. -/
def takeSeg (s : State) (c : Coll) (kind src att at_ : Nat) (bs : List Byte) : State :=
  let key := phaseKey kind src
  if att ≠ tget 0 c.att key then s
  else setColl s (c.addSeg key at_ bs)

def pkKind (p : Packet) : Nat := pkOpid p / 4096
def pkAttempt (p : Packet) : Nat := pkOpid p / 1024 % 4
def pkGen (p : Packet) : Nat := pkFlow p % 256
def pkRank (p : Packet) : Nat := fld p.w3 63 48
def pkAddr (p : Packet) : Nat := fld p.w3 47 0

/-- Sends again to module `src` the results that this module owes it: the data of IN that it gathers, the results in
    its own OUT of the chunks consumed so far, or those that it keeps for the root of a REDUCE, which this module's OUT
    does not hold (R388; DESIGN CHOICE, log entry 38). -/
def resendResults (s : State) (c : Coll) (src : Nat) : State :=
  let every (s : State) (o : Nat) (bs : List Byte) : State :=
    (List.range c.L).foldl (fun s j => c.deliver s src j o bs) s
  match c.cmd.op with
  | 1 =>
    ((c.chunks c.me).take c.used).foldl (fun s x =>
      let o := c.resultAt x.1 x.2.1
      let (bs, _, s) := laneRead s c.lane (c.at_ x.1 c.cmd.outA o) (x.2.2 / c.cmd.es * c.cmd.outSize)
      every s o bs) s
  | 5 => if c.cmd.root / c.L = src then c.kept.foldl (fun s k => c.deliver s src (c.cmd.root % c.L) k.at_ k.data) s else s
  | _ =>
    let n := c.cmd.count * c.cmd.outSize
    c.locals.foldl (fun s x =>
      if c.cmd.op = 4 ∧ x.2 ≠ c.cmd.root then s
      else
        let (bs, s) := c.readIn s x.1 0 n
        every s (if c.cmd.op = 3 then x.2 * n else 0) bs) s

/-- A sender answers RESEND: the whole phase again, by unicast (R388). -/
def resendPhase (s : State) (c : Coll) (kind src att : Nat) : State :=
  let c := { c with att := tset 0 c.att (phaseKey kind src + 2 ^ 20) att }
  let s := setColl s c
  let dst := c.mods.getD src 0
  match kind with
  | 2 => advanceColl (setColl s { c with sent := tset 0 c.sent src 0 }) c.grp c.seq
  | 3 => sendCol s c dst 3 att c.used []
  | 4 => resendResults s c src
  | 7 => sendXdata s c src att
  | _ => s

/-- A FAIL arrives: the collective fails with its code. The packet does not name the module whose data was missing for a 0x6_020
    (R480): a free value does (DESIGN CHOICE, log entry 149). One whose code lies in a reserved class is discarded as a reserved
    KIND is (R474; DESIGN CHOICE, log entry 150). -/
def takeFail (s : State) (c : Coll) (p : Packet) : State :=
  let code := fld p.w3 15 0
  if !legalClass code then report s (unitOfLane c.lane) 0x4014 (packetInfo p)
  else if code = 0x6020 then
    failColl (drawn s 1) c.grp c.seq code 0 false (some ((Config.freeWord s.free).toNat % 65536))
  else failColl s c.grp c.seq code 0 false

/-- A packet of a started collective; `put` is the code with which its bytes were put in memory before, if they were. -/
def takeStarted (s : State) (c : Coll) (p : Packet) (put : Option Nat) : State :=
  let m := pkRank p
  if c.ended ∧ pkKind p ≠ 5 then s
  else
    match pkKind p with
    | 0 => takeChk s c.grp c.seq ⟨m, p.w2, pkSrc p * 65536, p.payload⟩
    | 1 => takeRel s c.grp c.seq p.payload
    | 2 =>
      let s := if put.isSome then s else c.stage s m (pkAddr p) p.payload
      advanceColl (takeSeg s c 2 m (pkAttempt p) (pkAddr p) p.payload) c.grp c.seq
    | 3 =>
      let n := Nat.max (tget 0 c.cred m) (pkAddr p)
      advanceColl (setColl s { c with cred := tset 0 c.cred m n }) c.grp c.seq
    | 4 => c.landed (takeSeg s c 4 m (pkAttempt p) (pkAddr p) p.payload) put (pkAddr p) p.payload
    | 5 => resendPhase s c (leNat (p.payload.take 1)) m (pkAttempt p)
    | 6 => takeFail s c p
    | 7 =>
      if c.cmd.op = 8 ∧ put.isNone then
        c.placeMoves (takeSeg s c 7 m (pkAttempt p) (pkAddr p * c.cmd.es) p.payload)
          ((c.moves m c.me).drop (pkAddr p)) p.payload
      else c.landed (takeSeg s c 7 m (pkAttempt p) (pkAddr p) p.payload) put (pkAddr p) p.payload
    | _ => s

/-- The words of a descriptor CHN_RSDk. -/
def rsdWords (s : State) (k : Nat) : List Word := (List.range 8).map (fun v => regGet s (aChnRsd k v))

/-- The collective that a lane's head starts, with sequence number `q`. -/
def newColl (s : State) (l : Nat) (e : ChEntry) (q : Nat) : Coll :=
  let w := regGet s (aChnGrpCtrl e.group)
  { grp := e.group, seq := q, lane := l, cmd := e, ctrl := w, mods := groupMods s e.group w
    me := (rankIn (axesOf s e.group w) 0).getD 0
    tiles := if ctrlLocv w then grpMembers (regGet s (aTileGrp (ctrlLgrp w))) else []
    rsd := if e.op = 8 then rsdWords s e.rsd else [], late := rf s (aChnGrpStat e.group) 15 0 }

/-- The waiting command that will start as sequence number `q` of group `g`. -/
def queuedEntry (s : State) (l g q : Nat) : Option ChEntry :=
  ((getLane s l).queue.filter (fun e => e.group = g))[(q + 65536 - grpNext s g) % 65536]?

/-- Puts the bytes of a packet in memory before its collective starts here: DATA1 in the staging area where a slot is free, DATA2
    at its final address, and XDATA there too where the waiting command says what it is: an ALLTOALL's address or the place that
    its RESHARD describes (R375; DEDUCED, log entry 134). -/
def putEarly (s : State) (l : Nat) (w : Word) (p : Packet) : Option Nat × State :=
  let g := pkGroup p
  let q := pkSeq p
  let write : Option Nat × State :=
    let (c, s) := laneWrite s l (pkAddr p) p.payload
    (some c, s)
  match pkKind p with
  | 2 =>
    let s := giveSlot s g q
    if (stageSlot s g q).isNone then (none, s)
    else
      let L := localSize s w
      (some 0, stagePut s l (stageBase s g q (groupMods s g w).length (pkRank p) w L) (stageRing w L) (pkAddr p) p.payload)
  | 4 => write
  | 7 =>
    match queuedEntry s l g q with
    | some e =>
      let c := newColl s l e q
      if e.op = 6 then write
      else if e.op = 8 ∧ !c.invalid s then
        let (k, s) := c.putMoves s ((c.moves (pkRank p) c.me).drop (pkAddr p)) p.payload
        (some k, s)
      else (none, s)
    | none => (none, s)
  | _ => (none, s)

/-- The HBM that a collective reads and writes: its areas, and its staging slot. -/
def Coll.spans (c : Coll) (s : State) : List (Nat × Nat) :=
  let area (a j : Nat) (p : Int × Nat) : List (Nat × Nat) := memSpan (c.at_ j ((a : Int) + p.1).toNat 0) p.2
  c.locals.flatMap (fun x => (c.inSpans x.2).flatMap (area c.cmd.inA x.1) ++ (c.outSpans x.2).flatMap (area c.cmd.outA x.1)) ++
    (if c.reduces then memSpan (stageBase (startSlot s c.grp c.seq) c.grp c.seq c.nmod 0 c.ctrl c.L) (c.nmod * stageRing c.ctrl c.L) else [])

/-- The HBM that an early packet is put in. -/
def earlySpans (s : State) (l : Nat) (w : Word) (p : Packet) : List (Nat × Nat) :=
  match pkKind p with
  | 2 =>
    let g := pkGroup p
    let t := giveSlot s g (pkSeq p)
    if (stageSlot t g (pkSeq p)).isNone then []
    else memSpan (stageBase t g (pkSeq p) (groupMods s g w).length (pkRank p) w (localSize s w)) (stageRing w (localSize s w))
  | 4 => memSpan (pkAddr p) p.payload.length
  | 7 =>
    match queuedEntry s l (pkGroup p) (pkSeq p) with
    | some e => if e.op = 6 then memSpan (pkAddr p) p.payload.length else (newColl s l e (pkSeq p)).spans s
    | none => []
  | _ => []

/-- A COL packet reaches the lane of its group. `put`: the code of a multicast copy that the die has written already. It waits
    while a channel that its collective reads or writes by retrains (R268). -/
def takeCol (s : State) (p : Packet) (put : Option Nat) : State :=
  let g := pkGroup p
  let w := regGet s (aChnGrpCtrl g)
  let l := ctrlLane w
  if 8 ≤ pkKind p then report s (unitOfLane l) 0x4014 (packetInfo p)
  else if !bit w 63 ∨ ctrlGen w ≠ pkGen p then
    report s (unitOfLane l) 0x6011
      { a0 := collArg g (pkSeq p) }
  else
    match collOf s g (pkSeq p) with
    | some c => if heldBack s (c.spans s) then holdWork s (c.spans s) (.col p put) else takeStarted s c p put
    | none =>
      if 32768 ≤ (pkSeq p + 65536 - grpNext s g) % 65536 then s
      else if put.isNone ∧ heldBack s (earlySpans s l w p) then holdWork s (earlySpans s l w p) (.col p put)
      else
        let (put, s) := if put.isSome then (put, s) else putEarly s l w p
        { s with chn := { s.chn with early := s.chn.early ++ [⟨p, put⟩] } }

/-- The packets of a collective that came before its start. -/
def replayEarly (s : State) (g q : Nat) : State :=
  let mine (e : Early) : Bool := pkGroup e.pkt = g && pkSeq e.pkt = q
  let es := s.chn.early.filter mine
  let s := { s with chn := { s.chn with early := s.chn.early.filter (fun e => !mine e) } }
  es.foldl (fun s e =>
    match collOf s g q with
    | some c => takeStarted s c e.pkt e.put
    | none => s) s

/-! ### Starting (R368) -/

/-- The tiles that an entry's wait and signal name (R367). -/
def entryTiles (s : State) (e : ChEntry) : List Nat :=
  let w := regGet s (aChnGrpCtrl e.group)
  if bit w 63 && ctrlLocv w then grpMembers (regGet s (aTileGrp (ctrlLgrp w))) else [e.stile]

/-- The wait of a lower lane on the same semaphore would be granted first. -/
def lowerLane (s : State) (l t sem : Nat) : Bool :=
  (List.range l).any (fun k =>
    match (getLane s k).queue with
    | e :: _ =>
      e.waitCnt ≠ 0 && e.waitSem = sem && decide (e.waitCnt ≤ (getTile s t).semVal sem) &&
        (entryTiles s e).contains t && !e.got.contains t
    | [] => false)

/-- Grants the head's wait on each tile where it can be granted. -/
def grantWaits (s : State) (l : Nat) (e : ChEntry) : List Nat → List Nat × State
  | [] => (e.got, s)
  | t :: ts =>
    let (got, s) := grantWaits s l e ts
    if got.contains t ∨ lowerLane s l t e.waitSem then (got, s)
    else
      match takeSem s t 4 e.waitSem e.waitCnt with
      | some s => (got ++ [t], s)
      | none => (got, s)

/-- Lane INFLIGHT. -/
def laneInflight (s : State) (l : Nat) : Nat := (s.chn.colls.filter (fun c => c.lane = l && !c.ended)).length

/-- Completed collectives whose phases no member can still ask for again are forgotten (DESIGN CHOICE, log entry 38). -/
def forgetOld (s : State) (g q : Nat) : State :=
  { s with chn := { s.chn with colls := s.chn.colls.filter (fun c =>
      !(c.ended && c.grp = g && decide (16 < (q + 65536 - c.seq) % 65536))) } }

/-- CRET 1 (R79). -/
def laneCredit (s : State) (l : Nat) (e : ChEntry) : State :=
  if fld e.w0 34 33 = 1 then
    report s (unitOfLane l) Config.creditCode.toNat { event := true, tag := e.tag, a0 := BitVec.ofNat 64 l }
  else s

/-- The head leaves the queue. -/
def popLane (s : State) (l : Nat) : State := setLane s l { getLane s l with queue := (getLane s l).queue.drop 1 }

/-- A started collective checks in with its coordinator, sends its data and takes what came early. -/
def runColl (s : State) (c : Coll) : State :=
  let g := c.grp
  let q := c.seq
  let (st, s) := takeStamp s (unitOfLane c.lane)
  let s :=
    if c.me = 0 then takeChk s g q ⟨0, st, moduleId s * 65536 + unitOfLane c.lane, c.chkBytes⟩
    else inject s (colPacket s c (c.mods.getD 0 0) 0 0 0 c.chkBytes st) 14 none
  let s := if alive s c then sendStart s c else s
  replayEarly s g q

/-- A lane starts the collective at its queue's head where it holds operation `op`. (DEDUCED, log entry 99.) -/
def startColl (s : State) (l op : Nat) : State :=
  match (getLane s l).queue with
  | [] => s
  | e :: rest =>
    if e.op ≠ op ∨ dieIsolated s (8 + l) ∨ !domOn s (96 + 4 * l + 1) then s
    else
      let g := e.group
      let tiles := entryTiles s e
      let (got, s) := if e.waitCnt = 0 then (tiles, s) else grantWaits s l e tiles
      let wait (s : State) : State := setLane s l { getLane s l with queue := { e with got := got } :: rest }
      if !tiles.all (fun t => got.contains t) then wait s
      else if 8 ≤ grpOutst s g ∨ 16 ≤ laneInflight s l then wait s
      else if heldBack s ((newColl s l e (grpNext s g)).spans s) then callTiles (wait s) ((newColl s l e (grpNext s g)).spans s)
      else
        let q := grpNext s g
        let c := newColl s l e q
        let bad := c.invalid s
        let lost := c.lost s
        let s := popLane s l
        let s := rset (rset s (aChnGrpStat g) 63 48 ((q + 1) % 65536)) (aChnGrpStat g) 47 44 (grpOutst s g + 1)
        let s := forgetOld s g q
        let s := startSlot { s with chn := { s.chn with colls := s.chn.colls ++ [c] } } g q
        if bad then failColl s g q 0x6002 0 true
        else if lost then failColl s g q 0x6030 0 true
        else runColl (laneCredit s l e) c

/-! ### Completion (R369, R387) -/

/-- The bytes that a phase from module `m` has, by the command. -/
def Coll.expected (c : Coll) (kind m : Nat) : Nat :=
  let n := c.cmd.count * c.cmd.outSize
  if c.empty then 0
  else
    match kind, c.cmd.op with
    | 2, 1 => chunkAt c.L (c.chunks c.me) (c.chunks c.me).length
    | 2, 2 => chunkAt c.L (c.chunks c.me) (c.chunks c.me).length
    | 2, 5 => chunkAt c.L (c.chunks c.me) (c.chunks c.me).length
    | 4, 1 => ((List.range c.L).map (fun j => c.blockLen (c.rank m j) * c.cmd.outSize)).foldl (· + ·) 0 * c.L
    | 4, 5 =>
      if c.cmd.root / c.L = c.me then
        ((List.range c.L).map (fun j => c.blockLen (c.rank m j) * c.cmd.outSize)).foldl (· + ·) 0
      else 0
    | 4, 3 => c.L * n * c.L
    | 4, 4 => if c.cmd.root / c.L = m then n * c.L else 0
    | 7, 6 => c.L * n * c.L
    | 7, 8 => (c.moves m c.me).length * c.cmd.es
    | _, _ => 0

/-- A phase from module `m` is complete. -/
def Coll.phaseDone (c : Coll) (kind m : Nat) : Bool :=
  if kind = 2 then (c.chunks c.me).length ≤ c.used
  else if kind = 3 then (c.chunks m).length ≤ tget 0 c.cred m
  else segCount (tget [] c.segs (phaseKey kind m)) = c.expected kind m

/-- R369. -/
def Coll.complete (c : Coll) : Bool :=
  c.rel && (c.others.map Prod.fst).all (fun m => c.phaseDone 4 m && c.phaseDone 7 m) &&
    (!c.reduces || (decide ((c.chunks c.me).length ≤ c.used) && (List.range c.nmod).all (fun m => c.phaseDone 3 m)))

/-- COLLECTIVE_COMPLETE: the signal, and OUTST. -/
def completeColl (s : State) (g q : Nat) : State :=
  match collOf s g q with
  | none => s
  | some c =>
    if c.ended ∨ !c.complete then s
    else
      let tiles := if ctrlLocv c.ctrl then c.tiles else [c.cmd.stile]
      let quiet (t : Nat) : Bool := c.cmd.mute && c.cmd.launcher.any (fun a => a.tile.toNat = t)
      let s := lowerOutst (leaveSlot (setColl s { c with ended := true }) g q) g
      tiles.foldl (fun s t => if quiet t then s else token s t c.cmd.sigSem c.cmd.sigCnt) s

/-- A phase has begun: a packet of it has come, or it has been asked for again. -/
def Coll.begun (c : Coll) (kind m : Nat) : Bool :=
  tget 0 c.att (phaseKey kind m) ≠ 0 ||
    (if kind = 3 then tget 0 c.cred m ≠ 0 else !(tget [] c.segs (phaseKey kind m)).isEmpty)

/-- R388. -/
def phaseGap (s : State) (g q kind m : Nat) : State :=
  match collOf s g q with
  | none => s
  | some c =>
    if c.ended ∨ !(kind = 2 || kind = 3 || kind = 4 || kind = 7) ∨ m = c.me ∨ c.nmod ≤ m ∨
        !c.begun kind m ∨ c.phaseDone kind m then s
    else
      let key := phaseKey kind m
      let a := tget 0 c.att key
      if a < rf s aFabTimer 1 0 then
        let c := { c with att := tset 0 c.att key (a + 1), segs := tset [] c.segs key [] }
        let s := setColl s c
        let s := report s (unitOfLane c.lane) 0x6021
          { peer := c.mods.getD m 0, tag := c.cmd.tag, remote := !isNeighbour s (c.mods.getD m 0), a0 := collArg g q }
        sendCol s c (c.mods.getD m 0) 5 (a + 1) 0 (natLE 1 kind)
      else failColl s g q 0x6020 0 true (some (c.mods.getD m 0))

/-! ### Registers and aborts (R392, R394) -/

def chnOnly (req : Req) (a : Nat) (f : State → Nat × State) (s : State) : Nat × State :=
  hostOnly req unitFirmware 0x9025 a f s

/-- CHN_LANEl_CTRL. The lane stays ABORTING for the rest of the reference cycle (DESIGN CHOICE, log entry 36). -/
def wLaneCtrl (s : State) (l : Nat) (v : Word) : Nat × State :=
  if !bit v 0 then (0, s)
  else
    let s := setLane s l { aborting := true }
    (0, s.chn.colls.foldl (fun s c =>
      if c.lane = l ∧ !c.ended then failColl s c.grp c.seq 0x6031 0 true else s) s)

/-- CHN_RSDk word `v`. -/
def wChnRsd (s : State) (k v : Nat) (w : Word) : Nat × State :=
  if s.chn.colls.any (fun c => !c.ended && c.cmd.op = 8 && c.cmd.rsd = k) then chnRefused s 0x6050 k
  else (0, typedWrite s (aChnRsd k v) w)

/-! ### The commands -/

/-- CHANTER_PUSH. -/
def execChanterPush (lane : BitVec 2) (w0 w1 w2 w3 : Word) (req : Req) (s : State) : Host.Outcome State Fault Refusal :=
  if mayPush req then pushed s req (fun s => lanePush s lane.toNat w0 w1 w2 w3 (engineOf req)) else notPushed s

/-- ALLREDUCE at the head of a lane's queue. -/
def execAllreduce (lane : BitVec 2) (s : State) : Host.Outcome State Fault Refusal := .next (startColl s lane.toNat 1)

/-- REDUCE_SCATTER. -/
def execReduceScatter (lane : BitVec 2) (s : State) : Host.Outcome State Fault Refusal := .next (startColl s lane.toNat 2)

/-- ALLGATHER. -/
def execAllgather (lane : BitVec 2) (s : State) : Host.Outcome State Fault Refusal := .next (startColl s lane.toNat 3)

/-- BROADCAST. -/
def execBroadcast (lane : BitVec 2) (s : State) : Host.Outcome State Fault Refusal := .next (startColl s lane.toNat 4)

/-- REDUCE. -/
def execReduce (lane : BitVec 2) (s : State) : Host.Outcome State Fault Refusal := .next (startColl s lane.toNat 5)

/-- ALLTOALL. -/
def execAlltoall (lane : BitVec 2) (s : State) : Host.Outcome State Fault Refusal := .next (startColl s lane.toNat 6)

/-- BARRIER. -/
def execBarrier (lane : BitVec 2) (s : State) : Host.Outcome State Fault Refusal := .next (startColl s lane.toNat 7)

/-- RESHARD. -/
def execReshard (lane : BitVec 2) (s : State) : Host.Outcome State Fault Refusal := .next (startColl s lane.toNat 8)

/-- COLLECTIVE_COMPLETE. -/
def execCollectiveComplete (g : BitVec 8) (q : BitVec 16) (s : State) : Host.Outcome State Fault Refusal :=
  .next (completeColl s g.toNat q.toNat)

/-- PHASE_GAP_TIMEOUT. -/
def execPhaseGapTimeout (g : BitVec 8) (q : BitVec 16) (kind : BitVec 4) (src : BitVec 16) (s : State) :
    Host.Outcome State Fault Refusal := .next (phaseGap s g.toNat q.toNat kind.toNat src.toNat)

/-- GROUP_ENABLE: a write that sets EN. -/
def execGroupEnable (req : Req) (g : BitVec 8) (v : Word) (s : State) : Host.Outcome State Fault Refusal :=
  answered (chnOnly req (aChnGrpCtrl g.toNat) (fun s => wChnCtrl s g.toNat (setBit v 63 true)) s)

/-- GROUP_DISABLE: a write that clears EN. -/
def execGroupDisable (req : Req) (g : BitVec 8) (v : Word) (s : State) : Host.Outcome State Fault Refusal :=
  answered (chnOnly req (aChnGrpCtrl g.toNat) (fun s => wChnCtrl s g.toNat (setBit v 63 false)) s)

/-- TILE_RESET: a write of TRESET. -/
def execTileReset (req : Req) (t : TileId) (s : State) : Host.Outcome State Fault Refusal :=
  tileWritten s req (aTileCtrl t.toNat) 256 (fun s => tileCtrl s req t.toNat 256)

/-- LANE_ABORT. -/
def execLaneAbort (req : Req) (lane : BitVec 2) (s : State) : Host.Outcome State Fault Refusal :=
  answered (chnOnly req (aChnLaneCtrl lane.toNat) (fun s => wLaneCtrl s lane.toNat 1) s)

end Sys2Proof.Machine
end

