-- ==== Sys2Proof/Machine/Keccak.lean ====
section
/-! DEFINITION. SHAKE256 (FIPS 202), which R459, R465 to R467 name. Lanes are numbers below 2^64, lane (x, y) at place
x + 5y. -/

namespace Sys2Proof.Machine

def rotl64 (v n : Nat) : Nat := (v * 2 ^ n) % 2 ^ 64 + v / 2 ^ (64 - n)

def kLane (a : List Nat) (x y : Nat) : Nat := a.getD (x % 5 + 5 * (y % 5)) 0

/-- Rotation offsets by lane. -/
def kRot : List Nat :=
  [0, 1, 62, 28, 27, 36, 44, 6, 55, 20, 3, 10, 43, 25, 39, 41, 45, 15, 21, 8, 18, 2, 61, 56, 14]

/-- Round constants. -/
def kRound : List Nat :=
  [0x0000000000000001, 0x0000000000008082, 0x800000000000808A, 0x8000000080008000, 0x000000000000808B,
   0x0000000080000001, 0x8000000080008081, 0x8000000000008009, 0x000000000000008A, 0x0000000000000088,
   0x0000000080008009, 0x000000008000000A] ++
  [0x000000008000808B, 0x800000000000008B, 0x8000000000008089, 0x8000000000008003, 0x8000000000008002,
   0x8000000000000080, 0x000000000000800A, 0x800000008000000A, 0x8000000080008081, 0x8000000000008080,
   0x0000000080000001, 0x8000000080008008]

def lanes25 : List Nat := List.range 25

/-- Theta. -/
def kTheta (a : List Nat) : List Nat :=
  let c := (List.range 5).map (fun x =>
    kLane a x 0 ^^^ kLane a x 1 ^^^ kLane a x 2 ^^^ kLane a x 3 ^^^ kLane a x 4)
  let d := (List.range 5).map (fun x => c.getD ((x + 4) % 5) 0 ^^^ rotl64 (c.getD ((x + 1) % 5) 0) 1)
  lanes25.map (fun i => a.getD i 0 ^^^ d.getD (i % 5) 0)

/-- Rho and pi: lane (x, y) of the result is the rotated lane (x + 3y, x). -/
def kRhoPi (a : List Nat) : List Nat :=
  lanes25.map (fun i =>
    let x := i % 5
    let y := i / 5
    let j := (x + 3 * y) % 5 + 5 * x
    rotl64 (a.getD j 0) (kRot.getD j 0))

/-- Chi and iota. -/
def kChi (a : List Nat) (rc : Nat) : List Nat :=
  lanes25.map (fun i =>
    let x := i % 5
    let y := i / 5
    let v := kLane a x y ^^^ ((2 ^ 64 - 1 - kLane a (x + 1) y) &&& kLane a (x + 2) y)
    if i = 0 then v ^^^ rc else v)

/-- Keccak-f[1600]. -/
def keccakF (a : List Nat) : List Nat := kRound.foldl (fun a rc => kChi (kRhoPi (kTheta a)) rc) a

/-- The first `n` lanes of a list of bytes. -/
def lanesOfBytes : Nat → List Byte → List Nat
  | 0, _ => []
  | n + 1, bs => leNat (bs.take 8) :: lanesOfBytes n (bs.drop 8)

/-- Rate of SHAKE256 in bytes. -/
def shakeRate : Nat := 136

/-- Absorbs one block of 136 bytes. -/
def kAbsorb (a : List Nat) (bs : List Byte) : List Nat :=
  keccakF ((List.range 25).map (fun i => a.getD i 0 ^^^ (lanesOfBytes 17 bs).getD i 0))

/-- Absorbs whole blocks; `n` of them. -/
def kAbsorbAll : Nat → List Nat → List Byte → List Nat
  | 0, a, _ => a
  | n + 1, a, bs => kAbsorbAll n (kAbsorb a (bs.take shakeRate)) (bs.drop shakeRate)

/-- The padded message: 0x1F, zeros, and 0x80 in the last byte of the last block. -/
def shakePad (bs : List Byte) : List Byte :=
  let k := shakeRate - bs.length % shakeRate
  if k = 1 then bs ++ [0x9F] else bs ++ [0x1F] ++ List.replicate (k - 2) 0 ++ [0x80]

/-- Squeezes `n` blocks. -/
def kSqueeze : Nat → List Nat → List Byte
  | 0, _ => []
  | n + 1, a => (a.take 17).flatMap (natLE 8) ++ kSqueeze n (keccakF a)

/-- SHAKE256 taken to `n` bytes. -/
def shake256 (bs : List Byte) (n : Nat) : List Byte :=
  let p := shakePad bs
  (kSqueeze ((n + shakeRate - 1) / shakeRate) (kAbsorbAll (p.length / shakeRate) (List.replicate 25 0) p)).take n

end Sys2Proof.Machine
end

