-- ==== Sys2Proof/Machine/SlhDsa.lean ====
section
/-! DEFINITION. SLH-DSA over SHAKE256 (FIPS 205), which R459, R461, R467 and R468 name: keys, signatures in pure mode with an
empty context string, and their verification. The standard is not part of the spec (PRESUMED, log entry 110). -/

namespace Sys2Proof.Machine

/-! ### Parameter sets, addresses and hashes -/

/-- A parameter set: bytes of a value, total height, layers, height of a FORS tree, number of FORS trees. -/
structure SlhSet where
  n : Nat
  h : Nat
  d : Nat
  a : Nat
  k : Nat
  deriving DecidableEq, Repr

/-- SLH-DSA-SHAKE-256s, of images and MINVER payloads. -/
def slh256s : SlhSet := ⟨32, 64, 8, 14, 22⟩

/-- SLH-DSA-SHAKE-192f, of quotes. -/
def slh192f : SlhSet := ⟨24, 66, 22, 8, 33⟩

/-- Height of one layer's tree. -/
def SlhSet.hp (p : SlhSet) : Nat := p.h / p.d

/-- Chains of a WOTS+ key, with digits of 4 bits: two for each byte of a value, and three of the checksum. -/
def SlhSet.len (p : SlhSet) : Nat := 2 * p.n + 3

/-- Bytes of a signature. -/
def SlhSet.sigLen (p : SlhSet) : Nat := (1 + p.k * (1 + p.a) + p.h + p.d * p.len) * p.n

/-- `n` bytes of a number, the most significant first, and back. -/
def natBE (n v : Nat) : List Byte := (natLE n v).reverse
def beNat (bs : List Byte) : Nat := leNat bs.reverse

/-- The address of a hash: layer, tree, type, and three words whose meaning the type gives. -/
structure Adrs where
  layer : Nat := 0
  tree  : Nat := 0
  type  : Nat := 0
  w1 : Nat := 0
  w2 : Nat := 0
  w3 : Nat := 0
  deriving DecidableEq, Repr

def Adrs.bytes (x : Adrs) : List Byte :=
  natBE 4 x.layer ++ natBE 12 x.tree ++ natBE 4 x.type ++ natBE 4 x.w1 ++ natBE 4 x.w2 ++ natBE 4 x.w3

/-- F, H, T and PRF: the hash of a message under an address. `pk` is PK.seed. -/
def slhHash (p : SlhSet) (pk : List Byte) (x : Adrs) (m : List Byte) : List Byte := shake256 (pk ++ x.bytes ++ m) p.n

/-- `count` digits of `b` bits of a string, its first bits first. -/
def digitsOf (b count : Nat) (bs : List Byte) : List Nat :=
  let v := beNat bs
  (List.range count).map (fun i => v / 2 ^ (8 * bs.length - b * (i + 1)) % 2 ^ b)

/-- Cuts a list into `count` pieces of `n`. -/
def piecesOf (n : Nat) : Nat → List Byte → List (List Byte)
  | 0, _ => []
  | count + 1, bs => bs.take n :: piecesOf n count (bs.drop n)

/-! ### Hash trees -/

/-- The node of height `z` and index `i`. -/
def slhNode (leaf : Nat → List Byte) (join : Nat → Nat → List Byte → List Byte) : Nat → Nat → List Byte
  | 0, i => leaf i
  | z + 1, i => join (z + 1) i (slhNode leaf join z (2 * i) ++ slhNode leaf join z (2 * i + 1))

/-- The siblings on the way from leaf `i` to the root of a tree of height `z`. -/
def slhPath (leaf : Nat → List Byte) (join : Nat → Nat → List Byte → List Byte) (z i : Nat) : List (List Byte) :=
  (List.range z).map (fun j => slhNode leaf join j (Nat.xor (i / 2 ^ j) 1))

/-- The root that a node of height `z` and index `i` has with these siblings. -/
def slhClimb (join : Nat → Nat → List Byte → List Byte) : Nat → Nat → List Byte → List (List Byte) → List Byte
  | _, _, node, [] => node
  | z, i, node, x :: xs => slhClimb join (z + 1) (i / 2) (join (z + 1) (i / 2) (if i % 2 = 0 then node ++ x else x ++ node)) xs

/-! ### WOTS+ -/

/-- `steps` steps of a chain from step `i` on. -/
def wotsChain (p : SlhSet) (pk : List Byte) (x : Adrs) : Nat → Nat → List Byte → List Byte
  | 0, _, v => v
  | steps + 1, i, v => wotsChain p pk x steps (i + 1) (slhHash p pk { x with w3 := i } v)

/-- The digits of a message and of its checksum. -/
def wotsDigits (p : SlhSet) (m : List Byte) : List Nat :=
  let ds := digitsOf 4 (2 * p.n) m
  let sum := (ds.map (fun d => 15 - d)).foldl (· + ·) 0
  ds ++ digitsOf 4 3 (natBE 2 (sum * 16))

/-- The secret start of chain `i`. `x` is the WOTS+ address of the key pair. -/
def wotsSecret (p : SlhSet) (sk pk : List Byte) (x : Adrs) (i : Nat) : List Byte :=
  slhHash p pk { x with type := 5, w2 := i, w3 := 0 } sk

/-- A key of its chains' ends. -/
def wotsKey (p : SlhSet) (pk : List Byte) (x : Adrs) (ends : List (List Byte)) : List Byte :=
  slhHash p pk { x with type := 1, w2 := 0, w3 := 0 } ends.flatten

def wotsGen (p : SlhSet) (sk pk : List Byte) (x : Adrs) : List Byte :=
  wotsKey p pk x ((List.range p.len).map (fun i => wotsChain p pk { x with w2 := i } 15 0 (wotsSecret p sk pk x i)))

def wotsSign (p : SlhSet) (sk pk : List Byte) (x : Adrs) (m : List Byte) : List Byte :=
  ((wotsDigits p m).zipIdx.map (fun d => wotsChain p pk { x with w2 := d.2 } d.1 0 (wotsSecret p sk pk x d.2))).flatten

/-- The key that a signature of `m` comes from. -/
def wotsFrom (p : SlhSet) (pk : List Byte) (x : Adrs) (sig m : List Byte) : List Byte :=
  let vs := piecesOf p.n p.len sig
  wotsKey p pk x ((wotsDigits p m).zipIdx.map (fun d => wotsChain p pk { x with w2 := d.2 } (15 - d.1) d.1 (vs.getD d.2 [])))

/-! ### One layer, and all layers -/

/-- The WOTS+ address of key pair `i` in a tree, and the joining of two of the tree's nodes. -/
def Adrs.wots (x : Adrs) (i : Nat) : Adrs := { x with type := 0, w1 := i, w2 := 0, w3 := 0 }
def Adrs.join (x : Adrs) (p : SlhSet) (pk : List Byte) (z i : Nat) (m : List Byte) : List Byte :=
  slhHash p pk { x with type := 2, w1 := 0, w2 := z, w3 := i } m

def xmssLeaf (p : SlhSet) (sk pk : List Byte) (x : Adrs) (i : Nat) : List Byte := wotsGen p sk pk (x.wots i)

def xmssSign (p : SlhSet) (sk pk : List Byte) (x : Adrs) (i : Nat) (m : List Byte) : List Byte :=
  wotsSign p sk pk (x.wots i) m ++ (slhPath (xmssLeaf p sk pk x) (x.join p pk) p.hp i).flatten

def xmssFrom (p : SlhSet) (pk : List Byte) (x : Adrs) (i : Nat) (sig m : List Byte) : List Byte :=
  slhClimb (x.join p pk) 0 i (wotsFrom p pk (x.wots i) sig m) (piecesOf p.n p.hp (sig.drop (p.len * p.n)))

/-- Bytes of one layer's signature. -/
def SlhSet.layerLen (p : SlhSet) : Nat := (p.len + p.hp) * p.n

/-- Signs `m` by the layers from `layer` on, `left` of them. -/
def htSign (p : SlhSet) (sk pk : List Byte) : Nat → Nat → Nat → Nat → List Byte → List Byte
  | 0, _, _, _, _ => []
  | left + 1, layer, tree, leaf, m =>
    let x : Adrs := { layer := layer, tree := tree }
    let sig := xmssSign p sk pk x leaf m
    sig ++ htSign p sk pk left (layer + 1) (tree / 2 ^ p.hp) (tree % 2 ^ p.hp) (xmssFrom p pk x leaf sig m)

/-- The root that a signature by the layers from `layer` on leads to. -/
def htFrom (p : SlhSet) (pk : List Byte) : Nat → Nat → Nat → Nat → List Byte → List Byte → List Byte
  | 0, _, _, _, _, m => m
  | left + 1, layer, tree, leaf, sig, m =>
    htFrom p pk left (layer + 1) (tree / 2 ^ p.hp) (tree % 2 ^ p.hp) (sig.drop p.layerLen)
      (xmssFrom p pk { layer := layer, tree := tree } leaf (sig.take p.layerLen) m)

/-! ### FORS -/

/-- The joining of two nodes of the FORS trees. `x` is the address of the FORS key. -/
def Adrs.forsJoin (x : Adrs) (p : SlhSet) (pk : List Byte) (z i : Nat) (m : List Byte) : List Byte :=
  slhHash p pk { x with type := 3, w2 := z, w3 := i } m

def forsSecret (p : SlhSet) (sk pk : List Byte) (x : Adrs) (i : Nat) : List Byte :=
  slhHash p pk { x with type := 6, w2 := 0, w3 := i } sk

def forsLeaf (p : SlhSet) (sk pk : List Byte) (x : Adrs) (i : Nat) : List Byte :=
  x.forsJoin p pk 0 i (forsSecret p sk pk x i)

/-- The leaf that each tree signs by, among the leaves of all trees. -/
def forsLeaves (p : SlhSet) (md : List Byte) : List Nat :=
  (digitsOf p.a p.k md).zipIdx.map (fun d => d.2 * 2 ^ p.a + d.1)

def forsSign (p : SlhSet) (sk pk : List Byte) (x : Adrs) (md : List Byte) : List Byte :=
  (forsLeaves p md).flatMap (fun i =>
    forsSecret p sk pk x i ++ (slhPath (forsLeaf p sk pk x) (x.forsJoin p pk) p.a i).flatten)

def forsFrom (p : SlhSet) (pk : List Byte) (x : Adrs) (sig md : List Byte) : List Byte :=
  let one := (1 + p.a) * p.n
  slhHash p pk { x with type := 4, w2 := 0, w3 := 0 } ((forsLeaves p md).zipIdx.flatMap (fun y =>
    let g := (sig.drop (y.2 * one)).take one
    slhClimb (x.forsJoin p pk) 0 y.1 (x.forsJoin p pk 0 y.1 (g.take p.n)) (piecesOf p.n p.a (g.drop p.n))))

/-! ### Keys and signatures -/

/-- PK.root. -/
def slhRoot (p : SlhSet) (sk pk : List Byte) : List Byte :=
  let x : Adrs := { layer := p.d - 1 }
  slhNode (xmssLeaf p sk pk x) (x.join p pk) p.hp 0

/-- The message of pure mode with an empty context string. -/
def slhPure (m : List Byte) : List Byte := 0 :: 0 :: m

/-- Bytes of the digest that choose FORS leaves, a tree and a leaf. -/
def SlhSet.mdLen (p : SlhSet) : Nat := (p.k * p.a + 7) / 8
def SlhSet.treeLen (p : SlhSet) : Nat := (p.h - p.hp + 7) / 8
def SlhSet.leafLen (p : SlhSet) : Nat := (p.hp + 7) / 8

/-- What the randomizer and the message choose: the FORS digest, the tree and the leaf. -/
def slhDigest (p : SlhSet) (r pk root m : List Byte) : List Byte × Nat × Nat :=
  let g := shake256 (r ++ pk ++ root ++ slhPure m) (p.mdLen + p.treeLen + p.leafLen)
  (g.take p.mdLen, beNat ((g.drop p.mdLen).take p.treeLen) % 2 ^ (p.h - p.hp),
    beNat (g.drop (p.mdLen + p.treeLen)) % 2 ^ p.hp)

/-- The address of the FORS key of a tree's leaf. -/
def forsAdrs (tree leaf : Nat) : Adrs := { tree := tree, type := 3, w1 := leaf }

/-- Signs a message. `sk` is SK.seed, `prf` SK.prf, `pk` PK.seed, and `rnd` the added randomness. -/
def slhSign (p : SlhSet) (sk prf pk rnd m : List Byte) : List Byte :=
  let root := slhRoot p sk pk
  let r := shake256 (prf ++ rnd ++ slhPure m) p.n
  let (md, tree, leaf) := slhDigest p r pk root m
  let x := forsAdrs tree leaf
  let f := forsSign p sk pk x md
  r ++ f ++ htSign p sk pk p.d 0 tree leaf (forsFrom p pk x f md)

/-- Verifies a signature under a public key: PK.seed, then PK.root. -/
def slhVerify (p : SlhSet) (key m sig : List Byte) : Bool :=
  let pk := key.take p.n
  let root := key.drop p.n
  let fors := p.k * (1 + p.a) * p.n
  let (md, tree, leaf) := slhDigest p (sig.take p.n) pk root m
  let f := forsFrom p pk (forsAdrs tree leaf) ((sig.drop p.n).take fors) md
  decide (sig.length = p.sigLen) && decide (key.length = 2 * p.n) &&
    decide (htFrom p pk p.d 0 tree leaf (sig.drop (p.n + fors)) f = root)

end Sys2Proof.Machine
end

