-- ==== Sys2Proof/Machine/Flash.lean ====
section
/-! DEFINITION. Flash: layout, records and their commits, and firmware images (R455 to R464). -/

namespace Sys2Proof.Machine

/-! ### Bytes of flash (R455) -/

/-- A flash byte: the manufacture area is fixed, erased flash reads 0xFF. (DESIGN CHOICE, log entry 4.) -/
def flashByte (s : State) (a : Nat) : Byte :=
  if 0x2000000 ≤ a ∧ a < 0x2100000 then Config.factoryByte (a - 0x2000000) else tget 0xFF s.sto.flash a

def flashRead (s : State) (a : Nat) : Nat → List Byte
  | 0 => []
  | n + 1 => flashByte s a :: flashRead s (a + 1) n

/-- Puts bytes into flash. -/
def flashPut (m : Tbl Byte) (a : Nat) : List Byte → Tbl Byte
  | [] => m
  | b :: bs => flashPut (tset 0xFF m a b) (a + 1) bs

def flashWrite (s : State) (a : Nat) (bs : List Byte) : State :=
  { s with sto := { s.sto with flash := flashPut s.sto.flash a bs } }

/-- Erases a range. -/
def flashErase (s : State) (a n : Nat) : State :=
  { s with sto := { s.sto with flash := tkeep (fun k => !(a ≤ k && k < a + n)) s.sto.flash } }

/-- The IDENT item: serial number and MAC address, first in the manufacture area (DESIGN CHOICE, log entry 40). -/
def identItem (s : State) : List Byte := flashRead s 0x2000000 14

/-! ### Records (Tables 16.7 and 16.8) -/

def recSize (kind : Nat) : Nat := if kind = 2 then 0x8000 else 0x2000

/-- Slot A (0) or B (1) of a kind. -/
def recSlot (kind b : Nat) : Nat :=
  (match kind with
   | 1 => 0x2100000
   | 2 => 0x2110000
   | 3 => 0x2120000
   | 4 => 0x2130000
   | k => 0x2140000 + (k - 5) * 0x4000) + b * recSize kind

def recMagic : Nat := 0x4E524543
def recDone : Nat := 0x5A5A5A5AC3C3C3C3

/-- The 64 bytes of a slot's header, with its CRC field as given. -/
def recHeader (kind gen len crc : Nat) : List Byte :=
  natLE 4 recMagic ++ natLE 1 kind ++ natLE 1 1 ++ natLE 2 0 ++ natLE 4 gen ++ natLE 4 len ++ natLE 4 crc ++
    List.replicate 44 0

def slotGen (s : State) (kind b : Nat) : Nat := leNat (flashRead s (recSlot kind b + 8) 4)
def slotLen (s : State) (kind b : Nat) : Nat := leNat (flashRead s (recSlot kind b + 12) 4)
def slotPayload (s : State) (kind b : Nat) : List Byte := flashRead s (recSlot kind b + 0x40) (slotLen s kind b)

/-- R457. -/
def slotValid (s : State) (kind b : Nat) : Bool :=
  let a := recSlot kind b
  leNat (flashRead s a 4) = recMagic && flashByte s (a + 4) = BitVec.ofNat 8 kind &&
  decide (64 + slotLen s kind b ≤ recSize kind - 16) &&
  leNat (flashRead s (a + recSize kind - 8) 8) = recDone &&
  leNat (flashRead s (a + 0x10) 4) =
    crc32 (flashRead s a 16 ++ natLE 4 0 ++ flashRead s (a + 0x14) 44 ++ slotPayload s kind b)

/-- `a` is greater than `b`, their difference modulo 2^32 read as signed. -/
def genAfter (a b : Nat) : Bool := decide (0 < sext 32 ((a + 2 ^ 32 - b % 2 ^ 32) % 2 ^ 32))

/-- The slot of the current record. -/
def curSlot (s : State) (kind : Nat) : Option Nat :=
  match slotValid s kind 0, slotValid s kind 1 with
  | true, true => if genAfter (slotGen s kind 1) (slotGen s kind 0) then some 1 else some 0
  | true, false => some 0
  | false, true => some 1
  | false, false => none

/-- The current record's payload. -/
def recPayload (s : State) (kind : Nat) : Option (List Byte) := (curSlot s kind).map (slotPayload s kind)

/-- An uncleared THERMAL record exists (R463). -/
def thermalRec (s : State) : Option (List Byte) :=
  match curSlot s 4 with
  | some b =>
    if leNat (flashRead s (recSlot 4 b + recSize 4 - 16) 8) = 0 then none else some (slotPayload s 4 b)
  | none => none

/-- THM_HOLD shows what flash holds (Table 15.9). -/
def showRecord (s : State) : State :=
  let r := thermalRec s
  let trips := match r with
    | some p => leNat ((p.drop 0x1E).take 1)
    | none => 0
  rset (rsetb s aThmHold 62 r.isSome) aThmHold 39 32 trips

/-- THM_HOLD at a module reset: in THERMAL-HOLD while an uncleared record exists (R441). -/
def loadHold (s : State) : State := rsetb (showRecord s) aThmHold 63 (thermalRec s).isSome

/-- ACTIVE, TRIAL and TRIED of the BOOT record (R457). -/
def bootRec (s : State) : Nat × Nat × Nat :=
  match recPayload s 1 with
  | some (a :: t :: d :: _) => (a.toNat, t.toNat, d.toNat)
  | _ => (0, 0, 0)

def bootPayload (active trial tried : Nat) : List Byte :=
  natLE 1 active ++ natLE 1 trial ++ natLE 1 tried ++ List.replicate 13 0

/-- MINSVN of the current MINVER record. -/
def minSvn (s : State) : Nat :=
  match recPayload s 2 with
  | some p => leNat (p.take 2)
  | none => 0

/-! ### Commits (R462, R463) -/

/-- Commits a record: the other slot takes it with GEN one above, then the old slot is erased. With no current record
    slot A takes it with GEN 1 (DESIGN CHOICE, log entry 40). -/
def commitRec (s : State) (kind : Nat) (payload : List Byte) : State :=
  let cur := curSlot s kind
  let b := if cur = some 0 then 1 else 0
  let gen := match cur with
    | some c => (slotGen s kind c + 1) % 2 ^ 32
    | none => 1
  let a := recSlot kind b
  let crc := crc32 (recHeader kind gen payload.length 0 ++ payload)
  let s := flashErase s a (recSize kind)
  let s := flashWrite s a (recHeader kind gen payload.length crc ++ payload)
  let s := flashWrite s (a + recSize kind - 8) (natLE 8 recDone)
  flashErase s (recSlot kind (1 - b)) (recSize kind)

/-- Clears the THERMAL record: CLEAR of the current slot becomes 0. -/
def clearRec (s : State) : State :=
  match curSlot s 4 with
  | some b => flashWrite s (recSlot 4 b + recSize 4 - 16) (natLE 8 0)
  | none => s

/-- A commit waits its turn. After a loss of the input only a THERMAL commit for a trip may still start (R464). -/
def wantCommit (s : State) (c : Commit) : State :=
  let c := { c with late := s.pins.powerLost && (c.kind ≠ 4 || c.clear) }
  { s with sto := { s.sto with commits := s.sto.commits ++ [c] } }

/-! ### Images (R458, R459, Table 16.10) -/

def imageSlot (b : Nat) : Nat := b * 0x1000000
def sigLen : Nat := 29792

/-- The header's fields. -/
def imgSvn (h : List Byte) : Nat := leNat ((h.drop 0x0C).take 2)
def imgVersion (h : List Byte) : Nat := leNat ((h.drop 8).take 4)
def imgArith (h : List Byte) : Nat := leNat ((h.drop 0x0E).take 1)
def imgMember (h : List Byte) : Nat := leNat ((h.drop 0x0F).take 1)
def imgBody (h : List Byte) : Nat := leNat ((h.drop 0x10).take 4)
def imgKey (h : List Byte) : List Byte := (h.drop 0x18).take 64

/-- The signing key is the one whose digest the boot ROM holds. -/
def keyTrusted (pk : List Byte) : Bool := decide (shake256 pk 32 = Config.imageKeyDigest)

/-- Everything of R459 but the SVN, of an image with header `h`, message `m` (header and body) and signature `g`. -/
def imageGenuine (s : State) (h m g : List Byte) : Bool :=
  leNat (h.take 4) = 0x56524957 && leNat ((h.drop 4).take 4) = 1 && imgMember h = rf s aParamId 47 40 &&
  decide (128 + imgBody h + sigLen ≤ 0x1000000) && keyTrusted (imgKey h) && slhVerify slh256s (imgKey h) m g

/-- Why an image fails: 0x9_001, 0x9_002 for its SVN, or 0. -/
def imageCode (s : State) (bs : List Byte) : Nat :=
  let h := bs.take 128
  let n := 128 + imgBody h
  if bs.length < n + sigLen ∨ !imageGenuine s h (bs.take n) ((bs.drop n).take sigLen) then 0x9001
  else if imgSvn h < minSvn s then 0x9002
  else 0

/-- The image in slot `b`: header, body and signature, no more than the slot holds. -/
def slotImage (s : State) (b : Nat) : List Byte :=
  let h := flashRead s (imageSlot b) 128
  flashRead s (imageSlot b) (Nat.min 0x1000000 (128 + imgBody h + sigLen))

/-! ### Cut short (R460, R464, R471) -/

/-- An NVS command that a reset or a power loss cuts off. What an UPDATE was writing of its slot is left undefined, and its
    BOOT commit does not happen. -/
def cutCommand (s : State) : State :=
  match s.sto.cmd, s.sto.commits.any (fun c => c.nvs) with
  | some (1, _, _, len), true =>
    let s := { s with sto := { s.sto with cmd := none, cmdCode := 0, commits := s.sto.commits.filter (fun c => !c.nvs) } }
    let (act, _, _) := bootRec s
    let n := Nat.min len 0x1000000
    flashWrite (drawn s n) (imageSlot (if act = 0 then 1 else 0)) (freeBytes s n)
  | _, _ =>
    { s with sto := { s.sto with
        cmd := none, cmdCode := 0, commits := s.sto.commits.map (fun c => { c with nvs := false }) } }

end Sys2Proof.Machine
end

