-- ==== Sys2Proof/Machine/Reset.lean ====
section
/-! DEFINITION. What resets, power-off and isolation clear (Table 16.3, R97, R425, R447), and the core stage. -/

namespace Sys2Proof.Machine

/-! ### Tiles and Reeds -/

/-- The tile whose store or instruction memory holds an address. -/
def tileOfAddr (a : Nat) : Option Nat :=
  if storeBase ≤ a ∧ a < storeEnd then some ((a - storeBase) / 0x40000)
  else if imemBase ≤ a ∧ a < imemEnd then some ((a - imemBase) / 0x8000)
  else none

/-- Pairs with a tile that `p` picks end (R494). -/
def breakPairs (s : State) (p : Nat → Bool) : State :=
  (List.range 16).foldl (fun s k =>
    if rbit s (aMgtPairCtrl k) 63 then
      if p (rf s (aMgtPairCtrl k) 12 0) then breakPair s (rf s (aMgtPairCtrl k) 12 0)
      else if p (rf s (aMgtPairCtrl k) 28 16) then breakPair s (rf s (aMgtPairCtrl k) 28 16)
      else s
    else s) s

/-- What stays of a tile whose contents are lost: the active bank (Table 16.3), and the model's transfer numbers. -/
def emptyTile (x : Tile) : Tile := { bank := x.bank, eng := tmap {} (fun _ g => { nextX := g.nextX }) x.eng }

/-- The tiles that `p` picks lose their contents: everything reads 0 when it is next used (R97). -/
def clearTiles (s : State) (p : Nat → Bool) : State :=
  let s := resetRegs s (fun r => tileKind r.kind && p r.i) codeM
  { s with
    tile := tmap {} (fun t x => if p t then emptyTile x else x) s.tile
    mem := tkeep (fun a => !(tileOfAddr a).any p) s.mem
    hold := tkeep (fun k => !p (k / 0x10000)) s.hold }

/-- The Reeds that `p` picks lose their contents and stand IDLE; one whose channel is EXCLUDED stays OUT. -/
def loseReeds (s : State) (p : Nat → Bool) : State :=
  let s := clearReeds s p
  (List.range 512).foldl (fun s n => if p n && chState s n = 3 then setReedState s n 5 else s) s

/-! ### Dies (Table 16.3, column Die reset) -/

/-- A register that die `d` holds with code D or T. -/
def ofDie (d : Nat) (r : Reg) : Bool :=
  if tileKind r.kind then r.i / 1024 = d
  else if isReedKind r.kind then r.i / 64 = d
  else
    match r.kind with
    | .hbmScCtrl | .hbmScStatus | .thmDie | .thmSens => r.i = d
    | .belCtrl | .belPeer | .belStatus | .belLanes | .belLockmap | .belFec | .belTemp | .belRingT | .belRingR =>
      bellDie r.i = d
    | .chnLaneStatus | .chnLaneBar | .chnLaneLate | .chnLaneCtrl => 8 + r.i = d
    | _ => false

/-- The devices of a die's two stacks become undefined. -/
def staleDie (s : State) (d : Nat) : State :=
  let mine (pc : Nat) : Bool := pc / 128 = d
  { drawn s 1 with
    dev := tkeep (fun k => !mine (k / pcBytes)) s.dev
    bad := s.bad.filter (fun k => !mine (k / pcBytes))
    stale := (List.range 128).foldl (fun m i => tset 0 m (d * 128 + i) (s.free + 1)) s.stale }

/-- A compute die loses what it holds: tiles, Reeds, cache lines with the dirty ones among them, write-combining entries,
    and the contents of its stacks. Entries of its engines discard their group credits (R79); mates elsewhere at GBAR
    wait until they are aborted (R92). -/
def clearComputeDie (s : State) (d : Nat) : State :=
  let mine (t : Nat) : Bool := dieOf t = d
  let s := breakPairs s mine
  let s := s.tile.foldl (fun s x =>
    if mine x.1 then
      (List.range 4).foldl (fun s e =>
        let a : At := ⟨BitVec.ofNat 13 x.1, BitVec.ofNat 2 e⟩
        (getEng s a).queue.foldl dropCredit (muteLaunched (strandMates s a) a)) s
    else s) s
  let s := loseReeds (clearTiles s mine) (fun n => n / 64 = d)
  let s := staleDie (setLines s d []) d
  { s with
    chan := tmap {} (fun c x => if homeDie c = d then { x with wc := [] } else x) s.chan
    arb := tkeep (fun p => p / 128 ≠ d) s.arb
    cluster := tkeep (fun c => c / 8 ≠ d) s.cluster }

/-- A port die: its Bells' links go down, and its lane's queue is lost. -/
def clearPortDie (s : State) (d : Nat) : State :=
  let s := (List.range 7).foldl (fun s b => if bellDie b = d then belOff s b else s) s
  setLane s (d - 8) {}

/-- Everything that a die reset of die `d` clears. -/
def clearDie (s : State) (d : Nat) : State :=
  let s := if d < 8 then clearComputeDie s d else clearPortDie s d
  resetRegs s (fun r => ofDie d r && !isReedKind r.kind) codeD

/-! ### The core stage (R24, R25, R447) -/

/-- A register that a Drone island serves while the core stage is off (R423). -/
def islandKind : Kind → Bool
  | .paramId | .drnNow | .drnAlign | .thmCtrl | .thmHold | .thmDie | .thmSens | .pwrCtrl | .pwrStatus | .pwrDom
  | .nvsCmd | .nvsAddr | .nvsLen | .nvsStatus | .nvsCtrl | .secCtrl | .secStatus | .secQaddr | .secNonce | .secExtd
  | .secM | .vrxState | .vrxStby | .mgtSite | .mgtFmHi | .mgtFmLo | .mgtCtrl | .mgtDly | .mgtStorm | .mgtKfn | .mgtKfns
  | .fabCfg | .tenModstat => true
  | _ => false

/-- The contents of the core: everything without power reads 0 when it is next used. Only the active banks stay. -/
def wipeCore (s : State) : State :=
  { s with
    mem := [], hold := [], dev := [], stale := [], bad := [], cache := [], chan := [], arb := [], waits := [], closing := []
    tile := tmap {} (fun _ x => { bank := x.bank }) s.tile
    cluster := [], grpPush := [], grpCred := [], reed := [], fab := {}, bell := [], lpLost := [], chn := {}
    ten := {}, hl := {}, chat := none, route := [] }

/-- The core power stage turns off, and PWR_GOOD goes low. The power-off touches the tiles of every pair (R494). -/
def coreOff (s : State) : State :=
  let s := wipeCore (breakPairs s (fun _ => true))
  let s := resetRegs s (fun r => !islandKind r.kind) codeM
  alertCheck { s with pins := { s.pins with core := false, pwrGood := false } }

/-- The core stage starts where it is wanted and nothing holds it back: MOD_RESET_N low, a trip (R26), a failed rail
    (R24), no input, or a THERMAL record still being written (R443, R453). -/
def startCore (s : State) : State :=
  let p := s.pins
  if p.want ∧ !p.core ∧ p.input ∧ p.drone ∧ !p.powerLost ∧ !p.tripLow ∧ !p.rstLow ∧ !p.railFail ∧
      !s.sto.commits.any (fun c => c.kind = 4 && !c.clear) then
    { s with pins := { p with core := true } }
  else s

/-! ### Module reset (R447, R48, Table 16.3) -/

/-- The state that every path into the boot sequence shares: registers of codes M, D and T at their reset values, core
    contents and reports lost, histories empty; the Drone counter, flash and the pins stay. -/
def resetBody (s : State) : State :=
  let s := cutCommand s
  let s := wipeCore s
  let s := resetRegs s (fun _ => true) codeM
  { s with
    rep := { last := s.rep.last, sent := s.rep.sent, mgt := s.rep.mgt }
    drone := { s.drone with inRange := 0, everAligned := false, offs := [], slew := 0, ran := 0 }
    mgt := { s.mgt with smbMask := 0xF }
    thm := {}
    sto := { s.sto with meas := [], pubKey := [], secret := [], quote := none, image := [] } }

/-- A module reset with its cause (TEN_MODSTAT). While THERM_TRIP_N is low, or MOD_RESET_N is held, the core stays off. -/
def moduleReset (s : State) (cause : Nat) : State :=
  let s := loadHold (resetBody s)
  let s := rset s aTenModstat 63 60 cause
  let s := rset (rset s aVrxState 63 60 0) aVrxState 55 52 1
  let s := { s with pins := { s.pins with core := false, pwrGood := false, want := true } }
  alertCheck (startCore s)

/-- Without power nothing volatile stays (R464): flash, and what has left the module. -/
def coldState (s : State) : State :=
  { pending := s.pending, free := s.free
    sto := { flash := s.sto.flash }
    rep := { sent := s.rep.sent, mgt := s.rep.mgt }
    mgt := { sent := s.mgt.sent, smbOut := s.mgt.smbOut }
    pins := { input := s.pins.input, drone := false, core := false, pwrGood := false } }

end Sys2Proof.Machine
end

