-- ==== Sys2Proof/Machine/Tenon.lean ====
section
/-! DEFINITION. Tenon (chapter 10): links, wires and widths, messages and flits, package routes, isolation,
re-admission, and the registers. -/

namespace Sys2Proof.Machine

/-! ### Links (Table 10.1) -/

/-- Links of a die, with the die at their other end, by rising link number. -/
def linksOf (d : Nat) : List (Nat × Nat) :=
  (List.range 16).filterMap (fun l =>
    let (a, _, b, _) := endsOf l
    if a = d then some (l, b) else if b = d then some (l, a) else none)

/-- The port of a die on a link. -/
def portOn (l d : Nat) : Nat :=
  let (a, ap, _, bp) := endsOf l
  if a = d then ap else bp

def linkState (s : State) (l : Nat) : Nat := rf s (aTenLinkStatus l) 63 60
def setLinkState (s : State) (l v : Nat) : State := rset s (aTenLinkStatus l) 63 60 v

/-- A link carries messages: FULL or HALF. -/
def linkUp (s : State) (l : Nat) : Bool := linkState s l = 3 || linkState s l = 4

/-- A link counts as up for distances: it carries messages or retrains. -/
def linkLive (s : State) (l : Nat) : Bool := linkUp s l || linkState s l = 5

def linkInUse (s : State) (l : Nat) : Nat := rf s (aTenLinkStatus l) 43 28

/-- The unit of a link's reports: end A (as in the worked example of chapter 10). (DEDUCED, log entry 100.) -/
def unitOfLink (l : Nat) : Nat :=
  let (a, ap, _, _) := endsOf l
  0x6000 + a * 8 + ap

def unitOfDie (d : Nat) : Nat := 0x6000 + d * 8 + 7

def linkReport (s : State) (l code : Nat) : State :=
  report s (unitOfLink l) code (linkArgs s (some l) (endsOf l).1 0)

/-- A report of a die; `link` is the link whose failure it is (CAUSE 1 and 5), if it is one. -/
def dieReport (s : State) (d code : Nat) (link : Option Nat) (cause : Nat) : State :=
  report s (unitOfDie d) code (linkArgs s link d cause)

/-! ### Wires, spares and width (R275, R276, R286) -/

def badWires (s : State) (l dir : Nat) : List Nat := tget [] s.ten.bad (l * 2 + dir)

/-- Failed data wires of a spare group, lowest first. -/
def groupBad (s : State) (l dir g : Nat) : List Nat :=
  (List.range 32).filter (fun i => (badWires s l dir).contains (g * 32 + i))

def spareBad (s : State) (l dir g : Nat) : Bool := (badWires s l dir).contains (1024 + g)

/-- A TEN_MAP entry from the failed wires (Table 10.15). With several failed wires the spare takes the lowest
    (DEDUCED, log entry 39). -/
def mapEntry (s : State) (l dir g : Nat) : Nat :=
  let bad := groupBad s l dir g
  let sp := spareBad s l dir g
  let used := !bad.isEmpty && !sp
  (if sp then 0x80 else 0) + (if used then 0x40 + bad.headD 0 else 0)

def groupWhole (s : State) (l dir g : Nat) : Bool :=
  let bad := groupBad s l dir g
  bad.isEmpty || (bad.length = 1 && !spareBad s l dir g)

def laneWhole (s : State) (l k : Nat) : Bool :=
  groupWhole s l 0 (2 * k) && groupWhole s l 0 (2 * k + 1) && groupWhole s l 1 (2 * k) && groupWhole s l 1 (2 * k + 1)

def wholeLanes (s : State) (l : Nat) : List Nat := (List.range 16).filter (laneWhole s l)

/-- WHOLE, TEN_MAP and TEN_LINKn_SPARE follow the failed wires. -/
def showWires (s : State) (l : Nat) : State :=
  let s := rset s (aTenLinkStatus l) 59 44 (laneMask (wholeLanes s l))
  let used (dir : Nat) : Nat := laneMask ((List.range 32).filter (fun g => 0x40 ≤ mapEntry s l dir g % 0x80))
  let s := regPut s (aTenLinkSpare l) (BitVec.ofNat 64 (used 1 * 2 ^ 32 + used 0))
  (List.range 64).foldl (fun s i => regPut s (aTenMap l i) (BitVec.ofNat 64 (mapEntry s l (i / 32) (i % 32)))) s

/-- A link comes up FULL or HALF, or FAILED, by its whole lanes (R276); `half` keeps it from FULL. -/
def setWidth (s : State) (l : Nat) (half : Bool) : State :=
  let ws := wholeLanes s l
  if ws.length < 8 then rset (setLinkState s l 7) (aTenLinkStatus l) 43 28 0
  else if ws.length = 16 ∧ !half then rset (setLinkState s l 3) (aTenLinkStatus l) 43 28 0xFFFF
  else rset (setLinkState s l 4) (aTenLinkStatus l) 43 28 (laneMask (ws.take 8))

/-- The failed wires that a test found on a link replace the ones held. -/
def setBad (s : State) (l : Nat) (bad : List BadWire) : State :=
  let of (dir : Bool) : List Nat :=
    (bad.filter (fun w => w.link.toNat = l && w.dir = dir)).map (fun w => w.wire)
  let t := tset [] (tset [] s.ten.bad (l * 2) (of false)) (l * 2 + 1) (of true)
  showWires { s with ten := { s.ten with bad := t } } l

/-- The SPARE record's payload for the maps in force (Table 16.7). -/
def spareBytes (s : State) : List Byte :=
  (List.range 1024).map (fun k => BitVec.ofNat 8 (mapEntry s (k / 64) (k / 32 % 2) (k % 32)))

/-- The maps of the links that `p` picks are compared with the record; each that differs raises 0x3_001 (R287). -/
def compareMaps (s : State) (p : Nat → Bool) : State :=
  let new := spareBytes s
  let old := (recPayload s 3).getD (List.replicate 1024 0)
  let diff (l : Nat) : Bool := (new.drop (l * 64)).take 64 ≠ (old.drop (l * 64)).take 64
  (List.range 16).foldl (fun s l => if p l && diff l then linkReport s l 0x3001 else s) s

/-- The new maps become the record, where it does not hold them already. -/
def commitMaps (s : State) : State :=
  if recPayload s 3 = some (spareBytes s) then s else wantCommit s { kind := 3, payload := spareBytes s }

/-! ### Distances and routes (R290, R293) -/

def allDies : List Nat := List.range 12

/-- One round of reaching out from P0: dies within one more hop. -/
def reachStep (s : State) (ok : Nat → Bool) (r : List Nat) : List Nat :=
  allDies.filter (fun d => r.contains d || (ok d && (linksOf d).any (fun x => ok x.2 && r.contains x.2 && linkLive s x.1)))

/-- Dies within `k` hops of P0. -/
def reach (s : State) (ok : Nat → Bool) : Nat → List Nat
  | 0 => [8]
  | k + 1 => reachStep s ok (reach s ok k)

/-- Hops from P0 over live links between dies that are not isolated; none where there is no path. -/
def depth (s : State) (d : Nat) : Option Nat :=
  (List.range 12).find? (fun k => (reach s (fun x => !dieIsolated s x) k).contains d)

def depthOr (s : State) (d : Nat) : Nat := (depth s d).getD 99

/-- The hop from `x` to `y` is up. -/
def hopUp (dep : List Nat) (x y : Nat) : Bool :=
  let a := dep.getD x 99
  let b := dep.getD y 99
  decide (b < a) || (a = b && decide (y < x))

/-- Usable hops of a die: link and other die. -/
def hopsOf (s : State) (x : Nat) : List (Nat × Nat) :=
  if dieIsolated s x then []
  else (linksOf x).filter (fun h => linkLive s h.1 && !dieIsolated s h.2)

def leastOf (xs : List Nat) : Nat := xs.foldl Nat.min 99

/-- One round of distances to a destination by down hops alone. -/
def downStep (s : State) (dep dd : List Nat) : List Nat :=
  allDies.map (fun x => Nat.min (dd.getD x 99)
    (leastOf (((hopsOf s x).filter (fun h => !hopUp dep x h.2)).map (fun h => 1 + dd.getD h.2 99))))

/-- One round of distances by up hops and then down hops. -/
def upStep (s : State) (dep dd ud : List Nat) : List Nat :=
  allDies.map (fun x => Nat.min (Nat.min (dd.getD x 99) (ud.getD x 99))
    (leastOf (((hopsOf s x).filter (fun h => hopUp dep x h.2)).map (fun h => 1 + ud.getD h.2 99))))

def repeatStep (f : List Nat → List Nat) : Nat → List Nat → List Nat
  | 0, x => x
  | n + 1, x => repeatStep f n (f x)

/-- The links of route(src, t), in order, each with the die it leaves: ties go to the lowest-numbered link. -/
def walkRoute (s : State) (dep dd ud : List Nat) (t : Nat) : Nat → Nat → Bool → List (Nat × Nat)
  | 0, _, _ => []
  | fuel + 1, x, down =>
    if x = t then []
    else
      let n := if down then dd.getD x 99 else ud.getD x 99
      let good (h : Nat × Nat) : Bool :=
        if hopUp dep x h.2 then !down && 1 + ud.getD h.2 99 = n else 1 + dd.getD h.2 99 = n
      match (hopsOf s x).find? good with
      | none => []
      | some (l, y) => (x, l) :: walkRoute s dep dd ud t fuel y (down || !hopUp dep x y)

/-- route(src, t) as the dies it leaves and the links it takes; none where no route exists. -/
def routePath (s : State) (src t : Nat) : Option (List (Nat × Nat)) :=
  let dep := allDies.map (depthOr s)
  let start := allDies.map (fun x => if x = t then 0 else 99)
  let dd := repeatStep (downStep s dep) 12 start
  let ud := repeatStep (upStep s dep dd) 12 dd
  if dieIsolated s t ∨ dieIsolated s src ∨ 99 ≤ ud.getD src 99 then none
  else some (walkRoute s dep dd ud t 12 src false)

/-- The port by which die `x` forwards from `src` to `t`; none where it forwards nothing. -/
def hopAt (s : State) (src t x : Nat) : Option Nat :=
  match routePath s src t with
  | none => none
  | some p => (p.find? (fun h => h.1 = x)).map (fun h => portOn h.2 x)

/-- The routes of die `x` come into force. What led to a destination that has no route stays on record (Table 17.12). -/
def routesNow (s : State) (x : Nat) : State :=
  allDies.foldl (fun s src => allDies.foldl (fun s t =>
    match routePath s src t with
    | none => s
    | some _ =>
      let v := match hopAt s src t x with
        | some p => p + 1
        | none => 0
      { s with route := tset 0 s.route (src * 256 + t * 16 + x) v }) s) s

/-! ### Messages (Tables 10.3 to 10.5) -/

def tmFld (m : TMsg) (hi lo : Nat) : Nat := (m.head.toNat / 2 ^ lo) % 2 ^ (hi + 1 - lo)
def tmDdie (m : TMsg) : Nat := tmFld m 191 188
def tmSdie (m : TMsg) : Nat := tmFld m 187 184
def tmOpc (m : TMsg) : Nat := tmFld m 183 176
def tmUnit (m : TMsg) : Nat := tmFld m 175 160
def tmTag (m : TMsg) : Nat := tmFld m 159 144
def tmLen (m : TMsg) : Nat := tmFld m 143 134
def tmAddr (m : TMsg) : Nat := tmFld m 127 80
def tmStatus (m : TMsg) : Nat := tmFld m 79 64
def tmAux (m : TMsg) : Nat := tmFld m 63 0

/-- The header word of a message. -/
def tmHead (ddie sdie opc unit tag len addr status : Nat) : BitVec 192 :=
  BitVec.ofNat 192 (ddie * 2 ^ 188 + sdie * 2 ^ 184 + opc * 2 ^ 176 + unit * 2 ^ 160 + tag * 2 ^ 144 + len * 2 ^ 134 +
    addr * 2 ^ 80 + status * 2 ^ 64)

/-- The virtual channel of an opcode; none where it is reserved. -/
def opcVc (o : Nat) : Option Nat :=
  if 1 ≤ o ∧ o ≤ 5 then some 0
  else if o = 0x11 ∨ o = 0x12 then some 1
  else if o = 0x20 then some 2
  else if o = 0x30 then some 3
  else if o = 0x31 then some 4
  else if o = 0x40 ∨ o = 0x41 then some 5
  else none

/-- Receive buffers, in flits (Table 10.5). -/
def vcFlits : Nat → Nat
  | 0 => 96 | 1 => 96 | 2 => 64 | 3 => 48 | 4 => 48 | 5 => 16 | _ => 0

/-- A request that is answered by RDRSP or WRACK. -/
def tmAsks (m : TMsg) : Bool := [1, 2, 3, 4, 0x40, 0x41].contains (tmOpc m)

/-- The opcode of the answer. -/
def answerOpc (o : Nat) : Nat := if o = 1 ∨ o = 0x40 then 0x11 else 0x12

/-- Bytes of a message's body: RD and CRD have none. -/
def tmBodyLen (m : TMsg) : Nat := if tmOpc m = 1 ∨ tmOpc m = 0x40 then 0 else tmLen m

/-- Flits of a message (R278). -/
def tmFlits (m : TMsg) : Nat := 1 + (tmBodyLen m + 23) / 24

/-- The answer to a request. -/
def answerMsg (m : TMsg) (status : Nat) (body : List Byte) : TMsg :=
  { head := tmHead (tmSdie m) (tmDdie m) (answerOpc (tmOpc m)) (0x7000 + tmDdie m) (tmTag m) body.length 0 status, body := body }

/-! ### Link ends and lanes (R279 to R283) -/

def getEnd (s : State) (k : Nat) : TEnd := tget {} s.ten.ends k
def setEnd (s : State) (k : Nat) (x : TEnd) : State := { s with ten := { s.ten with ends := tset {} s.ten.ends k x } }
def endKey (d p : Nat) : Nat := d * 4 + p
def getTLane (x : TEnd) (l : Nat) : TLane := tget {} x.lanes l
def setTLane (x : TEnd) (l : Nat) (y : TLane) : TEnd := { x with lanes := tset {} x.lanes l y }

/-- The link of an end. -/
def endLink (k : Nat) : Option Nat := linkAt (k / 4) (k % 4)

/-- Lanes in use, ascending. -/
def lanesInUse (s : State) (l : Nat) : List Nat := (List.range 16).filter (fun i => (linkInUse s l).testBit i)

/-- The lane of a message on a link (R283). -/
def laneFor (s : State) (l : Nat) (m : TMsg) : Nat :=
  let u := tmUnit m
  let i := (u % 16) ^^^ (u / 16 % 16) ^^^ (u / 256 % 16) ^^^ (u / 4096 % 16) ^^^ tmSdie m
  if linkState s l = 3 then i else (lanesInUse s l).getD (i % 8) 0

/-- The payloads of a message's flits: payload, VC, KIND, LAST. -/
def msgFlits (m : TMsg) : List (BitVec 192 × BitVec 3 × BitVec 2 × Bool) :=
  let vc := BitVec.ofNat 3 ((opcVc (tmOpc m)).getD 0)
  let n := tmFlits m
  (m.head, vc, 1, n = 1) ::
    (List.range (n - 1)).map (fun i =>
      (BitVec.ofNat 192 (leNat ((m.body.drop (24 * i)).take 24)), vc, 2, i + 2 = n))

/-- The 240 bits under a flit's CRC, and the flit (Table 10.2). -/
def mkFlit (seq ack : Nat) (vc kind : Nat) (last : Bool) (crvc crcnt : Nat) (payload : BitVec 192) : BitVec 256 :=
  let low := seq * 2 ^ 232 + ack * 2 ^ 224 + vc * 2 ^ 221 + kind * 2 ^ 219 + (if last then 2 ^ 218 else 0) +
    crvc * 2 ^ 215 + crcnt * 2 ^ 210 + payload.toNat
  BitVec.ofNat 256 (crc16 low * 2 ^ 240 + low)

/-- The first VC with credits owed, and how many one flit can carry. -/
def oweFirst (x : TEnd) : Nat × Nat :=
  match x.owe with
  | (v, n) :: _ => (v, Nat.min 31 n)
  | [] => (0, 0)

/-- Sends one sequenced flit on a lane of an end. -/
def sendFlit (x : TEnd) (l : Nat) (f : BitVec 192 × BitVec 3 × BitVec 2 × Bool) : TEnd :=
  let y := getTLane x l
  let (v, n) := oweFirst x
  let seq := y.txSeq + 1
  let flit := mkFlit seq.toNat y.rxSeq.toNat f.2.1.toNat f.2.2.1.toNat f.2.2.2 v n f.1
  let x := { x with owe := tset 0 x.owe v (tget 0 x.owe v - n) }
  setTLane x l { y with txSeq := seq, replay := y.replay ++ [flit] }

/-- Moves waiting flits of a lane into its replay buffer while that holds fewer than 64. `fuel` bounds them. -/
def pumpLane (l : Nat) : Nat → TEnd → TEnd
  | 0, x => x
  | fuel + 1, x =>
    let y := getTLane x l
    match y.queue with
    | [] => x
    | f :: fs =>
      if y.retest ∨ 64 ≤ y.replay.length then x
      else pumpLane l fuel (sendFlit (setTLane x l { y with queue := fs }) l f)

/-- Starts waiting messages that hold credits for every flit; messages of one VC start in order (R279, R284). -/
def startMsgs (s : State) (l : Nat) : List TMsg → List Nat → TEnd → TEnd
  | [], _, x => x
  | m :: ms, held, x =>
    let vc := (opcVc (tmOpc m)).getD 0
    let n := tmFlits m
    if held.contains vc ∨ vcFlits vc < tget 0 x.used vc + n then
      startMsgs s l ms (vc :: held) { x with wait := x.wait ++ [m] }
    else
      let k := laneFor s l m
      let y := getTLane x k
      let x := { x with used := tset 0 x.used vc (tget 0 x.used vc + n) }
      startMsgs s l ms held (setTLane x k { y with queue := y.queue ++ msgFlits m })

/-- A link end sends what it can: messages, then flits, then credits that nothing else carried, on its lowest lane. -/
def pumpEnd (s : State) (k : Nat) : State :=
  match endLink k with
  | none => s
  | some l =>
    if !linkUp s l then s
    else
      let x := getEnd s k
      let x := startMsgs s l x.wait [] { x with wait := [] }
      let lanes := lanesInUse s l
      let x := lanes.foldl (fun x i => pumpLane i (getTLane x i).queue.length x) x
      let free := lanes.find? (fun i =>
        let y := getTLane x i
        !y.retest && y.queue.isEmpty && decide (y.replay.length < 64))
      let x :=
        match x.owe, free with
        | _ :: _, some i => sendFlit x i (0, 0, 3, true)
        | _, _ => x
      setEnd s k x

/-- A request's answer reaches its requester. -/
def gotAnswer (s : State) (m : TMsg) : State := { s with ten := { s.ten with got := m :: s.ten.got } }

/-- The request that a response answers. -/
def answersTo (r m : TMsg) : Bool :=
  tmSdie m = tmDdie r && tmDdie m = tmSdie r && tmTag m = tmTag r && answerOpc (tmOpc m) = tmOpc r

/-- A message that can not be carried: the request that it is or answers completes with error 0x3_010 at its issuer (R292); what
    has no answer is lost. -/
def failMsg (s : State) (m : TMsg) : State :=
  match s.ten.open_.find? (fun q => decide (q = m) || answersTo m q) with
  | some q =>
    let s := { s with ten := { s.ten with open_ := s.ten.open_.erase q } }
    let s := reportCut s (tmSdie q) (tmDdie q)
    gotAnswer s (answerMsg q 0x3010 [])
  | none => s

/-- A message waits at a link end, and is sent as it can be. -/
def queueMsg (s : State) (k : Nat) (m : TMsg) : State :=
  pumpEnd (setEnd s k { getEnd s k with wait := (getEnd s k).wait ++ [m] }) k

/-- A message is no longer under way: delivered, failed, or about to leave by another link. -/
def offWay (s : State) (m : TMsg) : State :=
  { s with ten := { s.ten with under := s.ten.under.eraseP (fun u => u.1 = m) } }

/-- A message leaves a die by a port, and is under way on that link. -/
def leaveBy (s : State) (d p : Nat) (m : TMsg) : State :=
  queueMsg { s with ten := { s.ten with under := s.ten.under ++ [(m, (linkAt d p).getD 16)] } } (endKey d p) m

/-- Source and destination of a message, as a route. -/
def routeKey (m : TMsg) : Nat := tmSdie m * 16 + tmDdie m

/-- A message of a route is under way. -/
def onWay (s : State) (r : Nat) : Bool := s.ten.under.any (fun u => routeKey u.1 = r)

/-- The routes change: each die takes the new ones at an instant of its own (R292). -/
def routesChange (s : State) : State := { s with ten := { s.ten with old := allDies, was := s.route } }

/-- The port by which a message goes on from die `d`, whose new routes are in force and pass it by: that of its old route while
    this is not FENCED, since a message sent on the old route is still delivered (R293); else that of the die's own route. -/
def strayPort (s : State) (d : Nat) (m : TMsg) : Option Nat :=
  match tget 0 s.ten.was (tmSdie m * 256 + tmDdie m * 16 + d) with
  | p + 1 => if linkState s ((linkAt d p).getD 16) = 6 then hopAt s d (tmDdie m) d else some p
  | 0 => hopAt s d (tmDdie m) d

/-- Die `d` sends or forwards a message by its routes in force. With its new routes in force, what no route reaches
    completes with error (R292). -/
def forwardMsg (s : State) (d : Nat) (m : TMsg) : State :=
  let s := if tmSdie m = d then s else offWay s m
  if !s.ten.old.contains d ∧ (routePath s (tmSdie m) (tmDdie m)).isNone then failMsg s m
  else
    match tget 0 s.route (tmSdie m * 256 + tmDdie m * 16 + d) with
    | 0 =>
      match if s.ten.old.contains d then none else strayPort s d m with
      | some p => leaveBy s d p m
      | none => failMsg s m
    | p + 1 => leaveBy s d p m

/-! ### Holding the order across a change of routes (R293) -/

/-- The links of a route by the tables of the dies. -/
def tableWalk (r : Tbl Nat) (src t : Nat) : Nat → Nat → List Nat
  | 0, _ => []
  | fuel + 1, d =>
    if d = t then []
    else
      match tget 0 r (src * 256 + t * 16 + d) with
      | 0 => []
      | p + 1 =>
        match (linksOf d).find? (fun h => portOn h.1 d = p) with
        | none => []
        | some (l, y) => l :: tableWalk r src t fuel y

/-- Die `d` holds a new message: on a changed route while older ones are under way (R293), and while its new routes are
    not in force, on a route that crosses a FENCED link (R292). -/
def routeHeld (s : State) (d : Nat) (m : TMsg) : Bool :=
  s.ten.moved.contains (routeKey m) ||
  (s.ten.old.contains d && (tableWalk s.route d (tmDdie m) 12 d).any (fun l => linkState s l = 6))

/-- A unit of die `d` issues a message. -/
def issueMsg (s : State) (d : Nat) (m : TMsg) : State :=
  if routeHeld s d m then { s with ten := { s.ten with stay := s.ten.stay ++ [m] } } else forwardMsg s d m

/-- A changed route whose older messages have all been delivered or failed lets go what it holds, in order. -/
def letGo (s : State) (r : Nat) : State :=
  if s.ten.moved.contains r && !onWay s r then
    let ms := s.ten.stay.filter (fun m => routeKey m = r)
    let s := { s with ten := { s.ten with
      moved := s.ten.moved.filter (fun x => x ≠ r), stay := s.ten.stay.filter (fun m => routeKey m ≠ r) } }
    ms.foldl (fun s m => issueMsg s (tmSdie m) m) s
  else s

def letAllGo (s : State) : State := s.ten.moved.foldl letGo s

/-- A message has been delivered at its destination: it is under way no longer, and may have been the last that held
    a route. -/
def landed (s : State) (m : TMsg) : State := letAllGo (offWay s m)

/-- The route from die `d` to `t` is another than when the routes last changed. (DEDUCED, log entry 73.) -/
def routeMoved (s : State) (d t : Nat) : Bool :=
  (routePath s d t).map (fun p => p.map (fun h => h.2)) ≠ some (tableWalk s.ten.was d t 12 d)

/-! ### Isolation (R290 to R292) -/

/-- A FENCED link end of a live die: flits in flight and messages partly received are discarded; those that wait to
    start are held. -/
def fenceEnd (s : State) (k : Nat) : State := setEnd s k { wait := (getEnd s k).wait }

/-- The messages that fencing a link of die `d` loses: those under way on it, but for those that wait at the other end
    (Table 10.8). -/
def lostOn (s : State) (d l : Nat) : List TMsg :=
  let (a, ap, b, bp) := endsOf l
  let waiting := (getEnd s (if a = d then endKey b bp else endKey a ap)).wait
  (s.ten.under.filter (fun u => u.2 = l && !waiting.contains u.1)).map (fun u => u.1)

/-- A link of die `d` becomes FENCED at both ends; the end of `d` holds nothing. -/
def fenceLink (s : State) (d l : Nat) : State :=
  let (a, ap, b, bp) := endsOf l
  let s := rset (setLinkState s l 6) (aTenLinkStatus l) 43 28 0
  if a = d then fenceEnd (setEnd s (endKey a ap) {}) (endKey b bp) else setEnd (fenceEnd s (endKey a ap)) (endKey b bp) {}

/-- Requests to an isolated die, and requests that are lost with it or whose answers are, complete with error; its own
    are forgotten, and so is what it holds. (DEDUCED, log entry 116.) -/
def failOpen (s : State) (d : Nat) (lost : List TMsg) : State :=
  let hit := s.ten.open_.filter (fun m => tmSdie m ≠ d && (tmDdie m = d || lost.contains m || lost.any (fun r => answersTo r m)))
  let s := { s with ten := { s.ten with
    open_ := s.ten.open_.filter (fun m => tmSdie m ≠ d)
    under := lost.foldl (fun us m => us.eraseP (fun u => u.1 = m)) s.ten.under
    moved := s.ten.moved.filter (fun r => r / 16 ≠ d)
    stay := s.ten.stay.filter (fun m => tmSdie m ≠ d) } }
  hit.foldl failMsg s

/-- Isolates one die: its links FENCED at both ends, its state cleared, fault 0x3_006. -/
def isolateDie (s : State) (d cause link : Nat) : State :=
  if dieIsolated s d ∨ d = 8 then s
  else
    let lost := (linksOf d).flatMap (fun x => lostOn s d x.1)
    let s := (linksOf d).foldl (fun s x => fenceLink s d x.1) s
    let lv := decide (cause = 1 ∨ cause = 5)
    let s := rset (rset s (aTenDieStatus d) 63 60 1) (aTenDieStatus d) 59 56 cause
    let s := rset (rsetb s (aTenDieStatus d) 55 lv) (aTenDieStatus d) 51 48 (if lv then link else 0)
    let s := dieReport s d 0x3006 (if lv then some link else none) cause
    let s := routesChange (letAllGo (failOpen s d lost))
    collsLost (clearDie s d)

/-- Dies left without a path to P0 are isolated too (R290). -/
def isolateLost (s : State) : State :=
  let lost := allDies.filter (fun d => !dieIsolated s d && (depth s d).isNone)
  lost.foldl (fun s d => isolateDie s d 4 0) s

def isolate (s : State) (d cause link : Nat) : State := isolateLost (isolateDie s d cause link)

/-- The end of a link farther from P0 by the dies' distances `dep`; the higher die number on a tie. -/
def fartherEnd (dep : List Nat) (l : Nat) : Nat :=
  let (a, _, b, _) := endsOf l
  let da := dep.getD a 99
  let db := dep.getD b 99
  if da < db then b else if db < da then a else Nat.max a b

/-- The dies' distances from P0 as they stand. -/
def depths (s : State) : List Nat := allDies.map (depthOr s)

/-- Distances before a link failure: those before the first of failures that fall in the same 2 µs (Table 10.9). -/
def depthsBefore (s : State) : List Nat :=
  match s.ten.near with
  | some (_, dep) => dep
  | none => depths s

/-- A link failure opens 2 µs in which others count as one with it. -/
def nearFailure (s : State) : State :=
  match s.ten.near with
  | some _ => s
  | none => { s with ten := { s.ten with near := some (0, depths s) } }

/-- The module resets because it lost P0 (R291). -/
def lostP0 (s : State) (cause : Nat) : State := dieReport (moduleReset s cause) 8 0x3030 none 0

/-- A link FAILS in service (R289 to R291). -/
def linkFails (s : State) (l : Nat) : State :=
  let far := fartherEnd (depthsBefore s) l
  let s := linkReport (rset (setLinkState (nearFailure s) l 7) (aTenLinkStatus l) 43 28 0) l 0x3004
  if !(linksOf 8).any (fun x => linkLive s x.1) then lostP0 s 4
  else isolate s far 1 l

/-- CLOCK_LOSS. -/
def clockLost (s : State) (d : Nat) : State :=
  if d = 8 then lostP0 s 3 else if 12 ≤ d then s else isolate s d 2 0

/-- The messages that wait at a die's FENCED link ends. -/
def fencedWaits (s : State) (d : Nat) : List TMsg :=
  [0, 1, 2].flatMap (fun p =>
    match endLink (endKey d p) with
    | none => []
    | some l => if linkState s l = 6 then (getEnd s (endKey d p)).wait else [])

/-- What a die holds, oldest first: at its FENCED ends, and before any end. -/
def heldBy (s : State) (d : Nat) : List TMsg := fencedWaits s d ++ s.ten.stay.filter (fun m => tmSdie m = d)

/-- The die holds them no longer. -/
def takeHeld (s : State) (d : Nat) : State :=
  let ms := fencedWaits s d
  let s := [0, 1, 2].foldl (fun s p =>
    match endLink (endKey d p) with
    | none => s
    | some l => if linkState s l = 6 then setEnd s (endKey d p) { getEnd s (endKey d p) with wait := [] } else s) s
  ms.foldl offWay { s with ten := { s.ten with stay := s.ten.stay.filter (fun m => tmSdie m ≠ d) } }

/-- A message that a die held takes its new route, in its place among the die's own, or completes with error. Where the route
    between its dies passes this one by, its new route is the die's own. -/
def takeRoute (d : Nat) (s : State) (m : TMsg) : State :=
  match (hopAt s (tmSdie m) (tmDdie m) d).orElse (fun _ => hopAt s d (tmDdie m) d) with
  | none => failMsg s m
  | some q =>
    if tmSdie m = d ∧ s.ten.moved.contains (routeKey m) then { s with ten := { s.ten with stay := s.ten.stay ++ [m] } }
    else leaveBy s d q m

/-- ROUTES_IN_FORCE on one die: messages at its FENCED ends take their new routes, and changed routes hold new messages
    while older ones are under way (R292, R293). -/
def routesInForce (s : State) (d : Nat) : State :=
  if 12 ≤ d ∨ dieIsolated s d then s
  else
    let ms := heldBy s d
    let s := takeHeld (routesNow s d) d
    let new := ((List.range 12).map (fun t => d * 16 + t)).filter (fun r =>
      !s.ten.moved.contains r && onWay s r && routeMoved s d (r % 16))
    let s := { s with ten := { s.ten with old := s.ten.old.filter (fun x => x ≠ d), moved := s.ten.moved ++ new } }
    letAllGo (ms.foldl (takeRoute d) s)

/-! ### Retests and retraining (R289, Tables 10.7 and 10.9) -/

def setRetest (s : State) (l lane : Nat) (v : Bool) : State :=
  let (a, ap, b, bp) := endsOf l
  let one (s : State) (k : Nat) : State :=
    let x := getEnd s k
    pumpEnd (setEnd s k (setTLane x lane { getTLane x lane with retest := v })) k
  one (one s (endKey a ap)) (endKey b bp)

/-- The lane is stopped for a retest at end A of its link. -/
def retesting (s : State) (l lane : Nat) : Bool :=
  let (a, ap, _, _) := endsOf l
  (getTLane (getEnd s (endKey a ap)) lane).retest

/-- A lane in use stops for a retest, during a retrain too (R289, Table 10.9). -/
def startRetest (s : State) (l lane : Nat) : State :=
  if linkLive s l ∧ (linkInUse s l).testBit lane ∧ !retesting s l lane then
    setRetest (rcount s (aTenLinkCnt l) 47 32 1) l lane true
  else s

/-- Wires that a retest of a lane found, beside the failed wires held. -/
def addBad (s : State) (l lane : Nat) (bad : List BadWire) : State :=
  let mine (w : BadWire) : Bool :=
    w.link.toNat = l && (if w.wire < 1024 then w.wire / 64 = lane else (w.wire - 1024) / 2 = lane)
  let of (dir : Bool) : List Nat := (bad.filter (fun w => mine w && w.dir = dir)).map (fun w => w.wire)
  let join (old new : List Nat) : List Nat := old ++ new.filter (fun x => !old.contains x)
  let t := tset [] s.ten.bad (l * 2) (join (badWires s l 0) (of false))
  let t := tset [] t (l * 2 + 1) (join (badWires s l 1) (of true))
  showWires { s with ten := { s.ten with bad := t } } l

/-- The TEN_MAP entries of a lane. -/
def laneMap (s : State) (l lane : Nat) : List Nat :=
  [mapEntry s l 0 (2 * lane), mapEntry s l 0 (2 * lane + 1), mapEntry s l 1 (2 * lane), mapEntry s l 1 (2 * lane + 1)].map
    (fun e => e % 0x80)

/-- LANE_RETEST_COMPLETE (Table 10.7). A finding during a retrain is folded into it; a failed spare that replaced nothing swaps
    no wire. -/
def endRetest (s : State) (l lane : Nat) (bad : List BadWire) : State :=
  if !retesting s l lane then s
  else
    let old := s.ten.bad
    let map := laneMap s l lane
    let s := addBad s l lane bad
    if linkState s l = 5 then s
    else if s.ten.bad = old then setRetest s l lane false
    else if laneWhole s l lane then
      let t := setRetest s l lane false
      if laneMap s l lane = map then t else linkReport t l 0x3005
    else if (wholeLanes s l).length < 8 then linkFails s l
    else rcount (setLinkState s l 5) (aTenLinkCnt l) 63 48 1

/-- Payload, VC, KIND and LAST of a flit. -/
def flitBody (f : BitVec 256) : BitVec 192 × BitVec 3 × BitVec 2 × Bool :=
  (f.setWidth 192, BitVec.ofNat 3 (f.toNat / 2 ^ 221), BitVec.ofNat 2 (f.toNat / 2 ^ 219), f.getLsbD 218)

def flitSeq (f : BitVec 256) : Nat := f.toNat / 2 ^ 232 % 256
def flitAck (f : BitVec 256) : Nat := f.toNat / 2 ^ 224 % 256
def flitVc (f : BitVec 256) : Nat := f.toNat / 2 ^ 221 % 8
def flitKind (f : BitVec 256) : Nat := f.toNat / 2 ^ 219 % 4
def flitCrvc (f : BitVec 256) : Nat := f.toNat / 2 ^ 215 % 8
def flitCrcnt (f : BitVec 256) : Nat := f.toNat / 2 ^ 210 % 32

/-- SEQ `q` is covered by ACK `a`: it is `a` or before it, modulo 256. -/
def covered (a q : Nat) : Bool := decide ((a + 256 - q) % 256 < 128)

/-- The flits of a lane that have still to reach the other end's units: those it holds of a message partly received,
    those in flight that it has not received, and those not sent. -/
def undelivered (x o : TEnd) (i : Nat) : List (BitVec 192 × BitVec 3 × BitVec 2 × Bool) :=
  let y := getTLane x i
  let z := getTLane o i
  let u := y.replay.filter (fun f => !covered z.rxSeq.toNat (flitSeq f) && flitKind f ≠ 3)
  (z.part ++ u).map flitBody ++ y.queue

/-- Credits that the flits in flight carry and the other end has not received. -/
def creditsLost (x o : TEnd) : List (Nat × Nat) :=
  (List.range 16).flatMap (fun i =>
    ((getTLane x i).replay.filter (fun f => !covered (getTLane o i).rxSeq.toNat (flitSeq f))).map
      (fun f => (flitCrvc f, flitCrcnt f)))

/-- One end after a change of lane set: what the lane of hash `i` (of `i` mod 8 on a HALF link) still had to deliver goes on
    the lane that R283 now gives that hash. `was` holds the lanes that were in use. -/
def relaneEnd (s : State) (l : Nat) (was : List Nat) (x o : TEnd) : TEnd :=
  let lanes := lanesInUse s l
  let y : TEnd := { x with lanes := [], owe := (creditsLost x o).foldl (fun t c => tset 0 t c.1 (tget 0 t c.1 + c.2)) x.owe }
  (List.range was.length).foldl (fun y i =>
    let k := lanes.getD (i % 8) 0
    let z := getTLane y k
    setTLane y k { z with queue := z.queue ++ undelivered x o (was.getD i 0) }) y

/-- Both ends take the new lane set of a link that is HALF; nothing is lost (R289). (DEDUCED, log entry 101.) -/
def relane (s : State) (l : Nat) (was : List Nat) : State :=
  let (a, ap, b, bp) := endsOf l
  let x := getEnd s (endKey a ap)
  let o := getEnd s (endKey b bp)
  let s := setEnd (setEnd s (endKey a ap) (relaneEnd s l was x o)) (endKey b bp) (relaneEnd s l was o x)
  pumpEnd (pumpEnd s (endKey a ap)) (endKey b bp)

/-- LINK_RETRAIN_COMPLETE: HALF on the whole lanes, or FAILED. -/
def endRetrainLink (s : State) (l : Nat) : State :=
  if linkState s l ≠ 5 then s
  else if (wholeLanes s l).length < 8 then linkFails s l
  else
    relane (linkReport (setWidth s l true) l 0x3003) l (lanesInUse s l)

/-! ### Re-admission (R294, Table 10.10) -/

def dieState (s : State) (d : Nat) : Nat := rf s (aTenDieStatus d) 63 60
def dieBusy (s : State) (d : Nat) : Bool := rbit s (aTenDieStatus d) 52
def dreset (s : State) (d : Nat) : Bool := rbit s (aTenDieCtrl d) 0

/-- A refused step. -/
def refuseStep (s : State) (d : Nat) : Nat × State :=
  (0x3021, dieReport (rset s (aTenDieStatus d) 15 0 0x3021) d 0x3021 none (rf s (aTenDieStatus d) 59 56))

/-- A step runs. -/
def startStep (s : State) (d n : Nat) : State :=
  { rsetb s (aTenDieStatus d) 52 true with ten := { s.ten with step := tset 0 s.ten.step d n } }

/-- The links of a die whose other end is not isolated. -/
def openLinks (s : State) (d : Nat) : List Nat := ((linksOf d).filter (fun x => !dieIsolated s x.2)).map Prod.fst

/-- A write to TEN_DIEd_CTRL (R294). -/
def wDieCtrl (s : State) (d : Nat) (v : Word) : Nat × State :=
  let flips := bit v 0 ≠ dreset s d
  let n := flagBit (bit v 2) 0 + flagBit (bit v 3) 0 + flagBit (bit v 4) 0
  let st := dieState s d
  if d = 8 ∨ dieBusy s d ∨ 1 < n ∨ (n = 1 ∧ flips) then refuseStep s d
  else if n = 0 ∧ !flips then (0, s)
  else if flips ∧ bit v 0 then
    if 1 < st then refuseStep s d
    else
      let s := rsetb s (aTenDieCtrl d) 0 true
      let s := if st = 0 then isolate s d 3 0 else s
      (0, rset s (aTenDieStatus d) 63 60 2)
  else if flips then
    if st ≠ 2 then refuseStep s d else (0, startStep (rsetb s (aTenDieCtrl d) 0 false) d 2)
  else if bit v 2 then
    if st ≠ 3 then refuseStep s d
    else (0, (openLinks s d).foldl (fun s l => setLinkState s l 1) (startStep s d 3))
  else if bit v 3 then
    if st ≠ 4 then refuseStep s d
    else (0, (openLinks s d).foldl (fun s l => if linkState s l = 1 then setLinkState s l 2 else s) (startStep s d 4))
  else if st ≠ 5 then refuseStep s d
  else
    let s := startStep s d 5
    (0, if d < 8 then
          (List.range 64).foldl (fun s k =>
            if chState s (d * 64 + k) = 3 then s else rset s (aHbmChStatus (d * 64 + k)) 63 60 4) s
        else s)

/-- The step that runs ends; a failed step takes the die back to RESET (R294). -/
def endStep (s : State) (d n : Nat) (ok : Bool) (f : State → State) : State :=
  if 12 ≤ d ∨ tget 0 s.ten.step d ≠ n then s
  else
    let s := { rsetb s (aTenDieStatus d) 52 false with ten := { s.ten with step := tset 0 s.ten.step d 0 } }
    if ok then f s
    else
      let s := rsetb (rset s (aTenDieStatus d) 63 60 2) (aTenDieCtrl d) 0 true
      dieReport (rset s (aTenDieStatus d) 15 0 0x3020) d 0x3020 none (rf s (aTenDieStatus d) 59 56)

/-- DIE_BOOTED. -/
def dieBooted (s : State) (d : Nat) (ok : Bool) : State :=
  endStep s d 2 ok (fun s => rset s (aTenDieStatus d) 63 60 3)

/-- DIE_TESTED: the maps of the die's open links follow the test; a link with fewer than 8 whole lanes FAILS. -/
def dieTested (s : State) (d : Nat) (ok : Bool) (bad : List BadWire) : State :=
  endStep s d 3 ok (fun s =>
    let ls := openLinks s d
    let s := ls.foldl (fun s l =>
      let s := setBad s l bad
      if (wholeLanes s l).length < 8 then setLinkState s l 7 else s) s
    rset (commitMaps (compareMaps s (fun l => ls.contains l))) (aTenDieStatus d) 63 60 4)

/-- DIE_TRAINED: its links come up; the step fails if none does. -/
def dieTrained (s : State) (d : Nat) : State :=
  let ls := (openLinks s d).filter (fun l => linkState s l = 2)
  endStep s d 4 (ls.any (fun l => decide (8 ≤ (wholeLanes s l).length))) (fun s =>
    let s := ls.foldl (fun s l =>
      let s := setWidth s l false
      if linkState s l = 4 then linkReport s l 0x3002 else s) s
    rset s (aTenDieStatus d) 63 60 5)

/-- A channel's training ends: UP, or DOWN (R269). -/
def channelTrained (s : State) (noTrain : List (BitVec 9)) (c : Nat) : State :=
  if chState s c ≠ 4 then s
  else if noTrain.any (fun x => x.toNat = c) then report (rset s (aHbmChStatus c) 63 60 2) (unitOfChan c) 0x2064 { a0 := BitVec.ofNat 64 c }
  else
    let s := setChan s c { getChan s c with trained := sext 8 (rf s (aHbmChStatus c) 59 52) }
    rset s (aHbmChStatus c) 63 60 0

/-- DIE_ADMITTED. Routes take effect die by die (ROUTES_IN_FORCE); an enabled Bell of the die trains again. -/
def dieAdmitted (s : State) (d : Nat) (ok : Bool) (noTrain : List (BitVec 9)) : State :=
  endStep s d 5 ok (fun s =>
    let s := rset (rset (rset s (aTenDieStatus d) 63 60 0) (aTenDieStatus d) 59 56 0) (aTenDieStatus d) 51 48 0
    let s := rsetb s (aTenDieStatus d) 55 false
    let s :=
      if d < 8 then (List.range 64).foldl (fun s k => channelTrained s noTrain (d * 64 + k)) s
      else (List.range 7).foldl (fun s b => if bellDie b = d && belEn s b then belTrain s b else s) s
    dieReport (routesChange s) d 0x3007 none 0)

/-! ### At module reset (R285 to R288) -/

/-- The interconnect test and the training of every link; a link that FAILS isolates a die with CAUSE 5. Distances are
    those before any failure (Table 10.9), and so are the routes that 0x3_010 names for a die isolated here (R296). -/
def bootLinks (s : State) (bad : List BadWire) : State :=
  let s := (List.range 16).foldl (fun s l => setLinkState (setBad s l bad) l 3) s
  let failed := (List.range 16).filter (fun l => (wholeLanes s l).length < 8)
  let far := failed.map (fun l => (l, if (endsOf l).1 = 8 then (endsOf l).2.2.1 else fartherEnd (depths s) l))
  let s := if failed.isEmpty then s else allDies.foldl routesNow s
  let s := (List.range 16).foldl (fun s l => setWidth s l false) s
  let s := (List.range 16).foldl (fun s l => if linkState s l = 4 then linkReport s l 0x3002 else s) s
  let s := far.foldl (fun s x => isolateDie s x.2 5 x.1) s
  let s := isolateLost s
  let s := allDies.foldl (fun s d => if dieIsolated s d then s else routesNow s d) s
  { s with ten := { s.ten with old := [], was := [] } }

/-! ### Registers and commands -/

def tenOnly (req : Req) (a : Nat) (f : State → Nat × State) (s : State) : Nat × State :=
  hostOnly req unitFirmware 0x9022 a f s

/-- LANE_RETEST. -/
def execLaneRetest (link lane : BitVec 4) (s : State) : Host.Outcome State Fault Refusal :=
  .next (startRetest s link.toNat lane.toNat)

/-- LANE_RETEST_COMPLETE. -/
def execLaneRetestComplete (link lane : BitVec 4) (bad : List BadWire) (s : State) : Host.Outcome State Fault Refusal :=
  .next (endRetest s link.toNat lane.toNat bad)

/-- LINK_RETRAIN_COMPLETE. -/
def execLinkRetrainComplete (link : BitVec 4) (s : State) : Host.Outcome State Fault Refusal :=
  .next (endRetrainLink s link.toNat)

/-- CLOCK_LOSS. -/
def execClockLoss (d : BitVec 4) (s : State) : Host.Outcome State Fault Refusal := .next (clockLost s d.toNat)

/-- ROUTES_IN_FORCE. -/
def execRoutesInForce (d : BitVec 4) (s : State) : Host.Outcome State Fault Refusal := .next (routesInForce s d.toNat)

/-- A write of TEN_DIEd_CTRL as a command; there are twelve dies. -/
def dieWrite (req : Req) (d : BitVec 4) (v : State → Word) (s : State) : Host.Outcome State Fault Refusal :=
  if 12 ≤ d.toNat then .next s
  else answered (tenOnly req (aTenDieCtrl d.toNat) (fun s => wDieCtrl s d.toNat (v s)) s)

/-- The current DRESET with one more bit. -/
def stepWord (d i : Nat) (s : State) : Word := setBit (setBit 0 0 (dreset s d)) i true

/-- DRESET_SET. -/
def execDresetSet (req : Req) (d : BitVec 4) (s : State) : Host.Outcome State Fault Refusal := dieWrite req d (fun _ => 1) s

/-- DRESET_CLEAR. -/
def execDresetClear (req : Req) (d : BitVec 4) (s : State) : Host.Outcome State Fault Refusal := dieWrite req d (fun _ => 0) s

/-- TEST. -/
def execTest (req : Req) (d : BitVec 4) (s : State) : Host.Outcome State Fault Refusal := dieWrite req d (stepWord d.toNat 2) s

/-- TRAIN. -/
def execTrain (req : Req) (d : BitVec 4) (s : State) : Host.Outcome State Fault Refusal := dieWrite req d (stepWord d.toNat 3) s

/-- ADMIT. -/
def execAdmit (req : Req) (d : BitVec 4) (s : State) : Host.Outcome State Fault Refusal := dieWrite req d (stepWord d.toNat 4) s

/-- DIE_BOOTED. -/
def execDieBooted (d : BitVec 4) (ok : Bool) (s : State) : Host.Outcome State Fault Refusal := .next (dieBooted s d.toNat ok)

/-- DIE_TESTED. -/
def execDieTested (d : BitVec 4) (ok : Bool) (bad : List BadWire) (s : State) : Host.Outcome State Fault Refusal :=
  .next (dieTested s d.toNat ok bad)

/-- DIE_TRAINED. -/
def execDieTrained (d : BitVec 4) (s : State) : Host.Outcome State Fault Refusal := .next (dieTrained s d.toNat)

/-- DIE_ADMITTED. -/
def execDieAdmitted (d : BitVec 4) (ok : Bool) (noTrain : List (BitVec 9)) (s : State) : Host.Outcome State Fault Refusal :=
  .next (dieAdmitted s d.toNat ok noTrain)

end Sys2Proof.Machine
end

