-- ==== Sys2Proof/Machine/Power.lean ====
section
/-! DEFINITION. Input power and pins (R22 to R28), power domains and clocks (R422 to R428), Calipers, the governors and
the trip (R429 to R443). -/

namespace Sys2Proof.Machine

/-! ### What the power control reports -/

/-- The arguments of a record of class 7 or 8: die, reading or power, level (Table 17.3). -/
def powerInfo (d : Nat) (x : Int) (level : Nat) : Info :=
  { a0 := BitVec.ofNat 64 d, a1 := BitVec.ofInt 64 x, a2 := BitVec.ofNat 64 level }

/-- A report of P0's power control: input power and power level. -/
def p0Report (s : State) (code : Nat) : State :=
  report s unitP0Power code (powerInfo 8 (rf s aPwrStatus 31 16 : Int) (rf s aPwrStatus 15 12))

/-! ### Pins and the input stage (chapter 01) -/

/-- The core stage is lost to a fault of the input or of a rail. -/
def coreLost (s : State) : State := if s.pins.core then coreOff s else s

/-- INPUT_OVERVOLTAGE: above 63 V the hot-swap stage opens (Table 1.5). -/
def overvoltage (s : State) : State :=
  let s := coreLost s
  let s := { s with pins := { s.pins with input := false } }
  if s.pins.drone then p0Report s 0x8011 else s

/-- POWER_LOSS: commits already begun continue; a THERMAL commit may still begin (R464). A second loss, during hold-up or with
    the Drone domain off, finds only the input to lose. -/
def powerLost (s : State) : State :=
  if !s.pins.drone ∨ s.pins.powerLost then { s with pins := { s.pins with input := false } }
  else
    let s := coreLost (cutCommand s)
    let s := p0Report s 0x8012
    let keep := s.sto.commits.take 1 ++ (s.sto.commits.drop 1).filter (fun c => c.kind = 4 && !c.clear)
    { s with
      sto := { s.sto with commits := keep }
      pins := { s.pins with input := false, powerLost := true } }

/-- The Drone converter starts and SLOT_ID is read: the start of a cold start (Table 1.6). (DEDUCED, log entry 91.) -/
def coldStart (s : State) (slot : BitVec 3) : State :=
  let s := coldState s
  alertCheck (loadHold { s with pins := { s.pins with drone := true, rstLow := true, slot := slot } })

/-- MOD_RESET_N is taken as low (R24, R26). -/
def resetLow (s : State) : State :=
  if !s.pins.drone then s
  else if s.pins.powerLost then { s with pins := { s.pins with rstLow := true } }
  else moduleReset { s with pins := { s.pins with rstLow := true, tripLow := false, railFail := false } } 1

/-- MOD_RESET_N is taken as high. -/
def resetHigh (s : State) : State :=
  if !s.pins.drone then s else startCore { s with pins := { s.pins with rstLow := false } }

/-- MGT_CTRL (R447). -/
def wMgtCtrl (s : State) (v : Word) : Nat × State := (0, if bit v 0 then moduleReset s 2 else s)

/-- A HL_ or MGT_ register, which only the host link and the management controller may write (R420). The host link reports the
    refusal, as R421 has it, since R500 serves codes that no rule gives a unit (DEDUCED, log entry 124). -/
def mgtOnly (req : Req) (a : Nat) (f : State → Nat × State) (s : State) : Nat × State :=
  hostOnly req unitHostLink 0x9026 a f s

/-! ### Domains and clocks -/

/-- Reeds of a Reed domain. -/
def reedsOfDom (d : Nat) : List Nat := (List.range 32).map (fun i => (d / 12 * 2 + d % 12 - 8) * 32 + i)

/-- Tiles of a cluster. -/
def tilesOfCluster (c : Nat) : List Nat := (List.range 128).map (fun i => c * 128 + i)

def clusterOfDom (d : Nat) : Nat := d / 12 * 8 + d % 12
def isClusterDom (d : Nat) : Bool := d < 96 && d % 12 < 8
def isReedDom (d : Nat) : Bool := d < 96 && (d % 12 = 8 || d % 12 = 9)

/-- A tile holds a waiting or running entry, as one under Chatter counts, or a transfer is outstanding (R424, R487). -/
def holdsWork (s : State) (t : Nat) : Bool :=
  (getTile s t).chatter || !allEngines (getTile s t) (fun g => !g.busy && g.xfers.isEmpty)

/-- A power-off that R424 refuses. -/
def offRefused (s : State) (d : Nat) : Bool :=
  if isClusterDom d then (tilesOfCluster (clusterOfDom d)).any (holdsWork s)
  else !(reedsOfDom d).all (fun n => reedState s n = 0 || reedState s n = 5)

/-- A write to PWR_DOMd. -/
def wPwrDom (s : State) (d : Nat) (v : Word) : Nat × State :=
  if !(isClusterDom d || isReedDom d) ∨ rf s (aPwrDom d) 63 62 = 2 ∨ (!bit v 0 ∧ rbit s (aPwrDom d) 0 ∧ offRefused s d) then
    (0x8030, report s unitP0Power 0x8030 (powerInfo (d / 12) 0 0))
  else if bit v 0 = rbit s (aPwrDom d) 0 then (0, s)
  else
    let s := rset (rsetb s (aPwrDom d) 0 (bit v 0)) (aPwrDom d) 63 62 2
    (0, if isClusterDom d ∧ !bit v 0 then collsLost (breakPairs s (fun t => clusterOf t = clusterOfDom d)) else s)

/-- The contents of a domain are lost (R97, R231). -/
def loseDomain (s : State) (d : Nat) : State :=
  if isClusterDom d then
    let c := clusterOfDom d
    let s := clearTiles s (fun t => clusterOf t = c)
    setCluster s c { level := (getCluster s c).level }
  else loseReeds s (fun n => (reedsOfDom d).contains n)

/-- The tiles of a cluster domain that powers on stand gated, so that each one's activation waits for Bellows (Table 15.7;
    DESIGN CHOICE, log entry 122). -/
def gateDomain (s : State) (d : Nat) : State :=
  if isClusterDom d && rbit s (aPwrDom d) 0 then
    (tilesOfCluster (clusterOfDom d)).foldl (fun s t => setTile s t { getTile s t with gated := true }) s
  else s

/-- DOMAIN_SWITCH_COMPLETE (R425). -/
def switchDone (s : State) (d : Nat) : State :=
  if rf s (aPwrDom d) 63 62 ≠ 2 then s
  else rset (gateDomain (loseDomain s d) d) (aPwrDom d) 63 62 (if rbit s (aPwrDom d) 0 then 0 else 1)

/-- The level a cluster is to run at: the higher of its thermal level and the power level (R437). -/
def wantedLevel (s : State) (c : Nat) : Nat := Nat.max (tget {} s.thm.gov c).level (rf s aPwrStatus 15 12)

/-- CLUSTER_CLOCK_STOP (R426). -/
def stopClock (s : State) (c : Nat) : State :=
  let x := getCluster s c
  if x.clk = .running ∧ rf s aPwrCtrl 31 16 ≠ 0 ∧ domOn s (domOfCluster c) ∧
      (tilesOfCluster c).all (fun t => (getTile s t).gated && !(getTile s t).waking) then
    setCluster s c { x with clk := .stopped }
  else s

/-! ### Levels in force (R434, R435) -/

/-- One report of a die's coalesced code: emitted, or counted in the open window. -/
def thermalReport (s : State) (d code : Nat) (x : Int) (level : Nat) : State :=
  match s.thm.wins.find? (fun w => w.1 = (d, code)) with
  | some (_, w) =>
    let (st, s) := takeStamp s (unitOfPower d)
    let w' : TWin := { count := w.count + 1, first := if w.count = 0 then st else w.first, last := st }
    { s with thm := { s.thm with wins := s.thm.wins.map (fun y => if y.1 = (d, code) then ((d, code), w') else y) } }
  | none =>
    let s := report s (unitOfPower d) code (powerInfo d x level)
    { s with thm := { s.thm with wins := s.thm.wins ++ [((d, code), {})] } }

/-- The window of a die and code ends. -/
def thermalWindowEnd (s : State) (d code : Nat) : State :=
  match s.thm.wins.find? (fun w => w.1 = (d, code)) with
  | none => s
  | some (_, w) =>
    let s := { s with thm := { s.thm with wins := s.thm.wins.filter (fun y => !(y.1 = (d, code))) } }
    if w.count = 0 ∨ dieIsolated s d then s
    else report s (unitOfPower d) code { a0 := BitVec.ofNat 64 d, a2 := w.first, a3 := w.last, coal := some w.count }

/-- PWR_DOM of a governor's clock: clusters 0 to 63, port dies 64 to 67 by their router domain. -/
def levelReg (c : Nat) : Nat := aPwrDom (if c < 64 then domOfCluster c else 96 + 4 * (c - 64))

/-- A report of a die's Drone island: an isolated die emits nothing (Table 10.8). -/
def islandReport (s : State) (d code : Nat) (x : Int) (level : Nat) : State :=
  if dieIsolated s d then s else report s (unitOfPower d) code (powerInfo d x level)

/-- A coalesced report of a die's Drone island. -/
def islandThermal (s : State) (d code : Nat) (x : Int) (level : Nat) : State :=
  if dieIsolated s d then s else thermalReport s d code x level

/-- A cluster takes its wanted level, unless its clock has yet to restart; each division level it enters is reported
    (R434, R435). -/
def applyLevel (s : State) (c : Nat) : State :=
  let x := getCluster s c
  let old := rf s (levelReg c) 59 56
  let new := wantedLevel s c
  if x.clk ≠ .running ∨ old = new then s
  else
    let s := rset s (levelReg c) 59 56 new
    let s := setCluster s c { x with level := new, divPending := decide (8 ≤ new) }
    if 8 ≤ new then islandThermal s (c / 8) 0x7021 (sext 16 (rf s (aThmDie (c / 8)) 63 48)) new else s

/-- A port die's clock follows its own governor alone, and all four domains of the die show its level (Table 15.8). -/
def applyPortLevel (s : State) (p : Nat) : State :=
  (List.range 4).foldl (fun s k => rset s (aPwrDom (96 + 4 * p + k)) 59 56 (tget {} s.thm.gov (64 + p)).level) s

def applyLevels (s : State) : State :=
  (List.range 4).foldl applyPortLevel ((List.range 64).foldl applyLevel s)

/-- CLUSTER_CLOCK_START (R95): the clock runs, and its level applies. The start is an activation,
    which waits while Bellows holds them (R427, R428). -/
def startClock (s : State) (c : Nat) : State :=
  let x := getCluster s c
  if x.clk ≠ .starting ∨ 16 ≤ x.acts.length ∨ s.thm.hold then s
  else applyLevel (setCluster s c { x with clk := .running, acts := 0 :: x.acts }) c

/-! ### Calipers: votes (R430) -/

/-- Side of a die's sensor grid. -/
def gridSide (d : Nat) : Nat := if d < 8 then 8 else 4
def sensorCount (d : Nat) : Nat := gridSide d * gridSide d

/-- A sensor's reading in a sample, in 1/16 °C. -/
def readingOf (x : Sample) (d k : Nat) : Int := (x.dies.getD d []).getD k 0

def votedOut (s : State) (d k : Nat) : Bool := rbit s (aThmSens d k) 47

/-- Sensors next to a sensor in its grid. -/
def nearSensors (d k : Nat) : List Nat :=
  let n := gridSide d
  (List.range (sensorCount d)).filter (fun j =>
    j ≠ k && decide (j / n ≤ k / n + 1) && decide (k / n ≤ j / n + 1) && decide (j % n ≤ k % n + 1) &&
      decide (k % n ≤ j % n + 1))

def insertInt (x : Int) : List Int → List Int
  | [] => [x]
  | y :: ys => if x ≤ y then x :: y :: ys else y :: insertInt x ys

def sortInts (xs : List Int) : List Int := xs.foldl (fun acc x => insertInt x acc) []

/-- The median, the lower middle value of an even count. -/
def medianOf (xs : List Int) : Int := (sortInts xs).getD ((xs.length - 1) / 2) 0

/-- One sensor's vote: the vote, and whether it stands voted out, from the votes before this sample. -/
def voteOf (v : Vote) (out : Bool) (near : List Int) (r : Int) : Vote × Bool :=
  let far : Bool := decide (128 < r - medianOf near ∨ r - medianOf near < -128)
  if out then
    if near.isEmpty ∨ far then ({}, true) else if 100 ≤ v.near + 1 then ({}, false) else ({ near := v.near + 1 }, true)
  else if near.length < 2 ∨ !far then ({}, false)
  else if 5 ≤ v.far + 1 then ({}, true) else ({ far := v.far + 1 }, false)

/-- The level of the clock a sensor's row belongs to. -/
def sensorLevel (s : State) (d k : Nat) : Nat :=
  rf s (levelReg (if d < 8 then d * 8 + k / 8 else 64 + (d - 8))) 59 56

/-- Applies one sensor's vote; `was` is the state whose votes count. -/
def voteSensor (was : State) (x : Sample) (d : Nat) (s : State) (k : Nat) : State :=
  let r := readingOf x d k
  let near := ((nearSensors d k).filter (fun j => !votedOut was d j)).map (readingOf x d)
  let key := d * 64 + k
  let out := votedOut was d k
  let (v, now) := voteOf (tget {} was.thm.votes key) out near r
  let s := { s with thm := { s.thm with votes := tset {} s.thm.votes key v } }
  let s := rsetb (rset s (aThmSens d k) 63 48 (low 16 r)) (aThmSens d k) 47 now
  if now = out then s
  else islandReport s d (if now then 0x7001 else 0x7002) r (sensorLevel s d k)

def sensorsOut (s : State) (d : Nat) : Nat := ((List.range (sensorCount d)).filter (votedOut s d)).length
/-- DEDUCED, log entry 56. -/
def inFallback (s : State) (d : Nat) : Bool := rbit s (aThmDie d) 47

def hottest : List Int → Option Int
  | [] => none
  | x :: xs =>
    match hottest xs with
    | some y => some (if x < y then y else x)
    | none => some x

/-- Readings of the sensors of a die that are not voted out and whose index satisfies `p`. -/
def validOf (s : State) (x : Sample) (d : Nat) (p : Nat → Bool) : List Int :=
  ((List.range (sensorCount d)).filter (fun k => p k && !votedOut s d k)).map (readingOf x d)

/-- Index of the hottest valid sensor of a die. -/
def hotIndex (s : State) (x : Sample) (d : Nat) : Nat :=
  let m := hottest (validOf s x d (fun _ => true))
  ((List.range (sensorCount d)).find? (fun k => !votedOut s d k && decide (some (readingOf x d k) = m))).getD 0

/-- A die votes, and enters or leaves FALLBACK (R431). -/
def voteDie (x : Sample) (s : State) (d : Nat) : State :=
  let s := (List.range (sensorCount d)).foldl (voteSensor s x d) s
  let n := sensorsOut s d
  let fb := decide (sensorCount d < 4 * n)
  let was := inFallback s d
  let s := rset (rsetb s (aThmDie d) 47 fb) (aThmDie d) 46 40 n
  let s := rset s (aThmDie d) 39 32 (hotIndex s x d)
  if fb = was then s
  else islandReport s d (if fb then 0x7003 else 0x7004) (readingOf x d (hotIndex s x d)) (sensorLevel s d 0)

/-! ### Governed temperatures (R431) -/

/-- The hottest valid sensor of the neighbours that count for a die in FALLBACK. -/
def neighbourHeat (s : State) (x : Sample) (d : Nat) : Option Int :=
  hottest (((linksOf d).map Prod.snd).filter (fun n => !dieIsolated s n && !inFallback s n)
    |>.flatMap (fun n => validOf s x n (fun _ => true)))

/-- The governed temperature of row `r` of a compute die, or of a port die; none where R431 gives none. -/
def governed (s : State) (x : Sample) (d r : Nat) : Option Int :=
  if inFallback s d then (neighbourHeat s x d).map (· + 80)
  else if 8 ≤ d then hottest (validOf s x d (fun _ => true))
  else
    match hottest (validOf s x d (fun k => k / 8 = r)) with
    | some t => some t
    | none => hottest (validOf s x d (fun k => k / 8 = r + 1 || k / 8 + 1 = r))

/-- The same, with a free value where R431 gives none (DESIGN CHOICE, log entry 42); `b` is the first draw of this sample. -/
def governedT (b : Nat) (s : State) (x : Sample) (d r : Nat) : Int :=
  (governed s x d r).getD (sext 16 (Config.freeWord (b + d * 8 + r)).toNat)

/-- A die in FALLBACK with no neighbour that counts is held at level 10. -/
def heldHot (s : State) (x : Sample) (d : Nat) : Bool := inFallback s d && (neighbourHeat s x d).isNone

def rowsOf (d : Nat) : List Nat := if d < 8 then List.range 8 else [0]

/-- The hottest governed temperature of a die. -/
def dieHeat (b : Nat) (s : State) (x : Sample) (d : Nat) : Int :=
  (hottest ((rowsOf d).map (governedT b s x d))).getD 0

/-! ### The thermal governor (Table 15.5) -/

/-- The new level, and whether the row of the 100 cool samples set it. `t1` and `t10` are the values one and ten
    samples before; where there is none, `o1` and `o10` say whether the row's comparison holds (DESIGN CHOICE, log entry 42). -/
def tableLevel (soft t : Int) (t1 t10 : Option Int) (o1 o10 stackHot cool : Bool) (l : Nat) : Nat × Bool :=
  let rising : Bool := match t1 with
    | some p => decide (p ≤ t)
    | none => o1
  let steep : Bool := match t10 with
    | some p => decide (32 ≤ t - p)
    | none => o10
  if soft + 96 ≤ t then (10, false)
  else if soft + 48 ≤ t then (if rising then Nat.min (Nat.max l 8 + 1) 10 else Nat.max l 8, false)
  else if soft ≤ t ∧ rising then (Nat.min (l + 1) 10, false)
  else if soft - 160 ≤ t ∧ steep then (Nat.max l 4, false)
  else if stackHot then (Nat.max l 2, false)
  else if cool then (l - 1, true)
  else (l, false)

/-- Governor `c` meets temperature `t`. -/
def govern (b : Nat) (s : State) (x : Sample) (c : Nat) (t : Int) : State :=
  let g := tget {} s.thm.gov c
  let soft := thmSoft s * 16
  let d := if c < 64 then c / 8 else 8 + (c - 64)
  let stackHot := decide (c < 64) && (decide (95 < x.stackT.getD (2 * d) 0) || decide (95 < x.stackT.getD (2 * d + 1) 0))
  let n := if t ≤ soft - 80 then g.cool + 1 else 0
  let (l, cooled) := tableLevel soft t g.temps.head? g.temps[9]? (Config.choice (b + 96 + c)) (Config.choice (b + 164 + c))
    stackHot (decide (100 ≤ n)) g.level
  let l := if heldHot s x d then 10 else l
  let g := { level := if c < 64 then l else Nat.min l 8, temps := (t :: g.temps).take 10, cool := if cooled then 0 else n }
  { s with thm := { s.thm with gov := tset {} s.thm.gov c g } }

/-- Every governor of a die, and 0x7_020 where its hottest governed temperature has risen above SOFT (R435). -/
def governDie (b : Nat) (x : Sample) (s : State) (d : Nat) : State :=
  let t := dieHeat b s x d
  let s := (rowsOf d).foldl (fun s r => govern b s x (if d < 8 then d * 8 + r else 64 + (d - 8)) (governedT b s x d r)) s
  let s := rset s (aThmDie d) 63 48 (low 16 t)
  let above := decide (thmSoft s * 16 < t)
  let was := s.thm.hot.contains d
  if above = was then s
  else if above then
    islandThermal { s with thm := { s.thm with hot := d :: s.thm.hot } } d 0x7020 t (sensorLevel s d 0)
  else { s with thm := { s.thm with hot := s.thm.hot.filter (fun e => e ≠ d) } }

/-! ### The power governor (R437, R28) -/

def sumOf (xs : List Nat) : Nat := xs.foldl (· + ·) 0

/-- The limit in units of 0.01 W: CAP, and 60 A at the input's voltage. (DEDUCED, log entry 89.) -/
def powerLimit (s : State) (x : Sample) : Nat := Nat.min (rf s aPwrCtrl 47 32 * 100) (60 * x.vin.toNat)

/-- Mean input power of the last 1 ms, W. -/
def meanPower (s : State) : Nat := sumOf s.thm.power / Nat.max 1 s.thm.power.length

def governPower (s : State) (x : Sample) : State :=
  let ps := (x.power :: s.thm.power).take 100
  let lim := powerLimit s x
  let l := rf s aPwrStatus 15 12
  let above := decide (lim * (ps.take 10).length < sumOf (ps.take 10) * 100)
  let under := decide (sumOf ps * 10000 < 95 * lim * ps.length)
  let n := if under then s.thm.low + 1 else 0
  let lower := decide (100 ≤ n)
  let up := if above then Nat.min (l + 1) 10 else l
  let l' := if lower then up - 1 else up
  let s := { s with thm := { s.thm with power := ps, low := if lower then 0 else n } }
  let s := rset (rset s aPwrStatus 63 48 x.vin.toNat) aPwrStatus 47 32 x.iin.toNat
  let s := rset (rset s aPwrStatus 31 16 (meanPower s)) aPwrStatus 15 12 l'
  let ms := s.drone.tick.toNat / 25000
  if 0 < l' ∧ s.thm.saidMs ≠ some ms then p0Report { s with thm := { s.thm with saidMs := some ms } } 0x8020 else s

/-! ### The trip (R438 to R440) -/

/-- The triad of a sensor. -/
def triad (d k : Nat) : List Nat :=
  let n := gridSide d
  [k, if k % n = n - 1 then k - 1 else k + 1, if k / n = n - 1 then k - n else k + n]

/-- What the comparators take for a sensor: nothing while it is voted out. -/
def tripReading (b : Nat) (s : State) (x : Sample) (d k : Nat) : Option Int :=
  if inFallback s d then some (governedT b s x d (if d < 8 then k / 8 else 0))
  else if votedOut s d k then none
  else some (readingOf x d k)

/-- The second-highest reading of a triad, if two of its sensors count. -/
def secondOf (xs : List Int) : Option Int :=
  match (sortInts xs).reverse with
  | _ :: y :: _ => some y
  | _ => none

def triadReading (b : Nat) (s : State) (x : Sample) (d k : Nat) : Option Int :=
  secondOf ((triad d k).filterMap (tripReading b s x d))

/-- The count of samples in a row that qualify, by key. -/
def tripCount (s : State) (key : Nat) (q : Bool) : State :=
  { s with thm := { s.thm with trips := tset 0 s.thm.trips key (if q then tget 0 s.thm.trips key + 1 else 0) } }

/-- The stamp of a trip found by this sample: the island's, FRAC 0 (R43). -/
def markTrip (s : State) (who sensor : Nat) (x : Int) : State :=
  if s.thm.due.isSome ∨ s.pins.tripLow then s
  else { s with thm := { s.thm with due := some (who, sensor, low 16 x, stampWord s.drone.tick 0) } }

def tripTriad (b : Nat) (x : Sample) (d : Nat) (s : State) (k : Nat) : State :=
  let r := triadReading b s x d k
  let q := match r with
    | some t => decide (1840 ≤ t)
    | none => false
  let s := tripCount s (d * 64 + k) q
  if q && decide (3 ≤ tget 0 s.thm.trips (d * 64 + k)) then markTrip s d k (r.getD 0) else s

def tripStack (x : Sample) (s : State) (k : Nat) : State :=
  let t := x.stackT.getD k 0
  let q := decide (105 < t)
  let s := tripCount s (4096 + k) q
  if q && decide (3 ≤ tget 0 s.thm.trips (4096 + k)) then markTrip s (16 + k) k (t * 16) else s

def tripDie (b : Nat) (x : Sample) (s : State) (d : Nat) : State := (List.range (sensorCount d)).foldl (tripTriad b x d) s

/-- CALIPERS_SAMPLE (R429). -/
def sampleAll (s : State) (x : Sample) : State :=
  let s := { s with thm := { s.thm with soft := rf s aThmCtrl 63 56 } }
  let s := (List.range 12).foldl (voteDie x) s
  let b := s.free
  let heats := (List.range 12).map (dieHeat b s x)
  let s := (List.range 12).foldl (tripDie b x) (drawn s 232)
  let s := (List.range 16).foldl (tripStack x) s
  let s := (List.range 12).foldl (governDie b x) s
  let s := applyLevels (governPower s x)
  let s := { s with thm := { s.thm with hist := (x :: s.thm.hist).take 32, govHist := (heats :: s.thm.govHist).take 128 } }
  let s := (List.range 7).foldl (fun s b => bellTemp s b (x.bells.getD b 0)) s
  alertCheck s

/-- 1/16 °C as whole °C, rounded down, in one signed byte (DEDUCED, log entry 43). -/
def degreeByte (x : Int) : Byte := BitVec.ofInt 8 (x / 16)

/-- Pads a history at its front with empty rows. -/
def padRows (rows width : Nat) (xs : List (List Byte)) : List Byte :=
  List.replicate ((rows - xs.length) * width) 0 ++ xs.reverse.flatMap (fun r => r ++ List.replicate (width - r.length) 0)

/-- The thermal record but for its CRC and bit 1 of byte 0x01F, which the commit gives (Table 15.6). -/
def thermalPayload (s : State) (who sensor reading : Nat) (stamp : Word) : List Byte :=
  let old := thermalRec s
  let first := match old with
    | some p => wordAt p 0x10
    | none => stamp
  let trips := match old with
    | some p => satAt 255 (leNat ((p.drop 0x1E).take 1) + 1)
    | none => 1
  let d := if who < 16 then who else (who - 16) / 2
  let x : Sample := s.thm.hist.headD { dies := [], stackT := [], bells := [], vin := 0, iin := 0, power := 0 }
  let mask := (List.range (sensorCount d)).foldl (fun m k => if votedOut s d k then m + 2 ^ k else m) 0
  natLE 4 0x54524543 ++ natLE 2 1 ++ natLE 2 (if idValid s then moduleId s else 0) ++ wordLE stamp ++ wordLE first ++
    natLE 2 (unitOfPower d) ++ natLE 1 (if who < 16 then 1 else 2) ++ natLE 1 sensor ++ natLE 2 reading ++ natLE 1 trips ++
    natLE 1 (flagBit (aligned s) 0) ++ natLE 2 (rf s aPwrStatus 63 48) ++ natLE 2 (rf s aPwrStatus 31 16) ++
    List.replicate 28 0 ++
    (List.range 12).flatMap (fun e => natLE 2 (rf s (aThmDie e) 63 48)) ++
    (List.range 16).map (fun k => BitVec.ofInt 8 (x.stackT.getD k 0)) ++
    (List.range 7).map (fun k => BitVec.ofInt 8 (x.bells.getD k 0)) ++ [0] ++
    (List.range 64).map (fun c => BitVec.ofNat 8 (rf s (levelReg c) 59 56)) ++
    natLE 8 mask ++ List.replicate 72 0 ++
    padRows 32 64 (s.thm.hist.map (fun y => (List.range (sensorCount d)).map (fun k => degreeByte (readingOf y d k)))) ++
    padRows 128 12 (s.thm.govHist.map (fun ts => ts.map degreeByte)) ++ List.replicate 252 0

/-- The record as the commit writes it: bit 1 of byte 0x01F while the input is below 40 V, and the CRC. -/
def sealThermal (s : State) (p : List Byte) : List Byte :=
  let q :=
    if s.pins.powerLost then p.take 0x1F ++ [(p.getD 0x1F 0) ||| 2] ++ p.drop 0x20
    else p
  q ++ natLE 4 (crc32 q)

/-- THERMAL_TRIP (R439): the record's commit goes ahead of every other, a commit in progress is abandoned (R471), and so
    is a clear of the record before it (R443; DEDUCED, log entries 62 and 141). -/
def trip (s : State) : State :=
  match s.thm.due with
  | none => s
  | some (who, sensor, reading, stamp) =>
    if s.pins.tripLow ∨ !s.pins.drone then s
    else
      let d := if who < 16 then who else (who - 16) / 2
      let payload := thermalPayload s who sensor reading stamp
      let cut := s.sto.commits.take 1
      let code := if cut.any (fun c => c.nvs) then 0x9050 else s.sto.cmdCode
      let s := { s with
        pins := { s.pins with tripLow := true }
        thm := { s.thm with due := none }
        sto := { s.sto with
          commits := { kind := 4, payload := payload } :: (s.sto.commits.drop 1).filter (fun c => !c.clear)
          cmdCode := code } }
      coreOff (report s (unitOfPower d) 0x7030 (powerInfo d (sext 16 reading) (sensorLevel s d sensor)))

/-! ### Register writes (R444) -/

def pwrOnly (req : Req) (a : Nat) (f : State → Nat × State) (s : State) : Nat × State :=
  hostOnly req unitFirmware 0x9027 a f s

def wPwrCtrl (s : State) (v : Word) : Nat × State :=
  if fld v 47 32 < 600 ∨ 2700 < fld v 47 32 then
    (0x8031, report s unitP0Power 0x8031 (powerInfo 8 (fld v 47 32 : Int) (rf s aPwrStatus 15 12)))
  else (0, typedWrite s aPwrCtrl v)

def wThmCtrl (s : State) (v : Word) : Nat × State :=
  if fld v 63 56 < 70 ∨ 105 < fld v 63 56 then
    (0x7050, report s unitP0Power 0x7050 (powerInfo 8 ((fld v 63 56 * 16 : Nat) : Int) 0))
  else (0, typedWrite s aThmCtrl v)

/-- THM_HOLD.KEY (R442). -/
def wThmHold (s : State) (req : Req) (v : Word) : Nat × State :=
  match thermalRec s with
  | some p =>
    if req = .host ∧ leNat ((p.drop 8).take 4) = fld v 31 0 then
      (0, if s.sto.commits.any (fun c => c.clear) then s else wantCommit s { kind := 4, payload := [], clear := true })
    else (0x7051, report s unitP0Power 0x7051 { a0 := 8 })
  | none => (0x7051, report s unitP0Power 0x7051 { a0 := 8 })

/-- THERMAL_HOLD_CLEARED. -/
def holdCleared (s : State) : State :=
  if rbit s aThmHold 62 ∧ (thermalRec s).isNone then report (loadHold s) unitP0Power 0x7041 { a0 := 8 } else s

/-! ### Bellows (R428) -/

/-- The measured rise reaches 400 A/µs: activations are held, rising clusters skip one more of 16 cycles.
    (DEDUCED, log entry 90.) -/
def bellowsHold (s : State) (rising : Nat) : State :=
  let s := { s with thm := { s.thm with hold := true } }
  (List.range 64).foldl (fun s c =>
    if rising.testBit c then
      let x := getCluster s c
      setCluster s c { x with skip := Nat.min (x.skip + 1) 16 }
    else s) s

/-- One sixteenth of the added skipping is released, and activations go on. -/
def bellowsRelease (s : State) : State :=
  { s with
    thm := { s.thm with hold := false }
    cluster := tmap {} (fun _ c => { c with skip := c.skip - 1 }) s.cluster }

/-! ### Commands -/

/-- INPUT_RISE_46V. -/
def execInputRise46v (s : State) : Host.Outcome State Fault Refusal := .next { s with pins := { s.pins with input := true } }

/-- BULK_CAPACITANCE_CHARGED. -/
def execBulkCapacitanceCharged (slot : BitVec 3) (s : State) : Host.Outcome State Fault Refusal :=
  if s.pins.input ∧ (!s.pins.drone ∨ s.pins.powerLost) then .next (coldStart s slot) else .next s

/-- INPUT_LOW_BAND: one entry into 40 V to 48 V. -/
def execInputLowBand (s : State) : Host.Outcome State Fault Refusal :=
  if s.pins.drone then .next (p0Report s 0x8010) else .next s

/-- INPUT_HIGH_BAND: one entry into the band above 60 V. -/
def execInputHighBand (s : State) : Host.Outcome State Fault Refusal :=
  if s.pins.drone then .next (p0Report s 0x8013) else .next s

/-- INPUT_OVERVOLTAGE: 10 mV units. At 62.5 V or less the threshold of 63 V cannot act (R28); the row above 63 V has no upper
    bound, so it holds above 70 V too. (DEDUCED, log entry 59.) -/
def execInputOvervoltage (vin : BitVec 16) (s : State) : Host.Outcome State Fault Refusal :=
  if vin.toNat ≤ 6250 then .next s
  else .next (overvoltage s)

/-- POWER_LOSS. -/
def execPowerLoss (s : State) : Host.Outcome State Fault Refusal := .next (powerLost s)

/-- HOLD_UP_EXPIRY. -/
def execHoldUpExpiry (s : State) : Host.Outcome State Fault Refusal :=
  if s.pins.input then .next s else .next (coldState s)

/-- MOD_RESET_N_LOW. -/
def execModResetNLow (s : State) : Host.Outcome State Fault Refusal := .next (resetLow s)

/-- MOD_RESET_N_HIGH. -/
def execModResetNHigh (s : State) : Host.Outcome State Fault Refusal := .next (resetHigh s)

/-- CORE_RAILS_IN_REGULATION. -/
def execCoreRailsInRegulation (s : State) : Host.Outcome State Fault Refusal :=
  if s.pins.core then .next { s with pins := { s.pins with pwrGood := true } } else .next s

/-- RAIL_REGULATION_TIMEOUT. -/
def execRailRegulationTimeout (s : State) : Host.Outcome State Fault Refusal :=
  if s.pins.core ∧ !s.pins.pwrGood then
    let s := coreOff s
    .next (p0Report { s with pins := { s.pins with railFail := true } } 0x8014)
  else .next s

/-- RAIL_OUT_OF_REGULATION. -/
def execRailOutOfRegulation (s : State) : Host.Outcome State Fault Refusal :=
  .next (alertCheck { s with pins := { s.pins with pwrGood := false } })

/-- MRESET. -/
def execMreset (req : Req) (s : State) : Host.Outcome State Fault Refusal :=
  answered (mgtOnly req aMgtCtrl (fun s => wMgtCtrl s 1) s)

/-- CLUSTER_CLOCK_STOP. -/
def execClusterClockStop (c : BitVec 6) (s : State) : Host.Outcome State Fault Refusal := .next (stopClock s c.toNat)

/-- DOMAIN_POWER_OFF. -/
def execDomainPowerOff (req : Req) (d : BitVec 7) (s : State) : Host.Outcome State Fault Refusal :=
  answered (pwrOnly req (aPwrDom d.toNat) (fun s => wPwrDom s d.toNat 0) s)

/-- DOMAIN_POWER_ON. -/
def execDomainPowerOn (req : Req) (d : BitVec 7) (s : State) : Host.Outcome State Fault Refusal :=
  answered (pwrOnly req (aPwrDom d.toNat) (fun s => wPwrDom s d.toNat 1) s)

/-- DOMAIN_SWITCH_COMPLETE. -/
def execDomainSwitchComplete (d : BitVec 7) (s : State) : Host.Outcome State Fault Refusal := .next (switchDone s d.toNat)

/-- CALIPERS_SAMPLE: at each Drone tick whose TICK is a multiple of 250. (DESIGN CHOICE, log entry 21.) -/
def execCalipersSample (x : Sample) (s : State) : Host.Outcome State Fault Refusal :=
  if s.pins.drone ∧ s.drone.tick.toNat % 250 = 0 then .next (sampleAll s x) else .next s

/-- THERMAL_TRIP. -/
def execThermalTrip (s : State) : Host.Outcome State Fault Refusal := .next (trip s)

/-- DIVISION_TAKES_EFFECT: until then the cluster skips at the division's rate. -/
def execDivisionTakesEffect (c : BitVec 6) (s : State) : Host.Outcome State Fault Refusal :=
  .next (setCluster s c.toNat { getCluster s c.toNat with divPending := false })

/-- THERMAL_COALESCE_WINDOW_END. -/
def execThermalCoalesceWindowEnd (d : BitVec 4) (code : BitVec 16) (s : State) : Host.Outcome State Fault Refusal :=
  .next (thermalWindowEnd s d.toNat code.toNat)

/-- BELLOWS_HOLD. -/
def execBellowsHold (rising : BitVec 64) (s : State) : Host.Outcome State Fault Refusal := .next (bellowsHold s rising.toNat)

/-- BELLOWS_RELEASE. -/
def execBellowsRelease (s : State) : Host.Outcome State Fault Refusal := .next (bellowsRelease s)

/-- SOFT_WRITE. -/
def execSoftWrite (req : Req) (v : Word) (s : State) : Host.Outcome State Fault Refusal :=
  answered (pwrOnly req aThmCtrl (fun s => wThmCtrl s v) s)

/-- CAP_WRITE. -/
def execCapWrite (req : Req) (v : Word) (s : State) : Host.Outcome State Fault Refusal :=
  answered (pwrOnly req aPwrCtrl (fun s => wPwrCtrl s v) s)

/-- KEY_WRITE. -/
def execKeyWrite (req : Req) (key : BitVec 32) (s : State) : Host.Outcome State Fault Refusal :=
  answered (pwrOnly req aThmHold (fun s => wThmHold s req (key.setWidth 64)) s)

/-- THERMAL_HOLD_CLEARED. -/
def execThermalHoldCleared (s : State) : Host.Outcome State Fault Refusal := .next (holdCleared s)

end Sys2Proof.Machine
end

