-- ==== Sys2Proof/Machine/Reports.lean ====
section
/-! DEFINITION. Records, windows and notices (R474 to R483), Chatter (R485 to R490) and the enabling of pairs (R491). -/

namespace Sys2Proof.Machine

/-- The 64 bytes of a record (Table 17.2). SOURCE holds the module ID above the unit field (R47). -/
def recBytes (r : Rec) : List Byte :=
  let flags := flagBit r.fault 0 + flagBit r.result 1 + flagBit r.remote 2 + flagBit r.aligned 3 + flagBit r.coal 4
  wordLE r.stamp ++ natLE 2 r.unit ++ natLE 2 r.modId ++ natLE 2 r.seq.toNat ++ natLE 2 r.code.toNat ++ natLE 1 flags ++
    natLE 1 1 ++ natLE 2 (satAt 65535 r.count) ++ natLE 2 r.peer ++ natLE 2 r.tag ++ wordsLE [r.a0, r.a1, r.a2, r.a3] ++
    List.replicate 8 0

/-! ### Windows and notices (R481, R483, R495) -/

/-- Closes the window of a pair and emits its summary, from unit 0, if it counted any report. -/
def closeWindow (s : State) (peer code : Nat) : State :=
  match s.rep.windows.find? (windowIs peer code) with
  | none => s
  | some w =>
    let s := { s with rep := { s.rep with windows := s.rep.windows.filter (fun x => !windowIs peer code x) } }
    let s := rset s aMgtStorm 15 8 s.rep.windows.length
    if w.count = 0 then s
    else emit s unitFirmware code { peer := peer, remote := true, coal := some w.count, a2 := w.first, a3 := w.last }

/-- A write to MGT_KFN. -/
def wKfn (s : State) (v : Word) : Nat × State :=
  let a := aMgtKfns (fld v 51 48)
  if bit v 63 then
    let w := setFld (setFld (setFld (setFld 0 63 63 1) 62 62 (fld v 62 62)) 47 32 (fld v 47 32)) 15 0 (fld v 15 0)
    let hit (x : Window) : Bool := decide (x.peer = fld v 15 0) && (bit v 62 || decide (x.code.toNat = fld v 47 32))
    let s := (s.rep.windows.filter hit).foldl (fun s x => closeWindow s x.peer x.code.toNat) s
    (0, regPut s a w)
  else (0, regPut s a 0)

/-- A register of chapter 17 (R496). -/
def healthOnly (req : Req) (a : Nat) (f : State → Nat × State) (s : State) : Nat × State :=
  hostOnly req unitFirmware 0x902A a f s

/-! ### Chatter (R485 to R490) -/

/-- The tiles of a request, in rank order. -/
def chatTiles (s : State) (v : Word) : List Nat :=
  if bit v 62 then grpMembers (regGet s (aTileGrp (fld v 53 48))) else [fld v 12 0]

/-- KIND, ITER and SEED of a request, and the running ARITH_REV. -/
def keyWord (kind iter seed arith : Nat) : Word := setFld (setFld (setFld (setFld 0 61 58 kind) 47 32 iter) 31 16 seed) 7 0 arith

def chatKey (s : State) (v : Word) : Word := keyWord (fld v 61 58) (fld v 47 32) (fld v 31 16) (rf s aParamId 31 24)

/-- The known answer for a request among `n` entries of the image's table (Table 17.10). -/
def katFind (s : State) (v : Word) : Nat → List Byte → Option Word
  | 0, _ => none
  | n + 1, bs =>
    if 16 ≤ bs.length then
      if leNat (bs.take 1) = fld v 61 58 ∧ leNat ((bs.drop 1).take 1) = rf s aParamId 31 24 ∧
          leNat ((bs.drop 2).take 2) = fld v 31 16 ∧ leNat ((bs.drop 4).take 2) = fld v 47 32 then some (wordAt bs 8)
      else katFind s v n (bs.drop 16)
    else none

/-- The known-answer table of an image (Table 17.10): each entry's SIG is the signature of one tile that this image gives for it. -/
def katTable (image : List Byte) : List Byte :=
  ((Config.katKeys image).take 256).flatMap (fun k =>
    natLE 1 (fld k 61 58) ++ natLE 1 (fld k 7 0) ++ natLE 2 (fld k 31 16) ++ natLE 2 (fld k 47 32) ++ natLE 2 0 ++
      wordLE (Config.chatterSig image (keyWord (fld k 61 58) (fld k 47 32) (fld k 31 16) (fld k 7 0))))

def katAnswer (s : State) (v : Word) : Option Word := katFind s v 256 (katTable s.sto.image)

/-- The result area is 32-aligned and lies in HBM, or in one tile store outside the chosen tiles. -/
def chatAreaOk (a : Nat) (ts : List Nat) : Bool :=
  let len := 32 * ts.length
  a % 32 = 0 &&
  (match areaOf a len with
   | some .hbm => true
   | some .store =>
     decide ((a - storeBase) / 0x40000 = (a + len - 1 - storeBase) / 0x40000) && !ts.contains ((a - storeBase) / 0x40000)
   | _ => false)

/-- A request that R486 refuses. -/
def chatRefused (s : State) (v : Word) : Bool :=
  let ts := chatTiles s v
  s.chat.isSome || decide (5 < fld v 61 58) || decide (fld v 47 32 = 0) || (bit v 62 && !grpEn s (fld v 53 48)) ||
  ts.any (fun t => !(getTile s t).idle || (pairOf s t).isSome) || !chatAreaOk (rf s aMgtChata 47 0) ts ||
  (bit v 57 && bit v 56 && (katAnswer s v).isNone)

/-- Level in force and governed temperature of a tile's cluster. -/
def tileLevel (s : State) (t : Nat) : Nat := rf s (levelReg (clusterOf t)) 59 56
def tileTemp (s : State) (t : Nat) : BitVec 16 := BitVec.ofInt 16 ((tget {} s.thm.gov (clusterOf t)).temps.headD 0)

/-- A tile's inactive instruction bank. -/
def inactiveBank (s : State) (t : Nat) : Nat := imemBase + t * 0x8000 + (if (getTile s t).bank then 0 else 0x4000)

/-- The kernel of a request goes into a chosen tile's inactive bank (R490). -/
def loadKernel (s : State) (t kind : Nat) : State :=
  { s with mem := wrBytes s.mem (inactiveBank s t) ((Config.kernel s.sto.image kind).take 0x4000) }

/-- A chosen tile stands in tile reset from now on (R487); its collectives fail (R390). -/
def chatStart (kind : Nat) (s : State) (t : Nat) : State :=
  loadKernel (resetTile (tileLost (setTile s t { getTile s t with chatter := true }) t) t) t kind

/-- A write to MGT_CHATC. -/
def wChatc (s : State) (v : Word) : Nat × State :=
  if !bit v 63 then (0, typedWrite s aMgtChatc v)
  else if chatRefused s v then refused s (openUnit 0x10C2) 0x10C2
  else
    let ts := chatTiles s v
    let s := typedWrite s aMgtChatc v
    let s := if bit v 57 ∧ bit v 56 then regPut s aMgtChatx ((katAnswer s v).getD 0) else s
    let run : Chat := { req := v, tiles := ts.map (fun t => { tile := t, level := tileLevel s t, temp := tileTemp s t }) }
    let s := ts.foldl (chatStart (fld v 61 58)) { s with chat := some run }
    (0, regPut s aMgtChats (setFld (setFld 0 63 62 1) 15 0 ts.length))

/-- Draws that the undefined state of one tile takes. -/
def chatDraws : Nat := 0x60000

/-- The fields of a register, undefined; its reserved bits stay 0. -/
def freeReg (k : Nat) (s : State) (a : Nat) : State :=
  match regAt a with
  | some r =>
    regPut s a ((kindFields r.kind).foldl (fun w f => setFld w f.hi f.lo (Config.freeWord (k + a)).toNat) 0)
  | none => s

/-- An undefined generator. -/
def freeGen (s : State) (k : Nat) : Gen :=
  let dim (j : Nat) : GenDim := ⟨freeBits s (k + j) 16, freeBits s (k + j + 2) 24, freeBits s (k + j + 5) 16⟩
  { base := freeBits s k 20, d0 := dim (k + 3), d1 := dim (k + 10), d2 := dim (k + 17), d3 := dim (k + 24) }

/-- What a Chatter run leaves undefined of a tile (R487): its memories but for the active bank, accumulators, fusion
    descriptors, activation tables, vector and engine registers. Semaphores read 0. -/
def undefineTile (s : State) (t : Nat) : State :=
  let s1 := drawn s chatDraws
  let s1 := { s1 with
    mem := wrBytes (wrBytes s1.mem (storeBase + t * 0x40000) (freeBytes s 0x40000)) (inactiveBank s t)
      (freeBytes { s with free := s.free + 0x40000 } 0x4000)
    hold := wrBytes s1.hold (t * 0x10000) (freeBytes { s with free := s.free + 0x44000 } 0x10000) }
  let k := 0x54000
  let acc (n : Nat) : Acc :=
    { vl := Config.choice (s.free + k + n), anchor := freeBits s (k + 16 + 2 * n) 9
      el := listTbl 0 ((List.range 64).map (fun e => freeBits s (k + 64 + (n * 64 + e) * 16) 128)) }
  let eng (e : Nat) (g : Engine) : Engine :=
    { g with
      x := (List.range 31).foldl (fun m r => tset 0 m (r + 1) (freeBits s (k + 0x2100 + e * 0x400 + r * 8) 64)) []
      lc := (List.range 4).foldl (fun m r => tset 0 m r (freeBits s (k + 0x2200 + e * 0x400 + r * 4) 32)) []
      ag := (List.range 8).foldl (fun m r => tset {} m r (freeGen s (k + 0x2240 + e * 0x400 + r * 40))) [] }
  let y := getTile s1 t
  let s1 := setTile s1 t { y with
    sem := [], chatter := false, resetting := false
    acc := (List.range 8).foldl (fun m n => tset {} m n (acc n)) []
    v := (List.range 32).foldl (fun m r => tset 0 m r (freeBits s (k + 0x3400 + r * 256) 2048)) []
    eng := (List.range 4).foldl (fun m e => tmod {} m e (eng e)) y.eng }
  let fds := (List.range 15).flatMap (fun n => [aCubFdW0 t n, aCubFdW1 t n, aCubFdW2 t n])
  (fds ++ (List.range 512).map (aCubAct t)).foldl (freeReg s.free) s1

/-- A run with every tile finished is DONE. (DEDUCED, log entry 95.) -/
def chatSettle (s : State) : State :=
  match s.chat with
  | none => s
  | some r =>
    if r.tiles.all (fun x => x.done) then
      let s := rset { s with chat := none } aMgtChats 63 62 2
      report s (openUnit 0x10C0) 0x10C0 { a0 := BitVec.ofNat 64 (rf s aMgtChats 31 0) }
    else s

/-- CHATTER_TILE_DONE: the tile's entry of Table 17.5; `upset` says that the tile's signature went wrong. -/
def chatDone (s : State) (t : Nat) (upset : Bool) : State :=
  match s.chat with
  | none => s
  | some r =>
    match (List.range r.tiles.length).find? (fun k => (r.tiles.getD k ⟨0, 0, 0, true⟩).tile = t && !(r.tiles.getD k ⟨0, 0, 0, true⟩).done) with
    | none => s
    | some k =>
      let x := r.tiles.getD k ⟨t, 0, 0, true⟩
      let lost := !(getTile s t).chatter || tileIsolated s t
      let sig := if upset then Config.freeWord s.free else Config.chatterSig s.sto.image (chatKey s r.req)
      let miss := !lost && bit r.req 57 && sig ≠ regGet s aMgtChatx
      let (st, s) := takeStamp (drawn s 1) (unitOfTile t)
      let tail := natLE 2 t ++ natLE 1 x.level ++ natLE 1 (tileLevel s t) ++ natLE 2 x.temp.toNat ++
        natLE 2 (tileTemp s t).toNat ++ natLE 1 (flagBit miss 0 + flagBit lost 1) ++ List.replicate 7 0 ++ wordLE st
      let a := rf s aMgtChata 47 0 + 32 * k
      let s := if lost then s else undefineTile s t
      let s := if lost then (memWrite s .firmware (a + 8) tail).2 else (memWrite s .firmware a (wordLE sig ++ tail)).2
      let s :=
        if miss then
          report (rcount s aMgtChats 31 16 1) (openUnit 0x10C1) 0x10C1 { a0 := tileArg t }
        else s
      let ts := r.tiles.map (fun y => if y.tile = t then { y with done := true } else y)
      chatSettle { s with chat := some { r with tiles := ts } }

/-! ### Pairs (R491) -/

def pairBad (s : State) (p t : Nat) : Bool :=
  !(getTile s t).idle || (getTile s t).chatter || (List.range 16).any (fun q => q ≠ p && pairHas s q t)

/-- Named engines of a paired tile start their signatures. -/
def pairStart (v : Word) (s : State) (t : Nat) : State :=
  [1, 2, 3].foldl (fun s e =>
    if bit v (59 + e) then
      modEng s ⟨BitVec.ofNat 13 t, BitVec.ofNat 2 e⟩ (fun g =>
        { g with sig := BitVec.ofNat 64 crc64Init, snaps := [], done := 0 })
    else s) s

/-- A write to MGT_PAIRp_CTRL. (DEDUCED, log entry 57.) -/
def wPairCtrl (s : State) (p : Nat) (v : Word) : Nat × State :=
  let ta := fld v 12 0
  let tb := fld v 28 16
  if bit v 63 then
    if ta = tb ∨ fld v 62 60 = 0 ∨ pairBad s p ta ∨ pairBad s p tb then
      refused s (openUnit 0x10D1) 0x10D1
    else (0, pairStart v (pairStart v (typedWrite s (aMgtPairCtrl p) v) ta) tb)
  else (0, typedWrite s (aMgtPairCtrl p) v)

/-! ### Commands -/

/-- REMOTE_WINDOW_END. -/
def execRemoteWindowEnd (peer code : BitVec 16) (s : State) : Host.Outcome State Fault Refusal :=
  .next (closeWindow s peer.toNat code.toNat)

/-- KFN_POST: POST is 1 whatever the word says. -/
def execKfnPost (req : Req) (v : Word) (s : State) : Host.Outcome State Fault Refusal :=
  answered (healthOnly req aMgtKfn (fun s => wKfn s (setBit v 63 true)) s)

/-- KFN_WITHDRAW. -/
def execKfnWithdraw (req : Req) (slot : BitVec 4) (s : State) : Host.Outcome State Fault Refusal :=
  answered (healthOnly req aMgtKfn (fun s => wKfn s (setFld 0 51 48 slot.toNat)) s)

/-- CHATTER_GO: GO is 1 whatever the word says. -/
def execChatterGo (req : Req) (v : Word) (s : State) : Host.Outcome State Fault Refusal :=
  answered (healthOnly req aMgtChatc (fun s => wChatc s (setBit v 63 true)) s)

/-- CHATTER_TILE_DONE. -/
def execChatterTileDone (t : TileId) (upset : Bool) (s : State) : Host.Outcome State Fault Refusal :=
  .next (chatDone s t.toNat upset)

/-- PAIR_ENABLE. -/
def execPairEnable (req : Req) (p : BitVec 4) (v : Word) (s : State) : Host.Outcome State Fault Refusal :=
  answered (healthOnly req (aMgtPairCtrl p.toNat) (fun s => wPairCtrl s p.toNat v) s)

end Sys2Proof.Machine
end

