-- ==== Sys2Proof/Machine/HostQueue.lean ====
section
/-! DEFINITION. Event records on their way out (R407, R408, R416), DMA queues and their registers (R403, R406), and the
site description (R410 to R412). -/

namespace Sys2Proof.Machine

/-! ### Management datagrams (R416) -/

/-- The fault manager's address, which MGT_FM_HI and MGT_FM_LO name. -/
def fmAddr (s : State) : BitVec 128 := BitVec.ofNat 128 ((regGet s aMgtFmHi).toNat * 2 ^ 64 + (regGet s aMgtFmLo).toNat)

/-- ff02::1. -/
def allNodes : BitVec 128 := BitVec.ofNat 128 (0xFF02 * 2 ^ 112 + 1)

/-- Where HELLO and EVENT go: MGT_FM while FMV is 1, otherwise all nodes. -/
def mgtDest (s : State) : BitVec 128 := if rbit s aMgtSite 60 then fmAddr s else allNodes

/-- Sends a datagram on the management port. -/
def mgtSend (s : State) (type : Nat) (dest : BitVec 128) (body : List Byte) : State :=
  let (st, s) := takeStamp s unitFirmware
  let m : MgtMsg := { dest := dest, type := type, modId := moduleId s, seq := s.mgt.seq, stamp := st, body := body }
  { s with mgt := { s.mgt with seq := (s.mgt.seq + 1) % 65536, sent := m :: s.mgt.sent } }

/-- The copy of a record that the management port carries: faults, the entry into standby (R449), and everything while the
    host link is not UP. -/
def mgtCopy (s : State) (r : Rec) : State :=
  if r.fault ∨ r.code = 0x8041 ∨ !hlUpNow s then
    mgtSend { s with rep := { s.rep with mgt := r :: s.rep.mgt } } 2 (mgtDest s) (recBytes r)
  else s

/-! ### The event ring (R407, R408) -/

def evtHead (s : State) : Nat := rf s aHlEvtPtr 15 0
def evtTail (s : State) : Nat := rf s aHlEvtPtr 31 16

/-- Slots of a ring, 0 where LOG2SZ names none. (DEDUCED, log entry 97.) -/
def ringSlots (log : Nat) : Nat := if 4 ≤ log ∧ log ≤ 12 then 2 ^ log else 0

/-- The link is UP and the ring has space. -/
def evtReady (s : State) : Bool :=
  hlUpNow s && decide ((evtTail s + 65536 - evtHead s) % 65536 < ringSlots (rf s aHlEvtRing 55 52))

/-- Sends a record as an EVENT frame; TAIL rises by 1. -/
def sendRecord (s : State) (r : Rec) : State :=
  let s := sendFrame s (mkFrame 0x20 64 0 0 (recBytes r))
  let s := rset s aHlEvtPtr 31 16 ((evtTail s + 1) % 65536)
  { s with rep := { s.rep with sent := r :: s.rep.sent } }

/-- Drops the newest kept REMOTE record, if there is one. -/
def dropRemote (ks : List Rec) : Option (List Rec) :=
  match ks.reverse.findIdx? (fun r => r.remote) with
  | some i => some ((ks.reverse.eraseIdx i).reverse)
  | none => none

/-- Keeps a record for the host, or drops one and counts it in LOST (R408, R482). -/
def keepRecord (s : State) (r : Rec) : State :=
  if s.rep.kept.length < 256 then { s with rep := { s.rep with kept := s.rep.kept ++ [r] } }
  else
    let s' := rcount s aHlStatus 15 0 1
    match (if r.remote then none else dropRemote s.rep.kept) with
    | some ks => { s' with rep := { s'.rep with kept := ks ++ [r] } }
    | none => s'

/-- Sends 0xA_020 with LOST ahead of the kept records, and clears LOST. -/
def sendLost (s : State) : State :=
  let s := report s unitHostLink 0xA020 { a0 := BitVec.ofNat 64 (rf s aHlStatus 15 0) }
  let s := rset s aHlStatus 15 0 0
  match s.rep.raised.getLast? with
  | some r => sendRecord { s with rep := { s.rep with raised := s.rep.raised.dropLast } } r
  | none => s

/-- EVENT: the next record goes to the host, or is kept. -/
def eventStep (s : State) : State :=
  if evtReady s then
    if rf s aHlStatus 15 0 ≠ 0 then sendLost s
    else
      match s.rep.kept with
      | r :: rest => sendRecord { s with rep := { s.rep with kept := rest } } r
      | [] =>
        match s.rep.raised with
        | r :: rest => sendRecord (mgtCopy { s with rep := { s.rep with raised := rest } } r) r
        | [] => s
  else
    match s.rep.raised with
    | r :: rest => keepRecord (mgtCopy { s with rep := { s.rep with raised := rest } } r) r
    | [] => s

/-- A write to HL_EVT_PTR: HEAD may not pass TAIL. -/
def wEvtPtr (s : State) (v : Word) : Nat × State :=
  if (evtTail s + 65536 - evtHead s) % 65536 < (fld v 15 0 + 65536 - evtHead s) % 65536 then
    refuse s unitHostLink 0xA012
  else (0, typedWrite s aHlEvtPtr v)

/-! ### DMA queues (R403, R406) -/

def getDq (s : State) (q : Nat) : DmaQ := tget {} s.hl.dq q
def setDq (s : State) (q : Nat) (x : DmaQ) : State := { s with hl := { s.hl with dq := tset {} s.hl.dq q x } }
def dqState (s : State) (q : Nat) : Nat := rf s (aHlDqCtrl q) 63 62
def setDqState (s : State) (q v : Nat) : State := rset s (aHlDqCtrl q) 63 62 v
def dqHead (s : State) (q : Nat) : Nat := rf s (aHlDqPtr q) 31 16
def dqTail (s : State) (q : Nat) : Nat := rf s (aHlDqPtr q) 15 0
def dqSlots (s : State) (q : Nat) : Nat := ringSlots (rf s (aHlDqRing q) 55 52)
def dqUnit (q : Nat) : Nat := 0x10 + q

/-- Frames of a queue's M2H that no LACK covers. Its tags hold its number in bits [15:12]. -/
def hwrOut (s : State) (q : Nat) : Bool :=
  (s.hl.wait ++ s.hl.replay).any (fun f => frTT f = 0x1B && frTag f / 4096 = q)

/-- A queue waits for data it asked for, or for a LACK. -/
def dqBusy (s : State) (q : Nat) : Bool := !(getDq s q).hrds.isEmpty || !(getDq s q).dfs.isEmpty || hwrOut s q

/-- Every posted descriptor has been fetched, started and completed. -/
def dqEmpty (s : State) (q : Nat) : Bool :=
  let x := getDq s q
  x.cur.isNone && x.fetched.isEmpty && x.dfs.isEmpty && decide (dqHead s q = dqTail s q)

/-- A running queue with nothing left is IDLE. -/
def dqSettle (s : State) (q : Nat) : State := if dqState s q = 1 ∧ dqEmpty s q then setDqState s q 0 else s

/-- An ABORT ends once the outstanding work has finished. -/
def dqEndAbort (s : State) (q : Nat) : State :=
  if dqState s q = 3 ∧ !dqBusy s q then
    rset (rset (setDqState (setDq s q { reqs := (getDq s q).reqs }) q 0) (aHlDqCtrl q) 47 32 0) (aHlDqCtrl q) 31 16 0
  else s

def settleAll (s : State) : State := (List.range 16).foldl dqSettle s

/-- The queue stops in FAULTED: no NOTE fires for this descriptor or a later one. What RECOVERY refuses carries the unit of R473. -/
def dqFault (s : State) (q code tag : Nat) : State :=
  let s := setDq s q { getDq s q with cur := none, fetched := [] }
  let s := rset (rset (setDqState s q 2) (aHlDqCtrl q) 47 32 code) (aHlDqCtrl q) 31 16 tag
  report s (if code = 0x9005 then unitSecurity else dqUnit q) code { tag := tag, failing := true }

/-- A write to HL_DQq_PTR: TAIL by R226. -/
def wDqTail (s : State) (q : Nat) (v : Word) : Nat × State :=
  let new := fld v 15 0
  let n := dqSlots s q
  if dqState s q = 2 ∨ dqState s q = 3 ∨ n = 0 ∨ n < (new + 65536 - dqHead s q) % 65536 ∨
      n < (new + 65536 - dqTail s q) % 65536 then refuse s (dqUnit q) 0xA012
  else
    let s := typedWrite s (aHlDqPtr q) v
    (0, if dqState s q = 0 ∧ dqHead s q ≠ new then setDqState s q 1 else s)

/-- A write to HL_DQq_CTRL: ABORT. (DEDUCED, log entry 98.) ABORTING lasts at least to the end of the reference cycle, so that
    a TAIL write of the same cycle is refused (R419; DESIGN CHOICE, log entry 36). -/
def wDqCtrl (s : State) (q : Nat) (v : Word) : Nat × State :=
  if !bit v 0 then (0, s)
  else
    let s := setDq s q { getDq s q with fetched := [], cur := none }
    let s := rset s (aHlDqPtr q) 31 16 (dqTail s q)
    (0, setDqState s q 3)

/-- Fields of a descriptor (Table 14.3). -/
def dOp (d : List Word) : Nat := fld (d.getD 0 0) 63 60
def dNote (d : List Word) : Nat := fld (d.getD 0 0) 59 58
def dTag (d : List Word) : Nat := fld (d.getD 0 0) 15 0
def dHaddr (d : List Word) : Word := d.getD 1 0
def dMaddr (d : List Word) : Nat := fld (d.getD 2 0) 47 0
def dLen (d : List Word) : Nat := fld (d.getD 3 0) 63 32

/-- A range that touches the atomic window. -/
def touchesWindow (a len : Nat) : Bool := decide (a < windowEnd) && decide (windowBase < a + (if len = 0 then 1 else len))

/-- A descriptor that R406 calls invalid. -/
def descInvalid (d : List Word) : Bool :=
  (dOp d ≠ 1 && dOp d ≠ 2) || fld (d.getD 0 0) 32 16 ≠ 0 || fld (d.getD 2 0) 63 48 ≠ 0 || fld (d.getD 3 0) 31 0 ≠ 0 ||
  (areaOf (dMaddr d) (dLen d)).isNone ||
  (touchesWindow (dMaddr d) (dLen d) && (dOp d = 2 || dMaddr d % 32 ≠ 0 || dLen d % 32 ≠ 0))

/-! ### The site description (R412, Table 14.5) -/

def fabricBellOn (s : State) : Bool := (List.range 6).any (fun b => rbit s (aBelCtrl b) 63)

/-- FAB_BOARD holds the module's own ID. -/
def boardHasMe (s : State) : Bool :=
  (List.range 4).any (fun k => rf s aFabBoard (16 * k + 15) (16 * k) = moduleId s)

/-- The first check that fails; 0 if none does. -/
def siteCheck (s : State) : Nat :=
  if !idValid s || !boardHasMe s then 1
  else if mapId s [rf s aFabCfg 47 43, rf s aFabCfg 42 38, rf s aFabCfg 37 36] ≠ moduleId s then 2
  else if (List.range 6).any (fun b => rbit s (aBelCtrl b) 63 && !rbit s (aMgtDly b) 63) then 3
  else if fabricBellOn s && decide (popcount 4 (rf s aMgtSite 59 56) < 3) then 4
  else 0

/-- A write to MGT_SITE. -/
def wMgtSite (s : State) (v : Word) : Nat × State :=
  let s := typedWrite s aMgtSite v
  if !bit v 63 then (0, s)
  else
    let row := siteCheck s
    if row = 0 then (0, rsetb s aMgtSite 62 true) else refused s unitHostLink 0xA031 (BitVec.ofNat 64 row)

/-! ### Commands -/

/-- EVENT. -/
def execEvent (s : State) : Host.Outcome State Fault Refusal := .next (eventStep s)

/-- DQ_TAIL_WRITE. -/
def execDqTailWrite (req : Req) (q : BitVec 4) (v : Word) (s : State) : Host.Outcome State Fault Refusal :=
  answered (mgtOnly req (aHlDqPtr q.toNat) (fun s => wDqTail s q.toNat v) s)

/-- DQ_ABORT. -/
def execDqAbort (req : Req) (q : BitVec 4) (s : State) : Host.Outcome State Fault Refusal :=
  answered (mgtOnly req (aHlDqCtrl q.toNat) (fun s => wDqCtrl s q.toNat 1) s)

/-- EVENT_HEAD_WRITE. -/
def execEventHeadWrite (req : Req) (v : Word) (s : State) : Host.Outcome State Fault Refusal :=
  answered (mgtOnly req aHlEvtPtr (fun s => wEvtPtr s v) s)

/-- SITE_DONE: DONE is 1 whatever the word says. -/
def execSiteDone (req : Req) (v : Word) (s : State) : Host.Outcome State Fault Refusal :=
  answered (mgtOnly req aMgtSite (fun s => wMgtSite s (setBit v 63 true)) s)

end Sys2Proof.Machine
end

