-- ==== Sys2Proof/Machine/Boot.lean ====
section
/-! DEFINITION. Boot (R453 to R459), standby (R448 to R450), NVS commands and commits (R460 to R463), measurements, quotes
and the security lock (R465 to R469). -/

namespace Sys2Proof.Machine

/-! ### Measurements (R465, R466) -/

/-- Measurement register M`i`: 64 B, 0 after a reset (R465). -/
def measOf (s : State) (i : Nat) : List Byte := s.sto.meas.getD i (List.replicate 64 0)

/-- Extends M`i` by a digest. -/
def extend (s : State) (i : Nat) (d : List Byte) : State :=
  let m := (List.range 4).map (fun k => if k = i then shake256 (measOf s i ++ d) 64 else measOf s k)
  { s with sto := { s.sto with meas := m } }

/-! ### Boot (R453, R458) -/

/-- The records that are absent, kinds 1 to 11 (R457). -/
def absentKinds (s : State) : List Nat := ((List.range 11).map (· + 1)).filter (fun k => (curSlot s k).isNone)

/-- SK.seed, SK.prf and PK.seed of the identity key: 24 B each of SHAKE256(seed || "VRX-ID-1") (R467). -/
def idSeeds (seed : List Byte) : List Byte := shake256 (seed ++ [0x56, 0x52, 0x58, 0x2D, 0x49, 0x44, 0x2D, 0x31]) 72

/-- The identity public key that a seed gives: PK.seed and PK.root. -/
def idKey (seed : List Byte) : List Byte :=
  let g := idSeeds seed
  g.drop 48 ++ slhRoot slh192f (g.take 24) (g.drop 48)

/-- Step 3: the identity key (R467). -/
def bootPuf (s : State) (b : BootIn) : State :=
  if b.pufOk ∧ idKey b.seed = Config.leafKey Config.certs then
    rsetb { s with sto := { s.sto with pubKey := idKey b.seed, secret := (idSeeds b.seed).take 48 } } aSecStatus 63 true
  else report s unitSecurity 0x9030

/-! ### Commits in their order (R462, R463) -/

/-- A commit is done: flash holds its record, or the THERMAL record is cleared, and the registers follow. -/
def doCommit (s : State) (c : Commit) : State :=
  if c.clear then clearRec s
  else if c.kind = 4 then showRecord (commitRec s 4 (sealThermal s c.payload))
  else
    let s := commitRec s c.kind c.payload
    let s := if c.kind = 2 then rset s aSecStatus 31 16 (minSvn s) else s
    if c.kind = 1 ∧ c.nvs ∧ (c.payload.getD 1 0) = 0 then rsetb s aVrxState 58 false else s

/-- RECORD_COMMIT: the first commit that may start is done (R462 to R464). (DEDUCED, log entry 55.) -/
def recordCommit (s : State) : State :=
  match s.sto.commits.find? (fun c => !c.late) with
  | none => s
  | some c =>
    if !s.pins.drone then s
    else
      let t := doCommit { s with sto := { s.sto with commits := s.sto.commits.eraseP (fun c => !c.late) } } c
      if c.kind = 4 ∧ !c.clear then startCore (alertCheck t) else t

/-- The commits that wait are done before a later one (R462). -/
def allCommits (s : State) : State := s.sto.commits.foldl doCommit { s with sto := { s.sto with commits := [] } }

/-- Step 4: the BOOT record after R458's first part. What still waits to be committed is committed first. (DEDUCED, log entry
    93.) -/
def bootChoose (s : State) : State :=
  let s := allCommits s
  let (act, trial, tried) := bootRec s
  if trial = 1 ∧ tried = 1 then
    let s := commitRec s 1 (bootPayload (1 - act) 0 0)
    report (rsetb s aVrxState 57 true) unitSecurity 0x9004
  else if trial = 1 then commitRec s 1 (bootPayload act 1 1)
  else s

/-- Tries a slot: the fault of one that fails, naming the slot. -/
def bootTry (s : State) (b : Nat) : Bool × State :=
  let c := imageCode s (slotImage s b)
  if c = 0 then (true, s) else (false, report s unitSecurity c { a0 := BitVec.ofNat 64 b })

/-- The slot that boots, if one passes. -/
def bootPick (s : State) : Option Nat × State :=
  let (act, _, _) := bootRec s
  let (ok, s) := bootTry s act
  if ok then (some act, s)
  else
    let (ok, s) := bootTry s (1 - act)
    (if ok then some (1 - act) else none, s)

/-- Step 5 with an image: measured and started. -/
def bootImage (s : State) (b : Nat) : State :=
  let img := slotImage s b
  let h := img.take 128
  let (act, trial, _) := bootRec s
  let s := extend s 0 (shake256 img 64)
  let s := { s with sto := { s.sto with image := h } }
  let s := rset s aParamId 31 24 (imgArith h)
  let s := rset s aSecStatus 47 32 (imgSvn h)
  let s := rset (rsetb s aVrxState 59 (decide (b = 1))) aVrxState 31 0 (imgVersion h)
  rsetb s aVrxState 58 (decide (trial = 1 ∧ b = act))

/-- M1: the current MINVER payload, or 64 zero bytes. -/
def measureMin (s : State) : State :=
  extend s 1 (shake256 ((recPayload s 2).getD (List.replicate 64 0)) 64)

/-- The HBM of a die that boots isolated is not zeroed: it stays undefined (Table 16.3). -/
def bootStale (s : State) : State :=
  (List.range 8).foldl (fun s d => if dieIsolated s d then staleDie s d else s) { s with dev := [], stale := [], bad := [] }

/-- Step 6: HBM is zeroed, except on a module standby exit, and its channels train; those of isolated dies do not. -/
def bootHbm (s : State) (b : BootIn) : State :=
  let s := if rf s aVrxState 55 52 = 2 then s else bootStale s
  (List.range 512).foldl (fun s c => if dieIsolated s (homeDie c) then s else channelTrained s b.noTrain c) s

/-- Step 7. -/
def bootEnd (s : State) (recovery : Bool) : State :=
  let s := loadHold (commitMaps s)
  let s := if rbit s aThmHold 63 then report s unitP0Power 0x7040 { a0 := 8 } else s
  let s := belTrain (rsetb s (aBelCtrl 6) 63 true) 6
  let w := rf s aVrxState 55 52
  let s := { s with hl := { s.hl with woke := decide (2 ≤ w) } }
  alertCheck (rset s aVrxState 63 60 (if recovery then 1 else 2))

/-- BOOT_SEQUENCE (Table 16.4). -/
def boot (s : State) (b : BootIn) : State :=
  if !s.pins.core ∨ !s.pins.pwrGood ∨ rf s aVrxState 63 60 ≠ 0 then s
  else
    let s := compareMaps (bootLinks (rsetb s aVrxState 57 false) b.wires) (fun _ => true)
    let s := bootPuf s b
    let s := (absentKinds s).foldl (fun s k => report s unitSecurity 0x9051 { a0 := BitVec.ofNat 64 k }) s
    let s := bootChoose s
    let s := rset s aSecStatus 31 16 (minSvn s)
    let s := extend s 0 (shake256 Config.romContents 64)
    let (pick, s) := bootPick s
    let s :=
      match pick with
      | some k => bootImage s k
      | none => report s unitSecurity 0x9003
    bootEnd (bootHbm (measureMin s) b) pick.isNone

/-! ### Standby (R448 to R450) -/

/-- Ticks from now to WAKEAT, as R39 compares. -/
def ticksTo (s : State) (at_ : Nat) : Int := (BitVec.ofNat 52 at_ - s.drone.tick).toInt

/-- Something that R448 waits for is not idle. -/
def notIdle (s : State) : Bool :=
  s.tile.any (fun x => !allEngines x.2 (fun g => !g.busy && decide (g.phase = .idle))) ||
  (List.range 512).any (fun n => reedState s n ≠ 0 && reedState s n ≠ 5) ||
  (List.range 4).any (fun l => (getLane s l).aborting || !(getLane s l).queue.isEmpty || laneInflight s l ≠ 0) ||
  (List.range 16).any (fun q => dqState s q ≠ 0) || rf s aNvsStatus 63 60 = 1

/-- A write to VRX_STBY. -/
def wVrxStby (s : State) (v : Word) : Nat × State :=
  if !bit v 63 then (0, typedWrite s aVrxStby v)
  else
    let mode := fld v 62 61
    if mode = 0 ∨ mode = 3 ∨ notIdle s ∨ (bit v 60 ∧ ticksTo s (fld v 51 0) < 25000) then refused s unitFirmware 0x8040
    else (0, rset (typedWrite s aVrxStby v) aVrxState 63 60 3)

/-- Every record that waits leaves as EVENT sends it, at most `n` of them. -/
def drainEvents : Nat → State → State
  | 0, s => s
  | n + 1, s => if s.rep.raised.isEmpty then s else drainEvents n (eventStep s)

/-- STANDBY_ENTERED (R449). The power-off to come ends every pair (R494). (DEDUCED, log entry 96.) -/
def enterStandby (s : State) : State :=
  if !inStandby s ∨ !s.pins.core then s
  else
    let deep := rf s aVrxStby 62 61 = 2
    let s := (List.range 8).foldl (fun s d => if dieIsolated s d then s else flushDie (drainDie s d) d) s
    let s := report (breakPairs s (fun _ => true)) unitFirmware 0x8041
    let s := drainEvents (s.rep.kept.length + s.rep.raised.length + 1) s
    let kept := s
    let s := coreOff (belOff s 6)
    let s := rset s aHlStatus 63 62 (if hlState kept = 0 then 0 else 1)
    let s := if deep then s else { s with dev := kept.dev, stale := kept.stale, bad := kept.bad }
    let s := (List.range (if deep then 128 else 112)).foldl (fun s d => rset s (aPwrDom d) 63 62 1) s
    { s with pins := { s.pins with want := false } }

/-- WAKE_TIME: not a module reset, so TEN_MODSTAT stays (R450), and so do what a step forward asks for (R52) and the histories of
    samples (R440). -/
def wake (s : State) : State :=
  if inStandby s ∧ !s.pins.core ∧ rbit s aVrxStby 60 ∧ ticksTo s (rf s aVrxStby 51 0) ≤ 0 then
    let mode := rf s aVrxStby 62 61
    let was := s
    let s := loadHold (resetBody s)
    let s := { s with
      drone := { s.drone with everAligned := was.drone.everAligned }
      thm := { s.thm with hist := was.thm.hist, govHist := was.thm.govHist } }
    let s := if mode = 1 then { s with dev := was.dev, stale := was.stale, bad := was.bad } else s
    let s := rset (rset s aVrxState 63 60 0) aVrxState 55 52 (1 + mode)
    alertCheck (startCore { s with pins := { s.pins with want := true } })
  else s

/-! ### NVS commands (R460, R461, Table 16.11) -/

def minverLen : Nat := 64 + sigLen

/-- The kinds and operations that a command may name. -/
def nvsKindOk (op kind : Nat) : Bool :=
  match op with
  | 4 => 5 ≤ kind && kind ≤ 11
  | 5 => (1 ≤ kind && kind ≤ 11) || (16 ≤ kind && kind ≤ 18)
  | o => 1 ≤ o && o ≤ 3

/-- Bytes of memory that a command reads or writes. -/
def nvsLenOf (op len : Nat) : Nat :=
  match op with
  | 2 => 0 | 3 => minverLen | 4 => 1168 | _ => len

/-- A GO that R460 refuses with 0x9_012. -/
def nvsRefused (s : State) (op kind : Nat) : Bool :=
  rf s aNvsStatus 63 60 = 1 || !nvsKindOk op kind ||
  (op ≠ 2 && (areaOf (rf s aNvsAddr 47 0) (nvsLenOf op (rf s aNvsLen 31 0))).isNone) ||
  ((op = 1 || op = 3) && !rbit s aNvsCtrl 1) || (op = 4 && !rbit s aNvsCtrl 0)

/-- A commit that the command in progress makes. -/
def nvsCommit (s : State) (kind : Nat) (payload : List Byte) : State :=
  wantCommit s { kind := kind, payload := payload, nvs := true }

def nvsFails (s : State) (code : Nat) : State := { s with sto := { s.sto with cmdCode := code } }

/-- UPDATE: the image is checked, the slot that BOOT does not name is erased in blocks of 64 KiB and programmed.
    (DEDUCED, log entry 92.) -/
def startUpdate (s : State) (a len : Nat) : State :=
  let (bs, c, s) := memRead s .firmware a len
  if c ≠ 0 ∨ imageCode s bs ≠ 0 then nvsFails s 0x9010
  else
    let n := 128 + imgBody (bs.take 128) + sigLen
    let (act, _, _) := bootRec s
    let other := if act = 0 then 1 else 0
    let s := flashErase s (imageSlot other) ((n + 0xFFFF) / 0x10000 * 0x10000)
    nvsCommit (flashWrite s (imageSlot other) (bs.take n)) 1 (bootPayload other 1 0)

/-- A MINVER payload that R461 admits: signed under the running image's key. -/
def minverOk (s : State) (bs : List Byte) : Bool :=
  keyTrusted (imgKey s.sto.image) && slhVerify slh256s (imgKey s.sto.image) (bs.take 64) (bs.drop 64) &&
  leNat ((bs.drop 2).take 1) = rf s aParamId 47 40 && decide (minSvn s ≤ leNat (bs.take 2))

/-- What READ copies, if it exists. -/
def readItem (s : State) (kind : Nat) : Option (List Byte) :=
  match kind with
  | 16 => some (identItem s)
  | 17 => some Config.certs
  | 18 => some (katTable s.sto.image)
  | k => recPayload s k

/-- Starts a command. One whose memory can not be read or written ends with its code of Table 16.11. Its reads of memory happen here, its write (READ) at its end. -/
def nvsStart (s : State) (op kind : Nat) : State :=
  let a := rf s aNvsAddr 47 0
  let len := rf s aNvsLen 31 0
  let s := rset (rset (rset s aNvsStatus 63 60 1) aNvsStatus 47 32 0) aNvsStatus 31 0 0
  let s := { s with sto := { s.sto with cmd := some (op, kind, a, len), cmdCode := 0 } }
  match op with
  | 1 => startUpdate s a len
  | 2 =>
    let (act, trial, _) := bootRec s
    if trial = 1 then nvsCommit s 1 (bootPayload act 0 0) else s
  | 3 =>
    let (bs, c, s) := memRead s .firmware a minverLen
    if c ≠ 0 ∨ !minverOk s bs then nvsFails s 0x9011 else nvsCommit s 2 bs
  | 4 =>
    let (bs, c, s) := memRead s .firmware a 1168
    if c ≠ 0 then nvsFails s 0x9050 else nvsCommit s kind bs
  | _ =>
    match readItem s kind with
    | some bs => if len < bs.length then nvsFails s 0x9012 else s
    | none => nvsFails s 0x9012

/-- A write to NVS_CMD. In RECOVERY only UPDATE is served on the host link (R454). -/
def wNvsCmd (s : State) (req : Req) (v : Word) : Nat × State :=
  if !bit v 63 then (0, typedWrite s aNvsCmd v)
  else if req = .host ∧ rf s aVrxState 63 60 = 1 ∧ fld v 62 59 ≠ 1 then refuse s unitSecurity 0x9005
  else if nvsRefused s (fld v 62 59) (fld v 55 48) then refused s unitFlash 0x9012
  else (0, nvsStart (typedWrite s aNvsCmd v) (fld v 62 59) (fld v 55 48))

/-- The command ends with a code, or DONE. -/
def nvsEnd (s : State) (code bytes : Nat) : State :=
  let s := { s with sto := { s.sto with
    cmd := none, cmdCode := 0, commits := s.sto.commits.filter (fun c => !c.nvs) } }
  if code = 0 then report (rset (rset s aNvsStatus 63 60 2) aNvsStatus 31 0 bytes) unitFlash 0x9013
  else report (rset (rset s aNvsStatus 63 60 3) aNvsStatus 47 32 code) unitFlash code

/-- NVS_COMMAND_DONE; `ok` is false where flash failed to program, erase or read back. -/
def nvsDone (s : State) (ok : Bool) : State :=
  match s.sto.cmd with
  | none => s
  | some (op, kind, a, len) =>
    if s.sto.cmdCode ≠ 0 then nvsEnd s s.sto.cmdCode 0
    else if !ok && op ≠ 5 then nvsEnd s 0x9050 0
    else if s.sto.commits.any (fun c => c.nvs) then s
    else
      match op with
      | 5 =>
        let bs := (readItem s kind).getD []
        let (c, s) := dataWrite s .firmware a bs 0x20F0
        nvsEnd s (if c = 0 then 0 else 0x9012) bs.length
      | o => nvsEnd s 0 (nvsLenOf o len)

/-! ### SEC_ (R466, R468, R469) -/

/-- Starts a quote (Table 16.12), or refuses it. (DEDUCED, log entry 94.) -/
def startQuote (s : State) : Nat × State :=
  let a := rf s aSecQaddr 47 0
  let fits := match areaOf a 36064 with
    | some .hbm => true
    | some .store => decide ((a - storeBase) / 0x40000 = (a + 36063 - storeBase) / 0x40000)
    | _ => false
  if !rbit s aSecStatus 63 ∨ rbit s aSecStatus 62 ∨ !fits then refused s unitSecurity 0x9031
  else
    let (st, s) := takeStamp s unitSecurity
    let s := rsetb s aSecStatus 62 true
    let bytes := natLE 4 0x51544F51 ++ natLE 2 1 ++ natLE 2 (if idValid s then moduleId s else 0) ++ wordLE st ++
      wordsLE ((List.range 4).map (fun k => regGet s (aSecNonce k))) ++ (identItem s).take 8 ++ List.replicate 8 0 ++
      (List.range 4).flatMap (measOf s) ++
      wordsLE [regGet s aParamId, regGet s aSecCtrl, regGet s aSecStatus, regGet s aVrxState] ++ s.sto.pubKey
    (0, { s with sto := { s.sto with quote := some (a, bytes) } })

/-- QUOTE_DONE. The randomness that the signature adds is free. (DESIGN CHOICE, log entry 159.) -/
def quoteDone (s : State) : State :=
  match s.sto.quote with
  | none => s
  | some (a, bs) =>
    let sig := slhSign slh192f (s.sto.secret.take 24) (s.sto.secret.drop 24) (s.sto.pubKey.take 24) (freeBytes s 24) bs
    let s := (memWrite { drawn s 24 with sto := { s.sto with quote := none } } .firmware a (bs ++ sig)).2
    report (rsetb (rsetb s aSecStatus 62 false) aSecStatus 61 true) unitSecurity 0x9032

/-- A write to SEC_CTRL: only the host's EXT extends (R466). LOCK counts before the other RWL fields, a quote before an extension (R471).
    (DEDUCED, log entry 54.) -/
def wSecCtrl (s : State) (req : Req) (v : Word) : Nat × State :=
  let s := if bit v 0 ∧ !secLocked s then rsetb s aSecCtrl 0 true else s
  let (c, s) := typedAccess s aSecCtrl v
  let (q, s) := if bit v 7 then startQuote s else (0, s)
  (if c ≠ 0 then c else q, if bit v 6 ∧ req = .host then extend s (if bit v 5 then 3 else 2) (wordsLE ((List.range 8).map (fun k => regGet s (aSecExtd k)))) else s)

/-! ### Commands -/

/-- A register of chapter 16 (R472). -/
def secOnly (req : Req) (a : Nat) (f : State → Nat × State) (s : State) : Nat × State :=
  hostOnly req unitSecurity 0x9028 a f s

/-- An NVS_CMD write with GO. -/
def nvsGo (req : Req) (op kind : Nat) (s : State) : Host.Outcome State Fault Refusal :=
  answered (secOnly req aNvsCmd (fun s => wNvsCmd s req (setFld (setFld (setBit 0 63 true) 62 59 op) 55 48 kind)) s)

/-- BOOT_SEQUENCE. -/
def execBootSequence (b : BootIn) (s : State) : Host.Outcome State Fault Refusal := .next (boot s b)

/-- STANDBY_GO: GO is 1 whatever the word says. -/
def execStandbyGo (req : Req) (v : Word) (s : State) : Host.Outcome State Fault Refusal :=
  answered (secOnly req aVrxStby (fun s => wVrxStby s (setBit v 63 true)) s)

/-- STANDBY_ENTERED. -/
def execStandbyEntered (s : State) : Host.Outcome State Fault Refusal := .next (enterStandby s)

/-- WAKE_TIME. -/
def execWakeTime (s : State) : Host.Outcome State Fault Refusal := .next (wake s)

/-- UPDATE. -/
def execUpdate (req : Req) (s : State) : Host.Outcome State Fault Refusal := nvsGo req 1 0 s

/-- CONFIRM. -/
def execConfirm (req : Req) (s : State) : Host.Outcome State Fault Refusal := nvsGo req 2 0 s

/-- MINVER. -/
def execMinver (req : Req) (s : State) : Host.Outcome State Fault Refusal := nvsGo req 3 0 s

/-- CALWR. -/
def execCalwr (req : Req) (kind : BitVec 8) (s : State) : Host.Outcome State Fault Refusal := nvsGo req 4 kind.toNat s

/-- READ. -/
def execRead (req : Req) (kind : BitVec 8) (s : State) : Host.Outcome State Fault Refusal := nvsGo req 5 kind.toNat s

/-- NVS_COMMAND_DONE. -/
def execNvsCommandDone (flashOk : Bool) (s : State) : Host.Outcome State Fault Refusal := .next (nvsDone s flashOk)

/-- RECORD_COMMIT. -/
def execRecordCommit (s : State) : Host.Outcome State Fault Refusal := .next (recordCommit s)

/-- EXT: the other fields are written as they stand. -/
def execExt (req : Req) (sel : Bool) (s : State) : Host.Outcome State Fault Refusal :=
  answered (secOnly req aSecCtrl (fun s => wSecCtrl s req (setBit (setBit (regGet s aSecCtrl) 6 true) 5 sel)) s)

/-- QUOTE. -/
def execQuote (req : Req) (s : State) : Host.Outcome State Fault Refusal :=
  answered (secOnly req aSecCtrl (fun s => wSecCtrl s req (setBit (regGet s aSecCtrl) 7 true)) s)

/-- QUOTE_DONE. The randomness that the signature adds is free. (DESIGN CHOICE, log entry 159.) -/
def execQuoteDone (s : State) : Host.Outcome State Fault Refusal := .next (quoteDone s)

/-- LOCK. -/
def execLock (req : Req) (s : State) : Host.Outcome State Fault Refusal :=
  answered (secOnly req aSecCtrl (fun s => wSecCtrl s req (setBit (regGet s aSecCtrl) 0 true)) s)

end Sys2Proof.Machine
end

