-- ==== Sys2Proof/Machine/Control.lean ====
section
/-! DEFINITION. Control space as one: what a read of a register returns, and what a write by any requester does
(R9 to R12, R75, R103, R272, R295, R333, R359, R394, R420, R444, R472, R496). -/

namespace Sys2Proof.Machine

/-! ### Push windows (R75, R102, Table 13.16) -/

/-- A push window: of a tile engine, of a group's engine, or of a Chanter lane. -/
inductive Win where
  | tile (t e : Nat)
  | group (g e : Nat)
  | lane (l : Nat)
  deriving DecidableEq, Repr

def groupWins : Nat := 0x030002100000
def laneRegs : Nat := 0x030011010000

/-- The push window that holds an address, with the offset in it. -/
def winAt (a : Nat) : Option (Win × Nat) :=
  if tileRegs ≤ a ∧ a < tileRegs + 8192 * 0x1000 then
    let o := (a - tileRegs) % 0x1000
    if 0x800 ≤ o ∧ o < 0x880 then some (.tile ((a - tileRegs) / 0x1000) ((o - 0x800) / 0x20), o % 0x20) else none
  else if groupWins ≤ a ∧ a < groupWins + 64 * 0x80 then
    some (.group ((a - groupWins) / 0x80) ((a - groupWins) % 0x80 / 0x20), (a - groupWins) % 0x20)
  else if laneRegs ≤ a ∧ a < laneRegs + 4 * 0x100 then
    let o := (a - laneRegs) % 0x100
    if 0x80 ≤ o ∧ o < 0xA0 then some (.lane ((a - laneRegs) / 0x100), o - 0x80) else none
  else none

/-- A push to a window. -/
def winPush (s : State) (w : Win) (w0 w1 w2 w3 : Word) (by_ : Option At) : Nat × State :=
  match w with
  | .tile t e => tilePush s t e w0 w1 w2 w3
  | .group g e => groupPush s g e w0 w1 w2 w3
  | .lane l => lanePush s l w0 w1 w2 w3 by_

/-! ### Reads -/

/-- A tile's clock runs, neither gated nor stopped (Table 3.7). -/
def tileClocked (s : State) (t : Nat) : Bool :=
  tilePowered s t && !(getTile s t).gated && decide ((getCluster s (clusterOf t)).clk = .running)

/-- STATE of Table 3.9. -/
def lqState (g : Engine) : Nat :=
  match g.phase with
  | .idle => if g.queue.isEmpty then 0 else 1
  | .run => 2
  | .streamWait => 3
  | .aborting => 4
  | .faulted => 5
  | .swapbWait => 6
  | .drain => 7

/-- One bit per engine of a tile, L lowest. -/
def engineBits (x : Tile) (p : Engine → Bool) : Nat :=
  (p (x.engine 0)).toNat + 2 * (p (x.engine 1)).toNat + 4 * (p (x.engine 2)).toNat + 8 * (p (x.engine 3)).toNat

/-- DEDUCED, log entry 83. -/
def readTileStatus (s : State) (t : Nat) : Word :=
  let x := getTile s t
  let w := setBit (setBit (setBit (regGet s (aTileStatus t)) 63 x.resetting) 62 (tilePowered s t)) 61 (tileClocked s t)
  let w := setFld w 15 12 (engineBits x (fun g => g.phase = .faulted))
  let w := setFld w 11 8 (engineBits x (fun g => lqState g = 1 || lqState g = 3))
  let w := setFld w 7 4 (engineBits x (fun g => g.running.isSome))
  setFld w 3 0 (engineBits x (fun g => g.phase = .aborting))

def readTileLq (s : State) (t e : Nat) : Word :=
  let x := getTile s t
  let g := x.engine e
  let w := setFld (setFld (setFld 0 63 48 g.tag) 47 44 (lqState g)) 43 32 g.pc.toNat
  setFld (setFld (setBit w 31 x.bank) 20 16 g.queue.length) 15 0 g.fault.toNat

def readTileIbank (s : State) (t : Nat) : Word :=
  let x := getTile s t
  setBit (setFld (regGet s (aTileIbank t)) 7 4 (engineBits x (fun g => g.phase = .swapbWait))) 0 x.bank

/-- MODE and ANCH of four accumulators in 16-bit lanes. -/
def readCubAcc (s : State) (t j : Nat) : Word :=
  let lane (k : Nat) : Nat :=
    let a := tget {} (getTile s t).acc (4 * j + k)
    (a.anchor.toNat + a.vl.toNat * 2 ^ 15) * 2 ^ (16 * k)
  BitVec.ofNat 64 (lane 0 + lane 1 + lane 2 + lane 3)

def readCubRmax (s : State) (t j : Nat) : Word :=
  tget 0 (getTile s t).rmax (2 * j + 1) ++ tget 0 (getTile s t).rmax (2 * j)

def readFlowState (s : State) (n : Nat) : Word :=
  let f := flowOf s n
  if flowRecv s n then
    setFld (setFld (setFld 0 47 32 f.exp) 31 16 f.map.length) 4 0 f.slots.length
  else
    setFld (setFld (setFld 0 47 32 f.nextSeq) 31 16 f.unacked.length) 4 0
      (f.ops.filter (fun o => o.opid.isSome)).length

def readLaneStatus (s : State) (l : Nat) : Word :=
  let n := (s.chn.colls.filter (fun c => c.lane = l && !c.ended)).length
  let d := (getLane s l).queue.length
  let st := if (getLane s l).aborting then 2 else if n + d = 0 then 0 else 1
  setFld (setFld (setFld (regGet s (aChnLaneStatus l)) 63 60 st) 59 55 n) 54 50 d

/-- PWR_DOMd with CLK of a cluster domain that is on. -/
def readPwrDom (s : State) (d : Nat) : Word :=
  let w := regGet s (aPwrDom d)
  if d < 96 ∧ d % 12 < 8 ∧ fld w 63 62 = 0 then
    setFld w 61 60
      (match (getCluster s (d / 12 * 8 + d % 12)).clk with
       | .running => 0
       | .stopped => 1
       | .starting => 2)
  else w

def dirtyLines (s : State) (d : Nat) : Nat := ((linesOf s d).filter (fun l => l.dirty)).length

/-- The word that a register reads as; what is computed from the rest of the state is not held in `regs`. -/
def readReg (s : State) (r : Reg) (a : Nat) : Word :=
  match r.kind with
  | .drnNow =>
    stampWord s.drone.tick (if unitStopped s unitFirmware then 0 else fracAt unitFirmware (Config.cycles s.free))
  | .drnAlign => readAlign s
  | .tileStatus => readTileStatus s r.i
  | .tileLq => readTileLq s r.i r.j
  | .tileSem => BitVec.ofNat 64 ((getTile s r.i).semVal r.j)
  | .tileIbank => readTileIbank s r.i
  | .cubAcc => readCubAcc s r.i r.j
  | .cubCexp => tget 0 (getTile s r.i).cexp r.j
  | .cubRmax => readCubRmax s r.i r.j
  | .hbmScStatus => setFld (regGet s a) 31 0 (dirtyLines s r.i)
  | .fabEpoch => setFld (regGet s a) 31 0 (oldCount s)
  | .fabPortStatus => if 6 ≤ r.i then setFld 0 63 60 1 else regGet s a
  | .fabFlowState => readFlowState s r.i
  | .belRingT | .belRingR => if isLane r.i r.j then regGet s a else 0
  | .chnLaneStatus => readLaneStatus s r.i
  | .secM => wordAt (measOf s r.i) (8 * r.j)
  | .pwrDom => readPwrDom s r.i
  | _ => regGet s a

/-- Who may read a register of a Reed or a tile, and what it meets there: a tile that is off, isolated or under Chatter fails
    every access (R96, R487, Table 10.8). (DEDUCED, log entry 45.) -/
def readCode (s : State) (req : Req) (r : Reg) (a : Nat) : Option (Nat × State) :=
  match r.kind with
  | .reedRing | .reedTail | .reedStatus | .reedCtrl => reedRegCode s req r.i
  | k => if tileKind k then tileRegCode s req r.i a else none

/-- What a read that is served does on its way: it arrives at a tile (R94, R95), and DRN_NOW draws its FRAC. -/
def readArrives (s : State) (r : Reg) : State :=
  if r.kind = .drnNow then drawn s 1 else if tileKind r.kind then wakeTile s r.i else s

/-- An access to a word of a tile's window that holds no register meets what one to a register meets (R96). -/
def holeCode (s : State) (req : Req) (a : Nat) : Option (Nat × State) :=
  match tileAt a with
  | some t => tileRegCode s req t a
  | none => none

/-- A failed read. -/
def noRead (r : Nat × State) : Word × Nat × State := (0, r.1, r.2)

/-- A read of 8 aligned bytes of control space: the word, a code, the state. -/
def ctlRead (s : State) (req : Req) (a : Nat) : Word × Nat × State :=
  if barred s req a then noRead (refuse s unitSecurity 0x9005)
  else if inWindow a 8 then noRead (0x2052, reportWindow s req 0x2052 a)
  else if a % 8 ≠ 0 ∨ (winAt a).isSome then noRead (failed s req 0x20F0 a)
  else
    match unreached s req a with
    | some x => noRead x
    | none =>
      match regAt a with
      | none =>
        match holeCode s req a with
        | some x => noRead x
        | none => (0, 0, s)
      | some r =>
        match readCode s req r a with
        | some x => noRead x
        | none => (readReg (if tileKind r.kind then wakeTile s r.i else s) r a, 0, readArrives s r)

/-! ### Writes -/

/-- The host may swap a tile's banks (R136). -/
def maySwap (x : Tile) : Bool := allEngines x (fun g => !g.busy && decide (g.phase = .idle))

/-- A write to TILE_IBANK by the host: DROP, and a swap. A refused write changes nothing but raises its fault (R136). -/
def wTileIbank (s : State) (t : Nat) (v : Word) : Nat × State :=
  if bit v 1 ∧ !maySwap (getTile s t) then (0x10A1, report s (unitOfTile t) 0x10A1 { a0 := tileArg t })
  else
    let s := typedWrite s (aTileIbank t) v
    (0, if bit v 1 then setTile s t { getTile s t with bank := !(getTile s t).bank } else s)

/-- The registers of its own tile that a tile engine may write by STG (R103, R172, R184). -/
def ownTileReg : Kind → Bool
  | .tileStatus | .tileIbank | .cubStatus | .cubFstat | .vecStatus | .cubFdW0 | .cubFdW1 | .cubFdW2 | .cubFdW3
  | .cubAct => true
  | _ => false

/-- A write to a register of a tile other than TILE_CTRL, TILE_SEM, TILE_SEMADD and TILE_IBANK. -/
def wTilePlain (s : State) (req : Req) (r : Reg) (a : Nat) (v : Word) : Nat × State :=
  match req with
  | .engine e =>
    if ownTileReg r.kind && e.tile.toNat = r.i then (0, typedWrite s a v) else r103 s
  | _ => tileHostWrite s req r.i a (fun s => typedWrite s a v)

/-- The code with which a block refuses a requester that may not write it; 0 for a block that no rule keeps. -/
def blockCode (a : Nat) : Nat :=
  if 0x030002000000 ≤ a ∧ a < 0x030003000000 then 0x902B
  else if 0x030003000000 ≤ a ∧ a < 0x030004000000 then 0x9023
  else if 0x030004000000 ≤ a ∧ a < 0x03000D000000 then 0x902B
  else if 0x03000E000000 ≤ a ∧ a < 0x03000F000000 then 0x9021
  else if 0x03000F000000 ≤ a ∧ a < 0x030010000000 then 0x9022
  else if 0x030010000000 ≤ a ∧ a < 0x030011000000 then 0x9024
  else if 0x030011000000 ≤ a ∧ a < 0x030012000000 then 0x9025
  else if 0x030012000000 ≤ a ∧ a < 0x030014000000 then 0x9026
  else if 0x030014000000 ≤ a ∧ a < 0x030016000000 then 0x9027
  else if 0x030016000000 ≤ a ∧ a < 0x030019000000 then 0x9028
  else if 0x030019000000 ≤ a ∧ a < 0x03001A000000 then 0x902A
  else 0

/-- A write to a word that holds no register: ignored (R10), after the block's own check of the requester. -/
def wReserved (s : State) (req : Req) (a : Nat) : Nat × State :=
  let c := blockCode a
  if c ≠ 0 ∧ !isHost req then
    refuse s (if c = 0x9028 then unitSecurity else if c = 0x9026 then unitHostLink else unitFirmware) c
  else
    reached req a (fun s =>
      match holeCode s req a with
      | some r => r
      | none => (0, s)) s

/-- A write to a plain register of a block by field type. -/
def plain (a : Nat) (v : Word) (s : State) : Nat × State := typedAccess s a v

/-- A write to a register of chapters 03 to 08. -/
def wTileSide (s : State) (req : Req) (r : Reg) (a : Nat) (v : Word) : Nat × State :=
  match r.kind with
  | .tileCtrl => tileCtrl s req r.i v
  | .tileSem => wTileSem s req r.i r.j v
  | .tileSemadd => wTileSemadd s req r.i v
  | .tileGrp => hostOnly req unitFirmware 0x902B a (fun s => wTileGrp s r.i v) s
  | .tileIbank =>
    match req with
    | .engine e => if e.tile.toNat = r.i then (0, typedWrite s a v) else r103 s
    | _ => tileHostAsk s req r.i a (fun s => wTileIbank s r.i v)
  | .reedRing => reached req a (fun s => wReedRing s req r.i v) s
  | .reedTail => reached req a (fun s => wReedTail s req r.i v) s
  | .reedStatus => reached req a (fun s => wReedStatus s req r.i v) s
  | .reedCtrl => reached req a (fun s => wReedCtrl s req r.i v) s
  | _ => wTilePlain s req r a v

/-- A write to a register of chapters 09 to 11. -/
def wMemNet (s : State) (req : Req) (r : Reg) (a : Nat) (v : Word) : Nat × State :=
  match r.kind with
  | .hbmRgnBase | .hbmRgnSize | .hbmRgnDev => hbmOnly req a (fun s => wRgnWord s r.i a v) s
  | .hbmRgnCtrl => hbmOnly req a (fun s => wRgnCtrl s r.i v) s
  | .hbmExcl => hbmOnly req a (fun s => wHbmExcl s r.i v) s
  | .hbmChCtrl => hbmOnly req a (fun s => wChCtrl s r.i v) s
  | .hbmScCtrl => hbmOnly req a (fun s => wScCtrl s r.i v) s
  | .hbmCap | .hbmChStatus | .hbmChAtom | .hbmScStatus => hbmOnly req a (plain a v) s
  | .tenDieCtrl => tenOnly req a (fun s => wDieCtrl s r.i v) s
  | .tenLinkStatus | .tenLinkCnt | .tenLinkSpare | .tenDieStatus | .tenModstat | .tenMap => tenOnly req a (plain a v) s
  | .fabCfg => fabOnly req a (fun s => wFabCfg s v) s
  | .fabEpoch => if isEngine req then wFabSeen s v else fabOnly req a (fun s => wFabEpoch s v) s
  | .fabTimer => fabOnly req a (fun s => wFabTimer s v) s
  | .fabMqRing => fabOnly req a (fun s => wMqRing s r.i v) s
  | .fabMqPtr => if isEngine req then wMqPtr s r.i v else fabOnly req a (fun s => wMqPtr s r.i v) s
  | .fabMqNote => fabOnly req a (fun s => wMqNote s r.i v) s
  | .fabRouteA => fabOnly req a (fun s => wRoute s false a v) s
  | .fabRouteB => fabOnly req a (fun s => wRoute s true a v) s
  | .fabMc => fabOnly req a (fun s => wFabMc s r.i v) s
  | .fabFlowCfg => fabOnly req a (fun s => wFlowCfg s r.i v) s
  | .fabFlowState => fabOnly req a (fun s => wFlowState s r.i v) s
  | _ => fabOnly req a (plain a v) s

/-- A write to a register of chapters 12 to 14. -/
def wOptics (s : State) (req : Req) (r : Reg) (a : Nat) (v : Word) : Nat × State :=
  match r.kind with
  | .belCtrl => belOnly req a (fun s => wBelCtrl s r.i v) s
  | .belPeer | .belLockmap | .belTemp => belOnly req a (fun s => wBelGuarded s r.i a v) s
  | .belRingT => belOnly req a (fun s => wBelRing s r.i r.j v) s
  | .belStatus | .belLanes | .belFec | .belRingR | .belXt | .belLp => belOnly req a (plain a v) s
  | .chnGrpCtrl => chnOnly req a (fun s => wChnCtrl s r.i v) s
  | .chnGrpBlk | .chnGrpStage | .chnGrpStat => chnOnly req a (fun s => wChnWord s r.i a v) s
  | .chnLaneCtrl => chnOnly req a (fun s => wLaneCtrl s r.i v) s
  | .chnRsd =>
    if isEngine req then wChnRsd s r.i r.j v else chnOnly req a (fun s => wChnRsd s r.i r.j v) s
  | .chnLaneStatus | .chnLaneBar | .chnLaneLate | .chnMap => chnOnly req a (plain a v) s
  | .hlDqPtr => mgtOnly req a (fun s => wDqTail s r.i v) s
  | .hlDqCtrl => mgtOnly req a (fun s => wDqCtrl s r.i v) s
  | .hlEvtPtr => mgtOnly req a (fun s => wEvtPtr s v) s
  | .mgtSite => mgtOnly req a (fun s => wMgtSite s v) s
  | .mgtCtrl => mgtOnly req a (fun s => wMgtCtrl s v) s
  | _ => mgtOnly req a (plain a v) s

/-- A write to a register of chapters 15 to 17. -/
def wUpkeep (s : State) (req : Req) (r : Reg) (a : Nat) (v : Word) : Nat × State :=
  match r.kind with
  | .pwrCtrl => pwrOnly req a (fun s => wPwrCtrl s v) s
  | .pwrDom => pwrOnly req a (fun s => wPwrDom s r.i v) s
  | .thmCtrl => pwrOnly req a (fun s => wThmCtrl s v) s
  | .thmHold => pwrOnly req a (fun s => wThmHold s req v) s
  | .pwrStatus | .thmDie | .thmSens => pwrOnly req a (plain a v) s
  | .nvsCmd => secOnly req a (fun s => wNvsCmd s req v) s
  | .secCtrl => secOnly req a (fun s => wSecCtrl s req v) s
  | .vrxStby => secOnly req a (fun s => wVrxStby s v) s
  | .nvsAddr | .nvsLen | .nvsStatus | .nvsCtrl | .secStatus | .secQaddr | .secNonce | .secExtd | .secM | .vrxState =>
    secOnly req a (plain a v) s
  | .mgtKfn => healthOnly req a (fun s => wKfn s v) s
  | .mgtChatc => healthOnly req a (fun s => wChatc s v) s
  | .mgtPairCtrl => healthOnly req a (fun s => wPairCtrl s r.i v) s
  | _ => healthOnly req a (plain a v) s

/-- A write of 8 aligned bytes of control space: its code and the state. -/
def ctlWrite (s : State) (req : Req) (a : Nat) (v : Word) : Nat × State :=
  if inWindow a 8 then
    match req with
    | .host => if barred s req a then refuse s unitSecurity 0x9005 else (0x2052, reportWindow s req 0x2052 a)
    | .firmware => (0x2052, reportWindow s req 0x2052 a)
    | _ => refuse s unitFirmware 0x9021
  else if a % 8 ≠ 0 ∨ (winAt a).isSome then
    if barred s req a then refuse s unitSecurity 0x9005 else refuse s unitFirmware 0x20F0
  else
    match regAt a with
    | none => wReserved s req a
    | some r =>
      if a < 0x030001000000 then reached req a (plain a v) s
      else if r.kind = .tileGrp then wTileSide s req r a v
      else if a < 0x030004000000 then wMemNet s req r a v
      else if a < 0x03000E000000 then wTileSide s req r a v
      else if a < 0x030010000000 then wMemNet s req r a v
      else if a < 0x030014000000 then wOptics s req r a v
      else wUpkeep s req r a v

/-- The bytes that a resource off the map returns: 0x2_001. -/
def offMap (s : State) (req : Req) (a : Nat) : Nat × State := (0x2001, reportAccess s req 0x2001 a)

/-- Class of an 8-byte read of HBM (Table 9.4): LC for LDG and LD, DEBUG for the management controller, BULK for the host. -/
def wordClass : Req → Nat
  | .mgmt => clsDebug
  | .host => 3
  | _ => 0

/-- A read of 8 bytes at a local physical address, wherever it lies (R127). -/
def read8 (s : State) (req : Req) (a : Nat) : Word × Nat × State :=
  match areaOf a 8 with
  | some .ctl => ctlRead s req a
  | _ =>
    let (bs, c, s) := memReadAs (wordClass req) s req a 8
    (BitVec.ofNat 64 (leNat bs), c, s)

/-- A write of 8 bytes at a local physical address, wherever it lies (R127). -/
def write8 (s : State) (req : Req) (a : Nat) (v : Word) : Nat × State :=
  match areaOf a 8 with
  | some .ctl => ctlWrite s req a v
  | _ => memWrite s req a (wordLE v)

/-- A range that touches the atomic window. -/
def meetsWindow (a len : Nat) : Bool := decide (a < windowEnd) && decide (windowBase < a + (if len = 0 then 1 else len))

/-- A read of `n` bytes at a local physical address by a transfer, a get or DMA: of control space, one aligned register
    (R9) and never the atomic window (R255). HBM is read in class `cls` of Table 9.4. -/
def loadReadAs (cls : Nat) (s : State) (req : Req) (a n : Nat) : List Byte × Nat × State :=
  if areaOf a n = some .ctl then
    if meetsWindow a n then ([], 0x2052, reportWindow s req 0x2052 a)
    else if n = 8 then
      let (w, c, s) := ctlRead s req a
      (wordLE w, c, s)
    else if n = 0 then ([], 0, s)
    else
      let (c, s) := failed s req 0x20F0 a
      ([], c, s)
  else memReadAs cls s req a n

def loadRead (s : State) (req : Req) (a n : Nat) : List Byte × Nat × State := loadReadAs (readClass req) s req a n

/-- The code that keeps a transfer from a register which tile engines may write by STG alone (R103, R333, R394); 0 for every other
    register, which meets a transfer as it meets an STG. -/
def stgOnly (a : Nat) : Nat :=
  match (regAt a).map Reg.kind with
  | some .fabMqPtr => 0x9023
  | some .fabEpoch => 0x9023
  | some .chnRsd => 0x9025
  | some .tileSemadd => 0x902B
  | some k => if ownTileReg k then 0x902B else 0
  | none => 0

/-- A write by a transfer of this module: 8 aligned bytes of control space outside the atomic window are one register
    write (R9); every other is as `dataWrite`. (DEDUCED, log entry 84.) -/
def storeWrite (s : State) (req : Req) (a : Nat) (bs : List Byte) : Nat × State :=
  if areaOf a bs.length = some .ctl ∧ !meetsWindow a bs.length ∧ bs.length = 8 then
    if a % 8 = 0 ∧ stgOnly a ≠ 0 then refuse s unitFirmware (stgOnly a) else ctlWrite s req a (wordAt bs 0)
  else dataWrite s req a bs 0x20F0

/-! ### Commands -/

/-- HOST_BANK_SWAP: a write of SWAP. -/
def execHostBankSwap (req : Req) (t : TileId) (s : State) : Host.Outcome State Fault Refusal :=
  tileWritten s req (aTileIbank t.toNat) 2 (fun s => tileHostAsk s req t.toNat (aTileIbank t.toNat) (fun s => wTileIbank s t.toNat 2))

/-- A write of 8 bytes with its answer: at once, or as the last of what waits (R95, R268). -/
def takeWrite (s : State) (req : Req) (a : Nat) (v : Word) : State :=
  if heldBack s (memSpan a 8) ∧ !barred s req a then holdWork s (memSpan a 8) (.write req a v)
  else
    let (c, s) := write8 s req a v
    replied s c []

/-- REGISTER_WRITE. -/
def execRegisterWrite (req : Req) (a : BitVec 48) (v : Word) (s : State) : Host.Outcome State Fault Refusal :=
  .next (takeWrite s req a.toNat v)

end Sys2Proof.Machine
end

