-- ==== Sys2Proof/Machine/Engine.lean ====
section
/-! DEFINITION. How an engine issues a bundle (R108 to R121, R503): pending results, waits, what each slot does, the
end-of-loop test, and the faults of a bundle (R140). -/

namespace Sys2Proof.Machine

/-! ### Pending results (R111, R153, R220) -/

/-- Writes tile-local ranges in order; the C and V engines fold them into a paired signature (Table 17.6). -/
def pendMem (a : At) : List (Nat × List Byte) → State → State
  | [], s => s
  | (o, bs) :: rest, s => pendMem a rest (sigFold (localWrite s a.tile.toNat o bs).2 a bs)

def Engine.setXs : List (BitVec 5 × Word) → Engine → Engine
  | [], g => g
  | (r, v) :: rest, g => Engine.setXs rest (g.setX r v)

def Engine.stepAll : List Nat → Engine → Engine
  | [], g => g
  | n :: ns, g => Engine.stepAll ns (g.stepGen n)

/-- What a result writes beyond its own engine's registers. -/
def Tile.takePend (p : Pend) (x : Tile) : Tile :=
  { x with
    v := p.v.foldl (fun m r => tset 0 m r.1.toNat r.2) x.v
    acc := p.acc.foldl (fun m r => tset {} m r.1.toNat r.2) x.acc
    cexp := p.cexp.foldl (fun m r => tset 0 m r.1.toNat r.2) x.cexp
    rmax := p.rmax.foldl (fun m r => tset 0 m r.1 r.2) x.rmax }

/-- Sets status bits of a tile, where there are any. -/
def orStatus (s : State) (a : Nat) (m : Word) : State := if m = 0 then s else rorb s a m

/-- Writes one result. -/
def applyPend (s : State) (a : At) (p : Pend) : State :=
  let t := a.tile.toNat
  let s := modEng s a (fun g => (g.setXs p.x).stepAll (p.step.map BitVec.toNat))
  let s := setTile s t ((getTile s t).takePend p)
  let s := pendMem a p.mem s
  orStatus (orStatus (orStatus s (aCubStatus t) p.cub) (aCubFstat t) p.fst) (aVecStatus t) p.vec

/-- Writes the oldest pending result of an engine. -/
def popPend (s : State) (a : At) : State :=
  match (getEng s a).results with
  | [] => s
  | p :: ps => applyPend (modEng s a (fun g => { g with results := ps })) a p

/-- Writes the `n` oldest. -/
def popPends (a : At) : Nat → State → State
  | 0, s => s
  | n + 1, s => popPends a n (popPend s a)

/-- Writes all of them. -/
def flushPends (s : State) (a : At) : State := popPends a (getEng s a).results.length s

/-! ### Control slot -/

/-- The target of a branch or jump. -/
def branchTo (pc : Nat) (off : BitVec 13) : Int := (pc : Int) + off.toInt

def inBank (t : Int) : Bool := decide (0 ≤ t) && decide (t < 4096)

/-- XA of a control operation that reads a count. -/
def ctlXaOf (g : Engine) : Ctl → Word
  | .loop xa _ _ => g.xr xa
  | .lcset xa _ => g.xr xa
  | _ => 0

/-- A control operation with its conditions settled by the registers as they stand: a JR becomes its jump, a branch its
    jump or nothing, and a satisfied wait nothing. `.signal 0 0` adds nothing. -/
def settleCtl (g : Engine) : Ctl → Ctl
  | .jr xa => .j (BitVec.ofInt 13 (((g.xr xa).toNat % 4096 : Nat) - (g.pc.toNat : Int)))
  | .br c xa xb off => if cmpHolds c (g.xr xa) (g.xr xb) then .j off else .signal 0 0
  | .wait _ _ => .signal 0 0
  | .gbar => .signal 0 0
  | .drain => .signal 0 0
  | c => c

/-- 0x1_009 (R121) and 0x1_004 (R503) of a loop of counter `lc` and EXIT `exit` in a bundle of `len` words. -/
def loopCodes (g : Engine) (len : Nat) (lc : BitVec 2) (exit : BitVec 12) : List Nat :=
  let out := g.pc.toNat + exit.toNat
  (if g.loops.any (fun l => l.lc = lc) || decide (exit.toNat ≤ len) ||
      (match g.loops with
       | l :: _ => decide (l.exit < out)
       | [] => false) then [0x1009] else []) ++
  (if 4096 < out then [0x1004] else [])

/-- What the control slot of a bundle meets: a taken branch outside the bank, a loop that does not nest.
    (DEDUCED, log entry 102.) -/
def ctlCodes (g : Engine) (len : Nat) : Ctl → List Nat
  | .j off => if inBank (branchTo g.pc.toNat off) then [] else [0x1004]
  | .jal _ off => if inBank (branchTo g.pc.toNat off) then [] else [0x1004]
  | .br c xa xb off =>
    if !cmpHolds c (g.xr xa) (g.xr xb) || inBank (branchTo g.pc.toNat off) then [] else [0x1004]
  | .loop _ lc exit => loopCodes g len lc exit
  | .loopi lc exit _ => loopCodes g len lc exit
  | _ => []

/-- The end-of-loop test (R118): the loops that stay live, the counters, and the next PC. -/
def endOfLoop : List Loop → Nat → Tbl (BitVec 32) → List Loop × Nat × Tbl (BitVec 32)
  | [], next, lc => ([], next, lc)
  | l :: ls, next, lc =>
    if next ≠ l.exit then (l :: ls, next, lc)
    else
      let n := (tget 0 lc l.lc.toNat).toNat
      if n ≤ 1 then endOfLoop ls next (tset 0 lc l.lc.toNat 0)
      else (l :: ls, l.start, tset 0 lc l.lc.toNat (BitVec.ofNat 32 (n - 1)))

/-- Closes the loops, innermost first, whose body does not hold the target of a jump (R120). -/
def closeFor (target : Nat) : List Loop → List Loop
  | [] => []
  | l :: ls => if l.start ≤ target ∧ target < l.exit then l :: ls else closeFor target ls

/-- Control passes to `next`; at word 4,096 the engine faults with its PC where it stands (R108). -/
def passTo (s : State) (a : At) (next : Nat) : State :=
  if 4096 ≤ next then faultEngine s a 0x1004 else modEng s a (fun g => { g with pc := BitVec.ofNat 12 next })

/-- A jump, branch or JR is taken. -/
def jumpTo (s : State) (a : At) (target : Nat) : State :=
  modEng s a (fun g => { g with loops := closeFor target g.loops, pc := BitVec.ofNat 12 target })

/-- Control moves on: the end-of-loop test meets `next`, the word after the bundle (R118). -/
def moveOn (s : State) (a : At) (next : Nat) : State :=
  let g := getEng s a
  let (ls, next, lc) := endOfLoop g.loops next g.lc
  passTo (setEng s a { g with loops := ls, lc := lc }) a next

/-- Control falls through a bundle of `len` words. -/
def fallThrough (s : State) (a : At) (len : Nat) : State := moveOn s a ((getEng s a).pc.toNat + len)

/-- LOOP and LOOPI (R117): a count of 0 closes the loop at once and continues at the exit, where the loops around it are
    tested as at the end of any bundle (R118; DEDUCED, log entry 137). -/
def openLoop (s : State) (a : At) (len : Nat) (lc : BitVec 2) (exit : BitVec 12) (count : BitVec 32) : State :=
  let g := getEng s a
  let p := g.pc.toNat
  if count = 0 then moveOn (setEng s a (g.setLc lc 0)) a (p + exit.toNat)
  else
    fallThrough (setEng s a { g.setLc lc count with loops := ⟨lc, p + len, p + exit.toNat⟩ :: g.loops }) a len

/-- Slot 0 takes effect and control moves on (R109 step 4): a settled operation, with XA as the bundle read it. -/
def finish (s : State) (a : At) (len : Nat) (xa : Word) (c : Option Ctl) : State :=
  let g := getEng s a
  let p := g.pc.toNat
  match c with
  | some .endE => setEng s a { g with phase := .drain, loops := [] }
  | some (.j off) => jumpTo s a (branchTo p off).toNat
  | some (.jal xd off) => jumpTo (setEng s a (g.setX xd (BitVec.ofNat 64 (p + len)))) a (branchTo p off).toNat
  | some (.loop _ lc exit) => openLoop s a len lc exit (xa.setWidth 32)
  | some (.loopi lc exit count) => openLoop s a len lc exit count
  | some (.lcset _ lc) => fallThrough (setEng s a (g.setLc lc (xa.setWidth 32))) a len
  | some (.signal sem n) =>
    fallThrough (if n = 0 then s else semAdd s a.tile.toNat sem.toNat n.toNat) a len
  | some (.signalt sem n t) => fallThrough (token s t.toNat sem.toNat n.toNat) a len
  | some (.swapb target) => setEng s a { g with pc := target }
  | some (.trap code) => faultEngine (setEng s a { g with loops := [] }) a 0x10F0 0 (code.setWidth 64)
  | _ => fallThrough s a len

/-! ### Address generator slot (Table 4.6) -/

def actAgu (g : Engine) : Agu → Engine
  | .base n b => g.setGen n.toNat { (g.gen n.toNat).reset with base := b }
  | .dim n k c st =>
    let x := (g.gen n.toNat).reset
    let d : GenDim := { cntm1 := c, str := st }
    g.setGen n.toNat
      (match k.toNat with
       | 0 => { x with d0 := d }
       | 1 => { x with d1 := d }
       | 2 => { x with d2 := d }
       | _ => { x with d3 := d })
  | .step n k => g.setGen n.toNat ((g.gen n.toNat).steps k.toNat)
  | .rst n => g.setGen n.toNat (g.gen n.toNat).reset
  | .basex n xa => g.setGen n.toNat { (g.gen n.toNat).reset with base := (g.xr xa).setWidth 20 }

/-! ### Fabric addresses (R5, R301, R302) -/

/-- The module that a fabric address names, and the local physical address in it. -/
def faModule (a : Word) : Nat := fld a 63 48
def faLocal (a : Word) : Nat := fld a 47 0

/-- A module of this board (R301). -/
def onBoard (s : State) (m : Nat) : Bool :=
  m = moduleId s || (List.range 4).any (fun k => rf s aFabBoard (16 * k + 15) (16 * k) = m)

/-- The conditions that LDG and STG meet at a fabric address (R127, R303, R321, R328). -/
def scalarCodes (s : State) (a : Word) (k : FKind) : List Met :=
  let at_ := (a.toNat : Int)
  (if a.toNat % 8 = 0 then [] else [⟨0x2021, at_⟩]) ++
  (if faModule a = moduleId s then []
   else if !onBoard s (faModule a) then [⟨0x4010, at_⟩]
   else if startCode s (faModule a) k ≠ 0 then [⟨startCode s (faModule a) k, at_⟩] else [])

/-! ### Scalar slot (Table 4.7) -/

def sclMets (s : State) (a : At) (g : Engine) : Scl → List Met
  | .ldx _ o => rangeCodes a.eng.toNat false 8 (operandAddr g o) 8
  | .stx _ o => rangeCodes a.eng.toNat false 8 (operandAddr g o) 8
  | .ldg _ xa => scalarCodes s (g.xr xa) (.ld (faLocal (g.xr xa)))
  | .stg xa xb => scalarCodes s (g.xr xa) (.st (faLocal (g.xr xa)) (g.xr xb))
  | _ => []

def putX (s : State) (a : At) (r : BitVec 5) (v : Word) : State := modEng s a (fun g => g.setX r v)

def stepOperand (s : State) (a : At) (o : BitVec 8) : State := modEng s a (fun g => g.stepAll (operandSteps o))

/-- V folds the bytes of an STX into its signature (Table 17.6). -/
def stxSig (s : State) (a : At) (bs : List Byte) : State := if a.eng = 2 then sigFold s a bs else s

/-- An LDG or STG of this module's memory: the value, the code and the state. -/
def localLdg (s : State) (a : At) (fa : Word) : Word × Nat × State :=
  let (w, c, s) := read8 s (.engine a) (faLocal fa)
  let (bs, s) := smear s (getEng s a).writing (faLocal fa) (wordLE w)
  (BitVec.ofNat 64 (leNat bs), c, s)

def localStg (s : State) (a : At) (fa v : Word) : Nat × State := write8 s (.engine a) (faLocal fa) v

/-- The scalar slot takes effect, reading the registers of `g`. `ans` is the answer of an LDG or STG to another module. -/
def actScl (s : State) (a : At) (g : Engine) (ans : Option Word) : Scl → State
  | .r f d x y => putX s a d (aluR f (g.xr x) (g.xr y))
  | .i f d x imm => putX s a d (aluI f (g.xr x) imm)
  | .sh f d x n => putX s a d (aluSh f (g.xr x) n)
  | .movi d imm => putX s a d (imm.signExtend 64)
  | .movhi d imm => putX s a d (movhiVal (g.xr d) imm)
  | .rdlc d lc => putX s a d ((g.lcv lc).setWidth 64)
  | .agrd d n => putX s a d (BitVec.ofInt 64 (g.gen n.toNat).addr)
  | .ldx d o =>
    let (bs, s) := engRead s a (operandAddr g o).toNat 8
    stepOperand (putX s a d (BitVec.ofNat 64 (leNat bs))) a o
  | .stx b o =>
    let bs := wordLE (g.xr b)
    stepOperand (stxSig (localWrite s a.tile.toNat (operandAddr g o).toNat bs).2 a bs) a o
  | .ldg d x =>
    match ans with
    | some v => putX s a d v
    | none => putX (localLdg s a (g.xr x)).2.2 a d (localLdg s a (g.xr x)).1
  | .stg x y =>
    match ans with
    | some _ => s
    | none => (localStg s a (g.xr x) (g.xr y)).2

/-- The access of an LDG or STG to this module, tried: where it fails, its code and the state with its reports. -/
def triedScl (s : State) (a : At) (g : Engine) : Scl → Option (Met × State)
  | .ldg _ x =>
    let r := localLdg s a (g.xr x)
    if faModule (g.xr x) = moduleId s ∧ r.2.1 ≠ 0 then some (⟨r.2.1, (g.xr x).toNat⟩, r.2.2) else none
  | .stg x y =>
    let r := localStg s a (g.xr x) (g.xr y)
    if faModule (g.xr x) = moduleId s ∧ r.1 ≠ 0 then some (⟨r.1, (g.xr x).toNat⟩, r.2) else none
  | _ => none

/-- An LDG or STG to another module: the register it answers, the module, and the fabric operation. -/
def farScl (s : State) (g : Engine) : Scl → Option (BitVec 5 × Nat × FKind)
  | .ldg d x =>
    if faModule (g.xr x) = moduleId s then none else some (d, faModule (g.xr x), .ld (faLocal (g.xr x)))
  | .stg x y =>
    if faModule (g.xr x) = moduleId s then none else some (0, faModule (g.xr x), .st (faLocal (g.xr x)) (g.xr y))
  | _ => none

/-! ### V engine (Table 4.12, chapter 07) -/

def Tile.vr (x : Tile) (r : BitVec 5) : BitVec 2048 := tget 0 x.v r.toNat

/-- A vector result with its flags. -/
def vPend (d : BitVec 5) (r : BitVec 2048 × Flg) : OpOut := { pend := { v := [(d, r.1)], vec := r.2.vec } }

/-- What a vector operation comes to. -/
def vOut (s : State) (a : At) (o : Op) : OpOut × State :=
  let x := getTile s a.tile.toNat
  let g := getEng s a
  match o with
  | .valu d va vb ty fn => (vPend d (valuVal ty.toNat fn.toNat (x.vr d) (x.vr va) (x.vr vb)), s)
  | .vfma d va vb ty vc => (vPend d (vfmaVal ty.toNat (x.vr va) (x.vr vb) (x.vr vc)), s)
  | .vcmp d va vb ty fn => (vPend d (vcmpVal ty.toNat fn.toNat (x.vr va) (x.vr vb), {}), s)
  | .vlogic d va vb fn => (vPend d (vlogicVal fn.toNat (x.vr va) (x.vr vb), {}), s)
  | .vshift d va vb ty fn => (vPend d (vshiftVal ty.toNat fn.toNat (x.vr va) (x.vr vb), {}), s)
  | .vcvt d va ty fn => (vPend d (vcvtVal ty.toNat fn.toNat (x.vr d) (x.vr va)), s)
  | .vfn f d va ty => (vPend d (vfnVal f ty.toNat (x.vr va)), s)
  | .vred d va ty fn =>
    let r := vredVal ty.toNat fn.toNat (x.vr va)
    ({ pend := { x := [(d, r.1)], vec := r.2.vec } }, s)
  | .vbcast d xa ty => (vPend d (vbcastVal ty.toNat (g.xr xa), {}), s)
  | .vsel d va vb ty vc => (vPend d (vselVal ty.toNat (x.vr va) (x.vr vb) (x.vr vc), {}), s)
  | .vld d o =>
    let at_ := operandAddr g o
    let codes := rangeCodes 2 false 64 at_ 256
    if codes ≠ [] then ({ codes := codes }, s)
    else
      let (bs, s) := vldRead s a at_.toNat
      ({ pend := { v := [(d, BitVec.ofNat 2048 (leNat bs))], step := (operandSteps o).map (BitVec.ofNat 3) } }, s)
  | .vst r o =>
    let at_ := operandAddr g o
    let codes := rangeCodes 2 false 64 at_ 256
    if codes ≠ [] then ({ codes := codes }, s)
    else
      ({ pend := { mem := [(at_.toNat, natLE 256 (x.vr r).toNat)], step := (operandSteps o).map (BitVec.ofNat 3) }
         now := true }, s)
  | _ => ({}, s)

/-- What an operation of the C or V engine comes to. -/
def cvOut (s : State) (a : At) (o : Op) : OpOut × State :=
  match o with
  | .cmma oa ob acc clr f exact fd ks => cmmaOut s a oa ob acc clr f.toNat exact fd.toNat ks.toNat
  | .ccvt d acc f fd => ccvtOut s a d acc f.toNat fd.toNat
  | .csta d acc => cstaOut s a d acc
  | .clda x acc => cldaOut s a x acc
  | .czero acc => (czeroOut s a acc, s)
  | .canch n acc => (canchOut n acc, s)
  | .canchs x acc => canchsOut s a x acc
  | .cfin d fd rows => cfinOut s a d fd.toNat rows.toNat
  | o => vOut s a o

/-! ### Transfers (R113, R128 to R130, R302 to R304) -/

/-- The address register of a transfer names this module. -/
def xaHere (s : State) (loc : Bool) (xa : Word) : Bool := loc || faModule xa = moduleId s

/-- Bytes of the longest put or get (R304). -/
def maxPut : Nat := 1048575 * 512

/-- Source address of each row, its tile-local destination, its length. -/
abbrev Rows := List (Word × Nat × Nat)

/-- Rows packed from a tile-local address. -/
def packRows (dst n : Nat) : List Word → Rows
  | [] => []
  | w :: ws => (w, dst, n) :: packRows (dst + n) n ws

/-- Index words of an LGATH. -/
def idxWords (bs : List Byte) (k : Nat) : List Nat := (List.range k).map (fun i => leNat ((bs.drop (4 * i)).take 4))

/-- A transfer instruction's length is too great for another module. (DEDUCED, log entry 104.) -/
def longCodes (s : State) (loc : Bool) (xa : Word) (n : Nat) : List Met :=
  if !xaHere s loc xa && decide (maxPut < n) then [⟨0x100C, 0⟩] else []

/-- What the S engine's LPUSH meets (R130; DEDUCED, log entry 86). Its SRC, as LGATH's IDX, is no transfer end, so R122
    closes the instruction banks to it (DESIGN CHOICE, log entry 133). -/
def lpushMets (g : Engine) (o : BitVec 8) (xa : Word) : List Met :=
  rangeCodes 3 false 32 (operandAddr g o) 32 ++
  (match winAt (faLocal xa) with
   | some (_, 0) => if faModule xa = 0 then [] else [⟨0x100B, xa.toNat⟩]
   | _ => [⟨0x100B, xa.toNat⟩])

/-- What a transfer instruction meets. (DEDUCED, log entry 85.) -/
def xferMets (s : State) (g : Engine) : Op → List Met
  | .ldma d xa xn _ _ loc =>
    let n := (g.xr xn).toNat
    rangeCodes 0 true 1 (operandAddr g d) n ++ longCodes s loc (g.xr xa) n
  | .ldma2 d xa xn _ _ xr _ loc =>
    let n := (g.xr xn).toNat
    let k := (g.xr xr).toNat % 65536
    rangeCodes 0 true 1 (operandAddr g d) (k * n) ++ (if k = 0 then [] else longCodes s loc (g.xr xa) n)
  | .lgath d xa xn _ _ ix xc loc =>
    let n := (g.xr xn).toNat
    let k := (g.xr xc).toNat % 65536
    rangeCodes 0 true 1 (operandAddr g d) (k * n) ++
    (if k = 0 then [] else rangeCodes 0 false 1 (operandAddr g ix) (4 * k) ++ longCodes s loc (g.xr xa) n)
  | .sdma x xa xn _ _ _ _ _ loc =>
    let n := (g.xr xn).toNat
    rangeCodes 3 true 1 (operandAddr g x) n ++ longCodes s loc (g.xr xa) n
  | .msg x _ xn _ _ =>
    let n := (g.xr xn).toNat
    rangeCodes 3 true 1 (operandAddr g x) n ++ (if 512 < n then [⟨0x100C, 0⟩] else [])
  | .lpush x xa _ => lpushMets g x (g.xr xa)
  | _ => []

/-- An operation that counts among the 64 outstanding transfers. -/
def isXfer : Op → Bool
  | .ldma .. | .ldma2 .. | .lgath .. | .sdma .. | .msg .. => true
  | _ => false

/-- Adds a transfer to an engine: it and the running ones may read what the others write (R113). -/
def addXfer (s : State) (a : At) (x : Xfer) : State :=
  modEng s a (fun g =>
    { g with
      xfers := g.xfers.map (fun y => { y with dirty := y.dirty ++ x.dst }) ++
        [{ x with id := g.nextX, dirty := g.writing ++ x.dst }]
      nextX := g.nextX + 1 })

/-- Starts a get for each row from another module: how many started, the first code of one that did not, and its module. -/
def startGets (a : At) (xid : Nat) : Rows → State → Nat × (Nat × Nat) × State
  | [], s => (0, (0, 0), s)
  | (w, d, n) :: rest, s =>
    let (c, _, s) := startOp s (faModule w) (.get (faLocal w) (localPhys a.tile.toNat d) n) (.xfer a xid)
    let (k, c', s) := startGets a xid rest s
    (if c = 0 then k + 1 else k, if c = 0 then c' else (c, faModule w), s)

/-- Starts a load of rows: the rows of this module are copied at completion, the others are gets. -/
def startLoad (s : State) (a : At) (loc : Bool) (sem : BitVec 4) (tcnt : BitVec 8) (dst total : Nat) (rows : Rows) : State :=
  let here := rows.filter (fun r => xaHere s loc r.1)
  let far := rows.filter (fun r => !xaHere s loc r.1)
  let (k, c, s') := startGets a (getEng s a).nextX far s
  addXfer s' a
    { id := 0, kind := .load (here.map (fun r => (faLocal r.1, r.2.1, r.2.2))), sem := sem, tcnt := tcnt
      dst := [(localPhys a.tile.toNat dst, total)], left := k
      code := BitVec.ofNat 16 c.1, from_ := faultOrigin c.1 c.2 false }

/-- Starts a put or a message of the S engine in a flow. -/
def startSend (s : State) (a : At) (peer : Nat) (k : FKind) (sem : BitVec 4) (tcnt : BitVec 8) : State :=
  let (c, _, s') := startOp s peer k (.xfer a (getEng s a).nextX)
  addXfer s' a
    { id := 0, kind := if c = 0 then .remote else .failed, sem := sem, tcnt := tcnt
      left := if c = 0 then 1 else 0, code := BitVec.ofNat 16 c, from_ := faultOrigin c peer false }

/-- An LPUSH finds its queue FENCED, which completes with error (Table 3.3). -/
def lpushFenced (s : State) (a : At) (g : Engine) : Op → List Met
  | .lpush x xa _ =>
    match winAt (faLocal (g.xr xa)) with
    | some (w, _) =>
      let bs := localRead s a.tile.toNat (operandAddr g x).toNat 32
      if (winPush s w (wordAt bs 0) (wordAt bs 8) (wordAt bs 16) (wordAt bs 24) (some a)).1 = 6 then
        [⟨0x3010, (g.xr xa).toNat⟩]
      else []
    | none => []
  | _ => []

/-- LPUSH: XD takes the status. -/
def actLpush (s : State) (a : At) (g : Engine) (o : BitVec 8) (xa : Word) (xd : BitVec 5) : State :=
  let (bs, s) := engRead s a (operandAddr g o).toNat 32
  let s := sigFold s a bs
  match winAt (faLocal xa) with
  | some (w, _) =>
    let (st, s) := winPush s w (wordAt bs 0) (wordAt bs 8) (wordAt bs 16) (wordAt bs 24) (some a)
    stepOperand (putX s a xd (BitVec.ofNat 64 st)) a o
  | none => s

/-- The source bytes of a store or message go into the signature of a pair (R492). -/
def foldSource (s : State) (a : At) (src n : Nat) : State :=
  let (bs, s) := engRead s a src n
  sigFold s a bs

/-- An L or S engine's operation takes effect, reading the registers of `g`. -/
def actXfer (s : State) (a : At) (g : Engine) : Op → State
  | .ldma d xa xn sem tcnt loc =>
    let n := (g.xr xn).toNat
    let dst := (operandAddr g d).toNat
    stepOperand (startLoad s a loc sem tcnt dst n [(g.xr xa, dst, n)]) a d
  | .ldma2 d xa xn sem tcnt xr xs loc =>
    let n := (g.xr xn).toNat
    let k := (g.xr xr).toNat % 65536
    let dst := (operandAddr g d).toNat
    let rows := packRows dst n ((List.range k).map (fun r => g.xr xa + BitVec.ofNat 64 r * g.xr xs))
    stepOperand (startLoad s a loc sem tcnt dst (k * n) rows) a d
  | .lgath d xa xn sem tcnt ix xc loc =>
    let n := (g.xr xn).toNat
    let k := (g.xr xc).toNat % 65536
    let dst := (operandAddr g d).toNat
    let (bs, s) := if k = 0 then ([], s) else engRead s a (operandAddr g ix).toNat (4 * k)
    let rows := packRows dst n ((idxWords bs k).map (fun i => g.xr xa + BitVec.ofNat 64 (i * n)))
    stepOperand (stepOperand (startLoad s a loc sem tcnt dst (k * n) rows) a d) a ix
  | .sdma x xa xn sem tcnt rcnt rsem xt loc =>
    let n := (g.xr xn).toNat
    let src := (operandAddr g x).toNat
    let w := g.xr xa
    let rt := if rcnt = 0 then 0 else (g.xr xt).toNat % 8192
    let s := foldSource s a src n
    let s :=
      if xaHere s loc w then
        addXfer s a { id := 0, kind := .store src (faLocal w) n rcnt.toNat rsem.toNat rt, sem := sem, tcnt := tcnt
                      dst := [(faLocal w, n)] }
      else startSend s a (faModule w) (.put a.tile.toNat src (faLocal w) n rcnt.toNat rsem.toNat rt) sem tcnt
    stepOperand s a x
  | .msg x xa xn sem tcnt =>
    let n := (g.xr xn).toNat
    let src := (operandAddr g x).toNat
    let w := g.xr xa
    let s := foldSource s a src n
    stepOperand (startSend s a (faModule w) (.msg a.tile.toNat src (fld w 15 0) n) sem tcnt) a x
  | .lpush x xa xd => actLpush s a g x (g.xr xa) xd
  | _ => s

/-! ### Issue (R109) -/

/-- A bundle's operation belongs to the L or S engine. -/
def isLS (o : Op) : Bool := opEngine o = 0 || opEngine o = 3

/-- The OP slot of a bundle: what it meets, and its effect on the state that its reads have left. -/
def opMets (s : State) (a : At) (o : Op) : List Met × OpOut × State :=
  if isLS o then (xferMets s (getEng s a) o, {}, s)
  else
    let (out, s) := cvOut s a o
    (out.codes, out, s)

/-- Draws that an undefined accumulator and its flags take. -/
def spoilDraws : Nat := 64 * 16 + 1

/-- A CMMA whose operands were undefined: its elements and its flags are free, `k` draws on (R219). -/
def spoilPend (s : State) (k : Nat) (p : Pend) : Pend :=
  let el (vl : Bool) : List (BitVec 128) :=
    (List.range 64).map (fun i => if vl then freeBits s (k + 16 * i) 128 else (freeBits s (k + 16 * i) 32).setWidth 128)
  let f : BitVec 8 := freeBits s (k + 1024) 8
  { p with
    acc := p.acc.map (fun r => (r.1, { r.2 with el := listTbl 0 (el r.2.vl) }))
    cub := ({ nan := f.getLsbD 0, inf := f.getLsbD 1, ovf := f.getLsbD 2 : Flg }).cub ((p.acc.map (fun r => r.1.toNat)).headD 0) }

/-- Two lists of tile-local ranges share a byte. -/
def rangesShare (xs ys : List (Nat × Nat)) : Bool :=
  xs.any (fun x => ys.any (fun y => decide (x.1 < y.1 + y.2) && decide (y.1 < x.1 + x.2)))

/-- Spoils the pending CMMAs that read one of some ranges. -/
def spoilPends (s : State) (rs : List (Nat × Nat)) : Nat → List Pend → List Pend
  | _, [] => []
  | k, p :: ps => (if rangesShare rs p.reads then spoilPend s k p else p) :: spoilPends s rs (k + spoilDraws) ps

/-- A VST to bytes that a CMMA is reading as an operand gives that CMMA undefined operands (R219). -/
def spoilCube (s : State) (a : At) (rs : List (Nat × Nat)) : State :=
  let c : At := ⟨a.tile, 1⟩
  let ps := (getEng s c).results
  if a.eng = 2 && ps.any (fun p => rangesShare rs p.reads) then
    drawn (modEng s c (fun g => { g with results := spoilPends s rs 0 ps })) (spoilDraws * ps.length)
  else s

/-- A pending result is written now or later. (DEDUCED, log entry 61.) -/
def addPend (s : State) (a : At) (out : OpOut) : State :=
  if out.now then applyPend (spoilCube s a (out.pend.mem.map (fun m => (m.1, m.2.length)))) a out.pend
  else modEng s a (fun g => { g with results := g.results ++ [out.pend] })

def actOp (s : State) (a : At) (g : Engine) (out : OpOut) (o : Op) : State :=
  if isLS o then actXfer s a g o else addPend s a out

/-- Slots 1, 2 and 3 take effect, every one reading the engine as it stood in `g`. (DEDUCED, log entry 23.) -/
def actSlots (s : State) (a : At) (g : Engine) (out : OpOut) (ans : Option Word) (b : Bundle) : State :=
  let s :=
    match b.agu with
    | some x => setEng s a (actAgu g x)
    | none => s
  let s :=
    match b.op with
    | some o => actOp s a g out o
    | none => s
  match b.scl with
  | some x => actScl s a g ans x
  | none => s

/-- An engine that goes on with no bundle held. -/
def Engine.go (g : Engine) : Engine := { g with phase := .run, held := none, full := false, answer := none, plan := none }

/-- The bundle waits: it is held, and nothing of it acts. -/
def holdBundle (s : State) (a : At) (b : Bundle) (ph : Phase) (full : Bool) : State :=
  modEng s a (fun g => { g with phase := ph, held := some b, full := full })

/-- The bundle meets a fault condition: it has no effect (R140). A TRAP's CODE goes with 0x1_0F0. -/
def meetFault (s : State) (a : At) (b : Bundle) (m : Met) : State :=
  faultEngine s a m.code (BitVec.ofInt 64 m.addr)
    (match b.ctl with
     | some (.trap code) => if m.code = 0x10F0 then code.setWidth 64 else 0
     | _ => 0)
    (faultOrigin m.code (faModule (BitVec.ofInt 64 m.addr)) false)

/-- TRAP stands among a bundle's conditions where there is another (R140). -/
def trapMets (b : Bundle) (ms : List Met) : List Met :=
  match b.ctl with
  | some (.trap _) => if ms.isEmpty then [] else [⟨0x10F0, 0⟩]
  | _ => []

/-- A transfer instruction finds 64 outstanding (R113). (DESIGN CHOICE, log entry 87.) -/
def xfersFull (g : Engine) (b : Bundle) : Bool :=
  match b.op with
  | some o => isXfer o && decide (64 ≤ g.xfers.length)
  | none => false

/-- The conditions of a bundle that its operands and accesses show: those it meets, its operation's effect, and the state
    that finding them leaves. An LDG or STG makes its access only where the bundle meets nothing else (R140). -/
def bundleMets (s : State) (a : At) (b : Bundle) (ans : Option Word) : List Met × OpOut × State :=
  let g := getEng s a
  let (ms, out, s') :=
    match b.op with
    | some o => opMets s a o
    | none => ([], {}, s)
  let fenced := ((b.op.map (lpushFenced s a g)).getD [])
  let scl := if ans.isSome then none else b.scl
  let ms := ms ++ fenced ++ ((scl.map (sclMets s a g)).getD [])
  match if ms.isEmpty then scl.bind (triedScl s a g) else none with
  | some (m, s'') => ([m], out, s'')
  | none => (ms, out, s')

/-- An addition to a semaphore releases: every write of its engine to tile memory before it is there, those of the same bundle's
    other slots among them (R84, R109). -/
def landWrites (s : State) (a : At) : Option Ctl → State
  | some (.signal _ _) => popPends a (pendCount { mem := true } (getEng s a).results) s
  | some (.signalt _ _ _) => popPends a (pendCount { mem := true } (getEng s a).results) s
  | _ => s

/-- All slots take effect (R109 steps 2 to 4); the state is one that `bundleMets` has left. -/
def actBundle (s : State) (a : At) (b : Bundle) (out : OpOut) (ans : Option Word) : State :=
  let g := getEng s a
  finish (landWrites (actSlots s a g out ans b) a b.ctl) a (bundleLen b) ((b.ctl.map (ctlXaOf g)).getD 0) (b.ctl.map (settleCtl g))

/-- The bundle has issued and waits for the answer of its LDG or STG from another module; nothing of it acts before that. What
    its C or V operation comes to stands from its issue (R173). -/
def holdAnswer (s : State) (a : At) (b : Bundle) (out : OpOut) (f : BitVec 5 × Nat × FKind) : State :=
  let (_, uid, s) := startOp s f.2.1 f.2.2 (.scalar a)
  let plan := if b.op.any (fun o => !isLS o) then some (out.pend, out.now) else none
  modEng s a (fun g => { g with phase := .streamWait, held := some b, answer := some (f.1, uid), plan := plan })

/-- WAIT takes what it waited for. -/
def takeWait (s : State) (a : At) (b : Bundle) : State :=
  match b.ctl with
  | some (.wait sem n) => (takeSem s a.tile.toNat a.eng.toNat sem.toNat n.toNat).getD s
  | _ => s

/-- The waits are over but for WAIT's own: the bundle's dynamic faults, its WAIT, and its effects. -/
def issueNow (s : State) (a : At) (b : Bundle) : State :=
  let (ms, out, s') := bundleMets s a b none
  match lowestMet (ms ++ trapMets b ms) with
  | some m => meetFault s' a b m
  | none =>
    let g := getEng s a
    match b.scl.bind (farScl s g) with
    | some f => holdAnswer (modEng (takeWait s' a b) a Engine.go) a b out f
    | none => actBundle (modEng (takeWait s' a b) a Engine.go) a b out none

/-- The control slot's wait is satisfied; GBAR and SWAPB are satisfied by their own commands. -/
def ctlReady (s : State) (a : At) : Option Ctl → Bool
  | some (.wait sem n) => (takeSem s a.tile.toNat a.eng.toNat sem.toNat n.toNat).isSome
  | some .gbar => (groupOf s a.tile.toNat).isNone
  | some (.swapb _) => false
  | some .drain => (getEng s a).xfers.isEmpty
  | _ => true

/-- Results that a bundle conflicts with are written (R111); encoding and control faults are met; else `k` follows.
    `extra` holds conditions that fetching found, by the header's own length (R105, R108). -/
def checked (s : State) (a : At) (b : Bundle) (extra : List Nat) (k : State → State) : State :=
  let streams := ((b.op.map (opStreams s a.tile.toNat)).getD [])
  let s := popPends a (pendCount (bundleUse streams b) (getEng s a).results) s
  let g := getEng s a
  let len := bundleLen b
  let codes :=
    extra ++ bundleStatic a.eng.toNat b ++ (if extra.isEmpty ∧ 4096 < g.pc.toNat + len then [0x1004] else []) ++
    conflictCodes streams b ++ ((b.ctl.map (ctlCodes g len)).getD [])
  match lowestMet (mets codes) with
  | some m => meetFault s a b m
  | none => k s

/-- The HBM of this module that a bundle's LDG or STG reads or writes. -/
def sclSpans (s : State) (g : Engine) (b : Bundle) : List (Nat × Nat) :=
  let at_ (w : Word) : List (Nat × Nat) := if faModule w = moduleId s then memSpan (faLocal w) 8 else []
  match b.scl with
  | some (.ldg _ x) => at_ (g.xr x)
  | some (.stg x _) => at_ (g.xr x)
  | _ => []

/-- An engine issues a bundle: its checks, then its waits, that of an LDG or STG for a channel that retrains among them (R268),
    then the rest. (DESIGN CHOICE, log entry 9.) (DEDUCED, log entry 11) -/
def issue (s : State) (a : At) (b : Bundle) (extra : List Nat) : State :=
  checked s a b extra (fun s =>
    if xfersFull (getEng s a) b then holdBundle s a b .streamWait true
    else if !ctlReady s a b.ctl then
      holdBundle s a b (match b.ctl with
                        | some (.swapb _) => .swapbWait
                        | _ => .streamWait) false
    else if heldBack s (sclSpans s (getEng s a) b) then
      holdWork (holdBundle s a b .streamWait false) (sclSpans s (getEng s a) b) (.bundle a)
    else issueNow s a b)

/-- The engine can issue: it runs, holds no bundle, and its tile's clock runs. -/
def mayIssue (s : State) (a : At) : Bool :=
  let g := getEng s a
  decide (g.phase = .run) && g.held.isNone && tileRuns s a.tile.toNat

/-- A bundle command. -/
def runBundle (a : At) (b : Bundle) (s : State) : Host.Outcome State Fault Refusal :=
  .next (if mayIssue s a then issue s a b [] else s)

/-- The held bundle of an engine tries again. -/
def retry (s : State) (a : At) : State :=
  let g := getEng s a
  match g.held with
  | none => s
  | some b =>
    if g.answer.isSome ∨ !tileRuns s a.tile.toNat then s
    else issue (setEng s a g.go) a b []

/-- A held bundle whose GBAR or SWAPB is satisfied goes on; what it meets now counts (R140, R176). -/
def release (s : State) (a : At) : State :=
  match (getEng s a).held with
  | none => s
  | some b => checked s a b [] (fun s => issueNow s a b)

/-- The answer of an LDG or STG arrives: XD takes the data, and the bundle takes effect: its C or V operation as it stood at the
    issue (R173, R176), its L or S operation now. -/
def answerScalar (s : State) (a : At) (v : Word) : State :=
  let g := getEng s a
  match g.held, g.answer with
  | some b, some _ =>
    match g.plan with
    | some (p, now) => actBundle (modEng s a Engine.go) a b { pend := p, now := now } (some v)
    | none =>
    let (ms, out, s') := bundleMets s a b (some v)
    match lowestMet (ms ++ trapMets b ms) with
    | some m => meetFault (giveBack s' a) a b m
    | none => actBundle (modEng s' a Engine.go) a b out (some v)
  | _, _ => s

end Sys2Proof.Machine
end

