-- ==== Sys2Proof/Machine/Fetch.lean ====
section
/-! DEFINITION. Fetching a bundle from the active bank and decoding it (R104 to R108, R131, Tables 4.1 to 4.12). -/

namespace Sys2Proof.Machine

/-! ### Words -/

/-- Word `i` of a tile's active bank. -/
def bankWord (s : State) (t i : Nat) : BitVec 32 := BitVec.ofNat 32 (rdLE s.mem (activeBank s t + 4 * i) 4)

/-- Bits [hi:lo] of an instruction word, as a field of the width that its use asks for. -/
def cut (n : Nat) (w : BitVec 32) (lo : Nat) : BitVec n := BitVec.ofNat n (w.toNat / 2 ^ lo)

/-- A reserved field, bits [hi:lo], is not 0. -/
def dirty (w : BitVec 32) (hi lo : Nat) : Bool := w.toNat / 2 ^ lo % 2 ^ (hi + 1 - lo) ≠ 0

def opc (w : BitVec 32) : Nat := w.toNat / 2 ^ 24

/-- What a slot decodes to: its operation, whether it is 64 bits wide, and whether a reserved field is not 0. -/
structure Slot (α : Type) where
  op   : α
  wide : Bool := false
  bad  : Bool := false

/-! ### Control slot (Table 4.3) -/

def decodeCmp : Nat → Option Cmp
  | 0x08 => some .eq | 0x09 => some .ne | 0x0A => some .lt | 0x0B => some .ge | 0x0C => some .ltu | 0x0D => some .geu
  | _ => none

def decodeCtl (w v : BitVec 32) : Option (Slot Ctl) :=
  match opc w with
  | 0x01 => some { op := .endE, bad := dirty w 23 0 }
  | 0x02 => some { op := .j (cut 13 w 0), bad := dirty w 23 13 }
  | 0x03 => some { op := .jal (cut 5 w 19) (cut 13 w 0), bad := dirty w 18 13 }
  | 0x04 => some { op := .jr (cut 5 w 19), bad := dirty w 18 0 }
  | 0x10 => some { op := .loop (cut 5 w 19) (cut 2 w 12) (cut 12 w 0), bad := dirty w 18 14 }
  | 0x11 => some { op := .loopi (cut 2 w 12) (cut 12 w 0) v, wide := true, bad := dirty w 23 14 }
  | 0x12 => some { op := .lcset (cut 5 w 19) (cut 2 w 12), bad := dirty w 18 14 || dirty w 11 0 }
  | 0x18 => some { op := .wait (cut 4 w 20) (cut 8 w 12), bad := dirty w 11 0 }
  | 0x19 => some { op := .signal (cut 4 w 20) (cut 8 w 12), bad := dirty w 11 0 }
  | 0x1A =>
    some { op := .signalt (cut 4 w 20) (cut 8 w 12) (cut 13 v 0), wide := true, bad := dirty w 11 0 || dirty v 31 13 }
  | 0x1B => some { op := .drain, bad := dirty w 23 0 }
  | 0x1C => some { op := .gbar, bad := dirty w 23 0 }
  | 0x20 => some { op := .swapb (cut 12 w 0), bad := dirty w 23 12 }
  | 0x21 => some { op := .trap (cut 16 w 0), bad := dirty w 23 16 }
  | n =>
    match decodeCmp n with
    | some c => some { op := .br c (cut 5 w 19) (cut 5 w 14) (cut 13 w 0), bad := dirty w 13 13 }
    | none => none

/-! ### Address generator slot (Table 4.6) -/

def decodeAgu (w v : BitVec 32) : Option (Slot Agu) :=
  match opc w with
  | 0x01 => some { op := .base (cut 3 w 21) (cut 20 w 0), bad := dirty w 20 20 }
  | 0x02 =>
    some { op := .dim (cut 3 w 21) (cut 2 w 19) (cut 16 w 0) (cut 24 v 0), wide := true
           bad := dirty w 18 16 || dirty v 31 24 }
  | 0x03 => some { op := .step (cut 3 w 21) (cut 16 w 0), bad := dirty w 20 16 }
  | 0x04 => some { op := .rst (cut 3 w 21), bad := dirty w 20 0 }
  | 0x05 => some { op := .basex (cut 3 w 21) (cut 5 w 14), bad := dirty w 20 19 || dirty w 13 0 }
  | _ => none

/-! ### Scalar slot (Table 4.7) -/

def decodeAluR : Nat → Option AluR
  | 0x01 => some .add | 0x02 => some .sub | 0x03 => some .and | 0x04 => some .or | 0x05 => some .xor
  | 0x06 => some .shl | 0x07 => some .shr | 0x08 => some .sra | 0x09 => some .mul | 0x0A => some .slt
  | 0x0B => some .sltu | 0x0C => some .min | 0x0D => some .max | _ => none

def decodeAluI : Nat → Option AluI
  | 0x11 => some .addi | 0x13 => some .andi | 0x14 => some .ori | 0x15 => some .xori | _ => none

def decodeShI : Nat → Option ShI
  | 0x16 => some .shli | 0x17 => some .shri | 0x18 => some .srai | _ => none

/-- The opcodes of the scalar slot that compute from registers alone. -/
def decodeAlu (w : BitVec 32) : Option (Slot Scl) :=
  match decodeAluR (opc w), decodeAluI (opc w), decodeShI (opc w) with
  | some f, _, _ => some { op := .r f (cut 5 w 19) (cut 5 w 14) (cut 5 w 9), bad := dirty w 8 0 }
  | _, some f, _ => some { op := .i f (cut 5 w 19) (cut 5 w 14) (cut 14 w 0) }
  | _, _, some f => some { op := .sh f (cut 5 w 19) (cut 5 w 14) (cut 6 w 0), bad := dirty w 13 6 }
  | _, _, _ => none

def decodeScl (w v : BitVec 32) : Option (Slot Scl) :=
  match opc w with
  | 0x20 => some { op := .movi (cut 5 w 19) v, wide := true, bad := dirty w 18 0 }
  | 0x21 => some { op := .movhi (cut 5 w 19) v, wide := true, bad := dirty w 18 0 }
  | 0x28 => some { op := .rdlc (cut 5 w 19) (cut 2 w 12), bad := dirty w 18 14 || dirty w 11 0 }
  | 0x29 => some { op := .agrd (cut 5 w 19) (cut 3 w 14), bad := dirty w 18 17 || dirty w 13 0 }
  | 0x30 => some { op := .ldx (cut 5 w 19) (cut 8 w 8), bad := dirty w 18 16 || dirty w 7 0 }
  | 0x31 => some { op := .stx (cut 5 w 19) (cut 8 w 8), bad := dirty w 18 16 || dirty w 7 0 }
  | 0x32 => some { op := .ldg (cut 5 w 19) (cut 5 w 14), bad := dirty w 13 0 }
  | 0x33 => some { op := .stg (cut 5 w 14) (cut 5 w 9), bad := dirty w 23 19 || dirty w 8 0 }
  | _ => decodeAlu w

/-! ### Operation slots (Tables 4.8 to 4.12) -/

def decodeL (w v : BitVec 32) : Option (Slot Op) :=
  match opc w with
  | 0x01 =>
    some { op := .ldma (cut 8 w 16) (cut 5 w 11) (cut 5 w 6) (cut 4 w 2) (cut 8 v 24) (v.getLsbD 0), wide := true
           bad := dirty w 1 0 || dirty v 23 1 }
  | 0x02 =>
    some { op := .ldma2 (cut 8 w 16) (cut 5 w 11) (cut 5 w 6) (cut 4 w 2) (cut 8 v 24) (cut 5 v 16) (cut 5 v 11) (v.getLsbD 0)
           wide := true, bad := dirty w 1 0 || dirty v 23 21 || dirty v 10 1 }
  | 0x03 =>
    some { op := .lgath (cut 8 w 16) (cut 5 w 11) (cut 5 w 6) (cut 4 w 2) (cut 8 v 24) (cut 8 v 16) (cut 5 v 11) (v.getLsbD 0)
           wide := true, bad := dirty w 1 0 || dirty v 10 1 }
  | _ => none

def decodeS (w v : BitVec 32) : Option (Slot Op) :=
  match opc w with
  | 0x01 =>
    some { op := .sdma (cut 8 w 16) (cut 5 w 11) (cut 5 w 6) (cut 4 w 2) (cut 8 v 24) (cut 8 v 16) (cut 4 v 12) (cut 5 v 7)
                   (v.getLsbD 0)
           wide := true, bad := dirty w 1 0 || dirty v 6 1 }
  | 0x02 =>
    some { op := .msg (cut 8 w 16) (cut 5 w 11) (cut 5 w 6) (cut 4 w 2) (cut 8 v 24), wide := true
           bad := dirty w 1 0 || dirty v 23 0 }
  | 0x03 => some { op := .lpush (cut 8 w 16) (cut 5 w 11) (cut 5 w 6), bad := dirty w 5 0 }
  | _ => none

def decodeC (w v : BitVec 32) : Option (Slot Op) :=
  match opc w with
  | 0x01 =>
    some { op := .cmma (cut 8 w 16) (cut 8 w 8) (cut 3 w 5) (w.getLsbD 4) (cut 4 w 0) (v.getLsbD 20) (cut 4 v 16) (cut 16 v 0)
           wide := true, bad := dirty v 31 21 }
  | 0x02 =>
    some { op := .ccvt (cut 8 w 16) (cut 3 w 5) (cut 4 w 0) (cut 4 v 16), wide := true
           bad := dirty w 15 8 || dirty w 4 4 || dirty v 31 20 || dirty v 15 0 }
  | 0x03 => some { op := .csta (cut 8 w 16) (cut 3 w 5), bad := dirty w 15 8 || dirty w 4 0 }
  | 0x04 => some { op := .clda (cut 8 w 16) (cut 3 w 5), bad := dirty w 15 8 || dirty w 4 0 }
  | 0x05 => some { op := .czero (cut 3 w 5), bad := dirty w 23 8 || dirty w 4 0 }
  | 0x06 => some { op := .canch (cut 9 w 8) (cut 3 w 5), bad := dirty w 23 17 || dirty w 4 0 }
  | 0x07 => some { op := .canchs (cut 8 w 16) (cut 3 w 5), bad := dirty w 15 8 || dirty w 4 0 }
  | 0x08 =>
    some { op := .cfin (cut 8 w 16) (cut 4 v 16) (cut 16 v 0), wide := true, bad := dirty w 15 0 || dirty v 31 20 }
  | _ => none

/-- VFN's function, or a reserved FN. -/
def decodeVFn : Nat → Option VFn
  | 0 => some .exp2 | 1 => some .log2 | 2 => some .reciprocal | 3 => some .rsqrt | 4 => some .sigmoid | _ => none

/-- The V slot (Tables 4.8 and 4.12). The spec gives VBCAST no FN and does not call its FN bits reserved: they are not looked at
    (DESIGN CHOICE, log entry 155). -/
def decodeV (w v : BitVec 32) : Option (Slot Op) :=
  let vd := cut 5 w 19
  let va := cut 5 w 14
  let vb := cut 5 w 9
  let ty := cut 3 w 6
  let fn := cut 6 w 0
  match opc w with
  | 0x01 => some { op := .valu vd va vb ty fn }
  | 0x02 => some { op := .vfma vd va vb ty (cut 5 v 0), wide := true, bad := dirty w 5 0 || dirty v 31 5 }
  | 0x03 => some { op := .vcmp vd va vb ty fn }
  | 0x04 => some { op := .vlogic vd va vb fn, bad := dirty w 8 6 }
  | 0x05 => some { op := .vshift vd va vb ty fn }
  | 0x06 => some { op := .vcvt vd va ty fn, bad := dirty w 13 9 }
  | 0x07 => some { op := .vfn ((decodeVFn fn.toNat).getD .exp2) vd va ty, bad := dirty w 13 9 }
  | 0x08 => some { op := .vred vd va ty fn, bad := dirty w 13 9 }
  | 0x09 => some { op := .vbcast vd va ty, bad := dirty w 13 9 }
  | 0x0A => some { op := .vsel vd va vb ty (cut 5 v 0), wide := true, bad := dirty w 5 0 || dirty v 31 5 }
  | 0x10 => some { op := .vld vd (cut 8 w 8), bad := dirty w 18 16 || dirty w 7 0 }
  | 0x11 => some { op := .vst vd (cut 8 w 8), bad := dirty w 18 16 || dirty w 7 0 }
  | _ => none

def decodeOp (eng : Nat) (w v : BitVec 32) : Option (Slot Op) :=
  match eng with
  | 0 => decodeL w v
  | 1 => decodeC w v
  | 2 => decodeV w v
  | _ => decodeS w v

/-- A VFN with a reserved FN (0x1_00A). -/
def badVFn (eng : Nat) (w : BitVec 32) : Bool := eng = 2 && opc w = 0x07 && (decodeVFn (w.toNat % 64)).isNone

/-! ### The bundle -/

/-- Codes 0x1_005 to 0x1_007 of a slot, and its operation. -/
def slotOf {α : Type} (wide : Bool) (d : Option (Slot α)) : List Nat × Option α :=
  match d with
  | none => ([0x1005], none)
  | some x => ((if x.wide = wide then [] else [0x1006]) ++ (if x.bad then [0x1007] else []), some x.op)

def hLen (h : BitVec 32) : Nat := h.toNat / 2 ^ 26 % 16
def hMask (h : BitVec 32) : Nat := h.toNat / 2 ^ 22 % 16
def hWide (h : BitVec 32) : Nat := h.toNat / 2 ^ 18 % 16

/-- Codes 0x1_001 to 0x1_004 of a header at `pc` (R105, R108). -/
def headerCodes (eng pc : Nat) (h : BitVec 32) : List Nat :=
  (if hLen h = 0 ∨ 9 < hLen h ∨ hLen h ≠ 1 + popcount 4 (hMask h) + popcount 4 (hWide h) then [0x1001] else []) ++
  (if dirty h 17 0 ∨ hWide h &&& (15 - hMask h) ≠ 0 then [0x1002] else []) ++
  (if h.toNat / 2 ^ 30 ≠ eng then [0x1003] else []) ++
  (if 4096 < pc + hLen h then [0x1004] else [])

/-- Words before slot `i` in a bundle, the header among them. -/
def slotOffset (h : BitVec 32) (i : Nat) : Nat := 1 + popcount i (hMask h) + popcount i (hWide h)

/-- The fault conditions that a bundle's words show, and the bundle. -/
def decodeBundle (eng pc : Nat) (word : Nat → BitVec 32) : List Nat × Bundle :=
  let h := word pc
  let hc := headerCodes eng pc h
  if hc ≠ [] then (hc, {})
  else
    let has (i : Nat) : Bool := (hMask h).testBit i
    let wide (i : Nat) : Bool := (hWide h).testBit i
    let w (i : Nat) : BitVec 32 := word (pc + slotOffset h i)
    let v (i : Nat) : BitVec 32 := if wide i then word (pc + slotOffset h i + 1) else 0
    let (c0, x0) := if has 0 then slotOf (wide 0) (decodeCtl (w 0) (v 0)) else ([], none)
    let (c1, x1) := if has 1 then slotOf (wide 1) (decodeAgu (w 1) (v 1)) else ([], none)
    let (c2, x2) := if has 2 then slotOf (wide 2) (decodeOp eng (w 2) (v 2)) else ([], none)
    let (c3, x3) := if has 3 then slotOf (wide 3) (decodeScl (w 3) (v 3)) else ([], none)
    let c4 := if has 2 && badVFn eng (w 2) then [0x100A] else []
    (c0 ++ c1 ++ c2 ++ c3 ++ c4, { ctl := x0, agu := x1, op := x2, scl := x3 })

/-- The engine fetches the bundle at its PC and issues it. -/
def fetchIssue (s : State) (a : At) : State :=
  let t := a.tile.toNat
  let (codes, b) := decodeBundle a.eng.toNat (getEng s a).pc.toNat (fun i => bankWord s t i)
  issue s a b codes

/-- EMPTY_BUNDLE: the engine issues what stands at its PC; with MASK = 0 and LEN = 1 that does nothing but pass
    control, with an invalid header it faults (R105, R107, R108). -/
def execEmptyBundle (a : At) (s : State) : Host.Outcome State Fault Refusal :=
  .next (if mayIssue s a then fetchIssue s a else s)

end Sys2Proof.Machine
end

