-- ==== Sys2Proof/Machine/Stream.lean ====
section
/-! DEFINITION. The commands of chapters 03 to 07 that are a bundle's issue or the end of a wait: each instruction is the
issue of a bundle that holds it, with whatever its other slots hold. -/

namespace Sys2Proof.Machine

/-! ### Transfers complete (R113, R129) -/

/-- Reads the rows of a load: nothing of it moves where one of them fails (DESIGN CHOICE, log entry 16). -/
def readLoad (a : At) (x : Xfer) : List (Nat × Nat × Nat) → State → List (Nat × List Byte) × Nat × State
  | [], s => ([], 0, s)
  | (src, dst, n) :: rest, s =>
    if n = 0 then readLoad a x rest s
    else
      let (bs, c, s) := loadRead s (.engine a) src n
      if c ≠ 0 then ([], c, s)
      else
        let (bs, s) := xferBytes s x src bs
        let (rows, c, s) := readLoad a x rest s
        ((dst, bs) :: rows, c, s)

/-- Writes rows to the tile: 0x1_0A0 where some byte was dropped (R133). -/
def writeLoad (t : Nat) : List (Nat × List Byte) → State → Nat × State
  | [], s => (0, s)
  | (dst, bs) :: rest, s =>
    let (c, s) := localWrite s t dst bs
    let (c', s) := writeLoad t rest s
    (if c = 0 then c' else c, s)

/-- What a transfer moves as it completes: its code. (DESIGN CHOICE, log entry 5.) -/
def runXfer (s : State) (a : At) (x : Xfer) : Nat × State :=
  let t := a.tile.toNat
  match x.kind with
  | .load rows =>
    if x.code ≠ 0 then (x.code.toNat, s)
    else
      let (rs, c, s) := readLoad a x rows s
      if c ≠ 0 then (c, s) else writeLoad t rs s
  | .store src dst len rcnt rsem rtile =>
    let (bs, s) := xferBytes s x (localPhys t src) (localRead s t src len)
    let (c, s) := if len = 0 then (0, s) else storeWrite s (.engine a) dst bs
    if c ≠ 0 ∨ rcnt = 0 then (c, s) else (tokenCode s rtile rcnt, token s rtile rsem rcnt)
  | _ => (x.code.toNat, s)

/-- The address a transfer's error concerns: its place outside the tile. -/
def Xfer.addr (x : Xfer) : Word :=
  match x.kind with
  | .load ((src, _, _) :: _) => BitVec.ofNat 64 src
  | .store _ dst _ _ _ _ => BitVec.ofNat 64 dst
  | _ => 0

/-- The completion token, which an abort discards (R98, R129). -/
def xferToken (s : State) (a : At) (x : Xfer) : State :=
  if x.discard then s else token s a.tile.toNat x.sem.toNat x.tcnt.toNat

/-- An engine that a transfer's error still reaches. -/
def errorReaches (x : Xfer) (g : Engine) : Bool :=
  !x.discard && g.phase ≠ .faulted && g.phase ≠ .aborting

/-- The held bundle waits for a transfer to complete: for room, or at DRAIN. -/
def waitsXfer (g : Engine) : Bool :=
  match g.held with
  | some b => g.full || decide (b.ctl = some .drain)
  | none => false

/-- The HBM that a transfer's local bytes come from or go to. -/
def Xfer.spans (s : State) (a : At) (x : Xfer) : List (Nat × Nat) :=
  match x.kind with
  | .load rows => rows.flatMap (fun r => memSpan r.1 r.2.2)
  | .store src dst len _ _ _ =>
    if inWindow dst len then recordSpans (localRead s a.tile.toNat src len) else memSpan dst len
  | _ => []

/-- A transfer of an engine has completed. It can not while a channel that its bytes go by retrains (R268). -/
def completeXfer (s : State) (a : At) (xid : Nat) : State :=
  match (getEng s a).xfers.find? (fun x => x.id = xid) with
  | none => s
  | some x =>
    if x.left ≠ 0 then s
    else if heldBack s (x.spans s a) then callTiles s (x.spans s a)
    else
      let (c, s) := runXfer s a x
      let s := modEng s a (fun g => { g with xfers := g.xfers.filter (fun y => y.id ≠ xid) })
      let s := xferToken s a x
      if c ≠ 0 ∧ errorReaches x (getEng s a) then faultEngine s a c x.addr 0 (if c = x.code.toNat then x.from_ else (0, false))
      else
        if waitsXfer (getEng s a) then retry s a else s

/-! ### Entries, waits, barriers, banks -/

/-- An ended entry signals, and the engine takes the next (R74 step 4). -/
def signalEntry (s : State) (a : At) : State :=
  let g := getEng s a
  match g.running with
  | none => s
  | some x =>
    if g.phase ≠ .drain ∨ !g.xfers.isEmpty ∨ !tileRuns s a.tile.toNat then s
    else
      let s := flushPends s a
      let n := fld x.w0 43 36
      let s := if n = 0 then s else semAdd s a.tile.toNat (fld x.w0 47 44) n
      pairComplete (modEng s a (fun g => { g with running := none, phase := .idle })) a

/-- An in-stream wait is granted (R82, R83). -/
def grantWait (s : State) (a : At) : State :=
  let g := getEng s a
  match g.phase, pendingWait g with
  | .streamWait, some (sem, n) =>
    if tileRuns s a.tile.toNat ∧ (takeSem s a.tile.toNat a.eng.toNat sem n).isSome then retry s a else s
  | _, _ => s

/-- Every member of a group waits at GBAR on an engine, and none has been stranded (R92). -/
def gbarReady (s : State) (ms : List Nat) (e : Nat) : Bool :=
  ms.all (fun t => atGbar s t e && !((getTile s t).engine e).stuck)

def releaseGbar (s : State) (g e : Nat) : State :=
  let ms := grpMembers (regGet s (aTileGrp g))
  if grpEn s g ∧ gbarReady s ms e then
    ms.foldl (fun s t => release s ⟨BitVec.ofNat 13 t, BitVec.ofNat 2 e⟩) s
  else s

/-- All four engines wait at SWAPB: the banks swap, and each goes on at its TARGET (R135). -/
def swapBanks (s : State) (t : TileId) : State :=
  let x := getTile s t.toNat
  if allEngines x (fun g => g.phase = .swapbWait) && tileRuns s t.toNat then
    let s := setTile s t.toNat { x with bank := !x.bank }
    [0, 1, 2, 3].foldl (fun s e => release s ⟨t, BitVec.ofNat 2 e⟩) s
  else s

/-- ENTRY_SIGNAL. -/
def execEntrySignal (a : At) (s : State) : Host.Outcome State Fault Refusal := .next (signalEntry s a)

/-- SEMAPHORE_WAIT_GRANT. -/
def execSemaphoreWaitGrant (a : At) (s : State) : Host.Outcome State Fault Refusal := .next (grantWait s a)

/-- GBAR_RELEASE. -/
def execGbarRelease (g : BitVec 6) (e : BitVec 2) (s : State) : Host.Outcome State Fault Refusal :=
  .next (releaseGbar s g.toNat e.toNat)

/-- BANK_SWAP. -/
def execBankSwap (t : TileId) (s : State) : Host.Outcome State Fault Refusal := .next (swapBanks s t)

/-- TRANSFER_COMPLETE. -/
def execTransferComplete (a : At) (xid : Nat) (s : State) : Host.Outcome State Fault Refusal :=
  .next (completeXfer s a xid)

/-- RESULT_READY. -/
def execResultReady (a : At) (s : State) : Host.Outcome State Fault Refusal := .next (popPend s a)

/-! ### Control slot (Table 4.3) -/

/-- END. -/
def execEndOp (a : At) (rest : Bundle) (s : State) :
    Host.Outcome State Fault Refusal :=
  runBundle a { rest with ctl := some (.endE) } s

/-- J. -/
def execJ (a : At) (off : BitVec 13) (rest : Bundle) (s : State) :
    Host.Outcome State Fault Refusal :=
  runBundle a { rest with ctl := some (.j off) } s

/-- JAL. -/
def execJal (a : At) (xd : BitVec 5) (off : BitVec 13) (rest : Bundle) (s : State) :
    Host.Outcome State Fault Refusal :=
  runBundle a { rest with ctl := some (.jal xd off) } s

/-- JR. -/
def execJr (a : At) (xa : BitVec 5) (rest : Bundle) (s : State) :
    Host.Outcome State Fault Refusal :=
  runBundle a { rest with ctl := some (.jr xa) } s

/-- BEQ. -/
def execBeq (a : At) (xa xb : BitVec 5) (off : BitVec 13) (rest : Bundle) (s : State) :
    Host.Outcome State Fault Refusal :=
  runBundle a { rest with ctl := some (.br .eq xa xb off) } s

/-- BNE. -/
def execBne (a : At) (xa xb : BitVec 5) (off : BitVec 13) (rest : Bundle) (s : State) :
    Host.Outcome State Fault Refusal :=
  runBundle a { rest with ctl := some (.br .ne xa xb off) } s

/-- BLT. -/
def execBlt (a : At) (xa xb : BitVec 5) (off : BitVec 13) (rest : Bundle) (s : State) :
    Host.Outcome State Fault Refusal :=
  runBundle a { rest with ctl := some (.br .lt xa xb off) } s

/-- BGE. -/
def execBge (a : At) (xa xb : BitVec 5) (off : BitVec 13) (rest : Bundle) (s : State) :
    Host.Outcome State Fault Refusal :=
  runBundle a { rest with ctl := some (.br .ge xa xb off) } s

/-- BLTU. -/
def execBltu (a : At) (xa xb : BitVec 5) (off : BitVec 13) (rest : Bundle) (s : State) :
    Host.Outcome State Fault Refusal :=
  runBundle a { rest with ctl := some (.br .ltu xa xb off) } s

/-- BGEU. -/
def execBgeu (a : At) (xa xb : BitVec 5) (off : BitVec 13) (rest : Bundle) (s : State) :
    Host.Outcome State Fault Refusal :=
  runBundle a { rest with ctl := some (.br .geu xa xb off) } s

/-- LOOP. -/
def execLoop (a : At) (xa : BitVec 5) (lc : BitVec 2) (exit : BitVec 12) (rest : Bundle) (s : State) :
    Host.Outcome State Fault Refusal :=
  runBundle a { rest with ctl := some (.loop xa lc exit) } s

/-- LOOPI. -/
def execLoopi (a : At) (lc : BitVec 2) (exit : BitVec 12) (count : BitVec 32) (rest : Bundle) (s : State) :
    Host.Outcome State Fault Refusal :=
  runBundle a { rest with ctl := some (.loopi lc exit count) } s

/-- LCSET. -/
def execLcset (a : At) (xa : BitVec 5) (lc : BitVec 2) (rest : Bundle) (s : State) :
    Host.Outcome State Fault Refusal :=
  runBundle a { rest with ctl := some (.lcset xa lc) } s

/-- WAIT. -/
def execWait (a : At) (sem : BitVec 4) (n : BitVec 8) (rest : Bundle) (s : State) :
    Host.Outcome State Fault Refusal :=
  runBundle a { rest with ctl := some (.wait sem n) } s

/-- SIGNAL. -/
def execSignal (a : At) (sem : BitVec 4) (n : BitVec 8) (rest : Bundle) (s : State) :
    Host.Outcome State Fault Refusal :=
  runBundle a { rest with ctl := some (.signal sem n) } s

/-- SIGNALT. -/
def execSignalt (a : At) (sem : BitVec 4) (n : BitVec 8) (tile : TileId) (rest : Bundle) (s : State) :
    Host.Outcome State Fault Refusal :=
  runBundle a { rest with ctl := some (.signalt sem n tile) } s

/-- DRAIN. -/
def execDrain (a : At) (rest : Bundle) (s : State) :
    Host.Outcome State Fault Refusal :=
  runBundle a { rest with ctl := some (.drain) } s

/-- GBAR. -/
def execGbar (a : At) (rest : Bundle) (s : State) :
    Host.Outcome State Fault Refusal :=
  runBundle a { rest with ctl := some (.gbar) } s

/-- SWAPB. -/
def execSwapb (a : At) (target : BitVec 12) (rest : Bundle) (s : State) :
    Host.Outcome State Fault Refusal :=
  runBundle a { rest with ctl := some (.swapb target) } s

/-- TRAP. -/
def execTrap (a : At) (code : BitVec 16) (rest : Bundle) (s : State) :
    Host.Outcome State Fault Refusal :=
  runBundle a { rest with ctl := some (.trap code) } s

/-! ### Address generator slot (Table 4.6) -/

/-- AGBASE. -/
def execAgbase (a : At) (ag : BitVec 3) (base : BitVec 20) (rest : Bundle) (s : State) :
    Host.Outcome State Fault Refusal :=
  runBundle a { rest with agu := some (.base ag base) } s

/-- AGDIM. -/
def execAgdim (a : At) (ag : BitVec 3) (dim : BitVec 2) (cntm1 : BitVec 16) (str : BitVec 24)
    (rest : Bundle) (s : State) : Host.Outcome State Fault Refusal :=
  runBundle a { rest with agu := some (.dim ag dim cntm1 str) } s

/-- AGSTEP. -/
def execAgstep (a : At) (ag : BitVec 3) (n : BitVec 16) (rest : Bundle) (s : State) :
    Host.Outcome State Fault Refusal :=
  runBundle a { rest with agu := some (.step ag n) } s

/-- AGRST. -/
def execAgrst (a : At) (ag : BitVec 3) (rest : Bundle) (s : State) :
    Host.Outcome State Fault Refusal :=
  runBundle a { rest with agu := some (.rst ag) } s

/-- AGBASEX. -/
def execAgbasex (a : At) (ag : BitVec 3) (xa : BitVec 5) (rest : Bundle) (s : State) :
    Host.Outcome State Fault Refusal :=
  runBundle a { rest with agu := some (.basex ag xa) } s

/-! ### Scalar slot (Table 4.7) -/

/-- ADD. -/
def execAdd (a : At) (xd xa xb : BitVec 5) (rest : Bundle) (s : State) :
    Host.Outcome State Fault Refusal :=
  runBundle a { rest with scl := some (.r .add xd xa xb) } s

/-- SUB. -/
def execSub (a : At) (xd xa xb : BitVec 5) (rest : Bundle) (s : State) :
    Host.Outcome State Fault Refusal :=
  runBundle a { rest with scl := some (.r .sub xd xa xb) } s

/-- AND. -/
def execAnd (a : At) (xd xa xb : BitVec 5) (rest : Bundle) (s : State) :
    Host.Outcome State Fault Refusal :=
  runBundle a { rest with scl := some (.r .and xd xa xb) } s

/-- OR. -/
def execOr (a : At) (xd xa xb : BitVec 5) (rest : Bundle) (s : State) :
    Host.Outcome State Fault Refusal :=
  runBundle a { rest with scl := some (.r .or xd xa xb) } s

/-- XOR. -/
def execXor (a : At) (xd xa xb : BitVec 5) (rest : Bundle) (s : State) :
    Host.Outcome State Fault Refusal :=
  runBundle a { rest with scl := some (.r .xor xd xa xb) } s

/-- SHL. -/
def execShl (a : At) (xd xa xb : BitVec 5) (rest : Bundle) (s : State) :
    Host.Outcome State Fault Refusal :=
  runBundle a { rest with scl := some (.r .shl xd xa xb) } s

/-- SHR. -/
def execShr (a : At) (xd xa xb : BitVec 5) (rest : Bundle) (s : State) :
    Host.Outcome State Fault Refusal :=
  runBundle a { rest with scl := some (.r .shr xd xa xb) } s

/-- SRA. -/
def execSra (a : At) (xd xa xb : BitVec 5) (rest : Bundle) (s : State) :
    Host.Outcome State Fault Refusal :=
  runBundle a { rest with scl := some (.r .sra xd xa xb) } s

/-- MUL. -/
def execMul (a : At) (xd xa xb : BitVec 5) (rest : Bundle) (s : State) :
    Host.Outcome State Fault Refusal :=
  runBundle a { rest with scl := some (.r .mul xd xa xb) } s

/-- SLT. -/
def execSlt (a : At) (xd xa xb : BitVec 5) (rest : Bundle) (s : State) :
    Host.Outcome State Fault Refusal :=
  runBundle a { rest with scl := some (.r .slt xd xa xb) } s

/-- SLTU. -/
def execSltu (a : At) (xd xa xb : BitVec 5) (rest : Bundle) (s : State) :
    Host.Outcome State Fault Refusal :=
  runBundle a { rest with scl := some (.r .sltu xd xa xb) } s

/-- MIN. -/
def execMin (a : At) (xd xa xb : BitVec 5) (rest : Bundle) (s : State) :
    Host.Outcome State Fault Refusal :=
  runBundle a { rest with scl := some (.r .min xd xa xb) } s

/-- MAX. -/
def execMax (a : At) (xd xa xb : BitVec 5) (rest : Bundle) (s : State) :
    Host.Outcome State Fault Refusal :=
  runBundle a { rest with scl := some (.r .max xd xa xb) } s

/-- ADDI. -/
def execAddi (a : At) (xd xa : BitVec 5) (imm : BitVec 14) (rest : Bundle) (s : State) :
    Host.Outcome State Fault Refusal :=
  runBundle a { rest with scl := some (.i .addi xd xa imm) } s

/-- ANDI. -/
def execAndi (a : At) (xd xa : BitVec 5) (imm : BitVec 14) (rest : Bundle) (s : State) :
    Host.Outcome State Fault Refusal :=
  runBundle a { rest with scl := some (.i .andi xd xa imm) } s

/-- ORI. -/
def execOri (a : At) (xd xa : BitVec 5) (imm : BitVec 14) (rest : Bundle) (s : State) :
    Host.Outcome State Fault Refusal :=
  runBundle a { rest with scl := some (.i .ori xd xa imm) } s

/-- XORI. -/
def execXori (a : At) (xd xa : BitVec 5) (imm : BitVec 14) (rest : Bundle) (s : State) :
    Host.Outcome State Fault Refusal :=
  runBundle a { rest with scl := some (.i .xori xd xa imm) } s

/-- SHLI. -/
def execShli (a : At) (xd xa : BitVec 5) (n : BitVec 6) (rest : Bundle) (s : State) :
    Host.Outcome State Fault Refusal :=
  runBundle a { rest with scl := some (.sh .shli xd xa n) } s

/-- SHRI. -/
def execShri (a : At) (xd xa : BitVec 5) (n : BitVec 6) (rest : Bundle) (s : State) :
    Host.Outcome State Fault Refusal :=
  runBundle a { rest with scl := some (.sh .shri xd xa n) } s

/-- SRAI. -/
def execSrai (a : At) (xd xa : BitVec 5) (n : BitVec 6) (rest : Bundle) (s : State) :
    Host.Outcome State Fault Refusal :=
  runBundle a { rest with scl := some (.sh .srai xd xa n) } s

/-- MOVI. -/
def execMovi (a : At) (xd : BitVec 5) (imm : BitVec 32) (rest : Bundle) (s : State) :
    Host.Outcome State Fault Refusal :=
  runBundle a { rest with scl := some (.movi xd imm) } s

/-- MOVHI. -/
def execMovhi (a : At) (xd : BitVec 5) (imm : BitVec 32) (rest : Bundle) (s : State) :
    Host.Outcome State Fault Refusal :=
  runBundle a { rest with scl := some (.movhi xd imm) } s

/-- RDLC. -/
def execRdlc (a : At) (xd : BitVec 5) (lc : BitVec 2) (rest : Bundle) (s : State) :
    Host.Outcome State Fault Refusal :=
  runBundle a { rest with scl := some (.rdlc xd lc) } s

/-- AGRD. -/
def execAgrd (a : At) (xd : BitVec 5) (ag : BitVec 3) (rest : Bundle) (s : State) :
    Host.Outcome State Fault Refusal :=
  runBundle a { rest with scl := some (.agrd xd ag) } s

/-- LDX. -/
def execLdx (a : At) (xd : BitVec 5) (addr : BitVec 8) (rest : Bundle) (s : State) :
    Host.Outcome State Fault Refusal :=
  runBundle a { rest with scl := some (.ldx xd addr) } s

/-- STX. -/
def execStx (a : At) (xb : BitVec 5) (addr : BitVec 8) (rest : Bundle) (s : State) :
    Host.Outcome State Fault Refusal :=
  runBundle a { rest with scl := some (.stx xb addr) } s

/-- LDG. -/
def execLdg (a : At) (xd xa : BitVec 5) (rest : Bundle) (s : State) :
    Host.Outcome State Fault Refusal :=
  runBundle a { rest with scl := some (.ldg xd xa) } s

/-- STG. -/
def execStg (a : At) (xa xb : BitVec 5) (rest : Bundle) (s : State) :
    Host.Outcome State Fault Refusal :=
  runBundle a { rest with scl := some (.stg xa xb) } s

/-! ### Operation slot of the L and S engines (Tables 4.8 and 4.9) -/

/-- LDMA. -/
def execLdma (t : TileId) (dst : BitVec 8) (xa xn : BitVec 5) (sem : BitVec 4) (tcnt : BitVec 8) (loc : Bool)
    (rest : Bundle) (s : State) : Host.Outcome State Fault Refusal :=
  runBundle ⟨t, 0⟩ { rest with op := some (.ldma dst xa xn sem tcnt loc) } s

/-- LDMA2. -/
def execLdma2 (t : TileId) (dst : BitVec 8) (xa xn : BitVec 5) (sem : BitVec 4) (tcnt : BitVec 8) (xr xs : BitVec 5) (loc : Bool)
    (rest : Bundle) (s : State) : Host.Outcome State Fault Refusal :=
  runBundle ⟨t, 0⟩ { rest with op := some (.ldma2 dst xa xn sem tcnt xr xs loc) } s

/-- LGATH. -/
def execLgath (t : TileId) (dst : BitVec 8) (xa xn : BitVec 5) (sem : BitVec 4) (tcnt idx : BitVec 8) (xc : BitVec 5) (loc : Bool)
    (rest : Bundle) (s : State) : Host.Outcome State Fault Refusal :=
  runBundle ⟨t, 0⟩ { rest with op := some (.lgath dst xa xn sem tcnt idx xc loc) } s

/-- SDMA. -/
def execSdma (t : TileId) (src : BitVec 8) (xa xn : BitVec 5) (sem : BitVec 4) (tcnt rcnt : BitVec 8) (rsem : BitVec 4) (xt : BitVec 5)
    (loc : Bool)
    (rest : Bundle) (s : State) : Host.Outcome State Fault Refusal :=
  runBundle ⟨t, 3⟩ { rest with op := some (.sdma src xa xn sem tcnt rcnt rsem xt loc) } s

/-- MSG. -/
def execMsg (t : TileId) (src : BitVec 8) (xa xn : BitVec 5) (sem : BitVec 4) (tcnt : BitVec 8)
    (rest : Bundle) (s : State) : Host.Outcome State Fault Refusal :=
  runBundle ⟨t, 3⟩ { rest with op := some (.msg src xa xn sem tcnt) } s

/-- LPUSH. -/
def execLpush (t : TileId) (src : BitVec 8) (xa xd : BitVec 5) (rest : Bundle) (s : State) :
    Host.Outcome State Fault Refusal :=
  runBundle ⟨t, 3⟩ { rest with op := some (.lpush src xa xd) } s

/-! ### Operation slot of the C engine (Table 4.10) -/

/-- CMMA. (DEDUCED, log entry 25.) -/
def execCmma (t : TileId) (av bv : BitVec 8) (acc : BitVec 3) (clr : Bool) (fmt : BitVec 4) (exact : Bool) (fd : BitVec 4)
    (ksteps : BitVec 16)
    (rest : Bundle) (s : State) : Host.Outcome State Fault Refusal :=
  runBundle ⟨t, 1⟩ { rest with op := some (.cmma av bv acc clr fmt exact fd ksteps) } s

/-- CCVT. -/
def execCcvt (t : TileId) (dst : BitVec 8) (acc : BitVec 3) (ofmt fd : BitVec 4) (rest : Bundle) (s : State) :
    Host.Outcome State Fault Refusal :=
  runBundle ⟨t, 1⟩ { rest with op := some (.ccvt dst acc ofmt fd) } s

/-- CSTA. -/
def execCsta (t : TileId) (dst : BitVec 8) (acc : BitVec 3) (rest : Bundle) (s : State) :
    Host.Outcome State Fault Refusal :=
  runBundle ⟨t, 1⟩ { rest with op := some (.csta dst acc) } s

/-- CLDA. -/
def execClda (t : TileId) (src : BitVec 8) (acc : BitVec 3) (rest : Bundle) (s : State) :
    Host.Outcome State Fault Refusal :=
  runBundle ⟨t, 1⟩ { rest with op := some (.clda src acc) } s

/-- CZERO. -/
def execCzero (t : TileId) (acc : BitVec 3) (rest : Bundle) (s : State) :
    Host.Outcome State Fault Refusal :=
  runBundle ⟨t, 1⟩ { rest with op := some (.czero acc) } s

/-- CANCH. -/
def execCanch (t : TileId) (anchor : BitVec 9) (acc : BitVec 3) (rest : Bundle) (s : State) :
    Host.Outcome State Fault Refusal :=
  runBundle ⟨t, 1⟩ { rest with op := some (.canch anchor acc) } s

/-- CANCHS. -/
def execCanchs (t : TileId) (scale : BitVec 8) (acc : BitVec 3) (rest : Bundle) (s : State) :
    Host.Outcome State Fault Refusal :=
  runBundle ⟨t, 1⟩ { rest with op := some (.canchs scale acc) } s

/-- CFIN. -/
def execCfin (t : TileId) (dst : BitVec 8) (fd : BitVec 4) (rows : BitVec 16) (rest : Bundle) (s : State) :
    Host.Outcome State Fault Refusal :=
  runBundle ⟨t, 1⟩ { rest with op := some (.cfin dst fd rows) } s

/-! ### Operation slot of the V engine (Table 4.12) -/

/-- VALU. -/
def execValu (t : TileId) (vd va vb : BitVec 5) (ty : BitVec 3) (fn : BitVec 6) (rest : Bundle) (s : State) :
    Host.Outcome State Fault Refusal :=
  runBundle ⟨t, 2⟩ { rest with op := some (.valu vd va vb ty fn) } s

/-- VFMA. -/
def execVfma (t : TileId) (vd va vb : BitVec 5) (ty : BitVec 3) (vc : BitVec 5) (rest : Bundle) (s : State) :
    Host.Outcome State Fault Refusal :=
  runBundle ⟨t, 2⟩ { rest with op := some (.vfma vd va vb ty vc) } s

/-- VCMP. -/
def execVcmp (t : TileId) (vd va vb : BitVec 5) (ty : BitVec 3) (fn : BitVec 6) (rest : Bundle) (s : State) :
    Host.Outcome State Fault Refusal :=
  runBundle ⟨t, 2⟩ { rest with op := some (.vcmp vd va vb ty fn) } s

/-- VLOGIC. -/
def execVlogic (t : TileId) (vd va vb : BitVec 5) (fn : BitVec 6) (rest : Bundle) (s : State) :
    Host.Outcome State Fault Refusal :=
  runBundle ⟨t, 2⟩ { rest with op := some (.vlogic vd va vb fn) } s

/-- VSHIFT. -/
def execVshift (t : TileId) (vd va vb : BitVec 5) (ty : BitVec 3) (fn : BitVec 6) (rest : Bundle) (s : State) :
    Host.Outcome State Fault Refusal :=
  runBundle ⟨t, 2⟩ { rest with op := some (.vshift vd va vb ty fn) } s

/-- VCVT. -/
def execVcvt (t : TileId) (vd va : BitVec 5) (ty : BitVec 3) (fn : BitVec 6) (rest : Bundle) (s : State) :
    Host.Outcome State Fault Refusal :=
  runBundle ⟨t, 2⟩ { rest with op := some (.vcvt vd va ty fn) } s

/-- VFN_EXP2. -/
def execVfnExp2 (t : TileId) (vd va : BitVec 5) (ty : BitVec 3) (rest : Bundle) (s : State) :
    Host.Outcome State Fault Refusal :=
  runBundle ⟨t, 2⟩ { rest with op := some (.vfn .exp2 vd va ty) } s

/-- VFN_LOG2. -/
def execVfnLog2 (t : TileId) (vd va : BitVec 5) (ty : BitVec 3) (rest : Bundle) (s : State) :
    Host.Outcome State Fault Refusal :=
  runBundle ⟨t, 2⟩ { rest with op := some (.vfn .log2 vd va ty) } s

/-- VFN_RECIPROCAL. -/
def execVfnReciprocal (t : TileId) (vd va : BitVec 5) (ty : BitVec 3) (rest : Bundle) (s : State) :
    Host.Outcome State Fault Refusal :=
  runBundle ⟨t, 2⟩ { rest with op := some (.vfn .reciprocal vd va ty) } s

/-- VFN_RECIPROCAL_SQUARE_ROOT. -/
def execVfnReciprocalSquareRoot (t : TileId) (vd va : BitVec 5) (ty : BitVec 3) (rest : Bundle) (s : State) :
    Host.Outcome State Fault Refusal :=
  runBundle ⟨t, 2⟩ { rest with op := some (.vfn .rsqrt vd va ty) } s

/-- VFN_SIGMOID. -/
def execVfnSigmoid (t : TileId) (vd va : BitVec 5) (ty : BitVec 3) (rest : Bundle) (s : State) :
    Host.Outcome State Fault Refusal :=
  runBundle ⟨t, 2⟩ { rest with op := some (.vfn .sigmoid vd va ty) } s

/-- VRED. -/
def execVred (t : TileId) (xd va : BitVec 5) (ty : BitVec 3) (fn : BitVec 6) (rest : Bundle) (s : State) :
    Host.Outcome State Fault Refusal :=
  runBundle ⟨t, 2⟩ { rest with op := some (.vred xd va ty fn) } s

/-- VBCAST. (DEDUCED, log entry 18.) -/
def execVbcast (t : TileId) (vd xa : BitVec 5) (ty : BitVec 3) (rest : Bundle) (s : State) :
    Host.Outcome State Fault Refusal :=
  runBundle ⟨t, 2⟩ { rest with op := some (.vbcast vd xa ty) } s

/-- VSEL. -/
def execVsel (t : TileId) (vd va vb : BitVec 5) (ty : BitVec 3) (vc : BitVec 5) (rest : Bundle) (s : State) :
    Host.Outcome State Fault Refusal :=
  runBundle ⟨t, 2⟩ { rest with op := some (.vsel vd va vb ty vc) } s

/-- VLD. -/
def execVld (t : TileId) (vd : BitVec 5) (addr : BitVec 8) (rest : Bundle) (s : State) :
    Host.Outcome State Fault Refusal :=
  runBundle ⟨t, 2⟩ { rest with op := some (.vld vd addr) } s

/-- VST. -/
def execVst (t : TileId) (vs : BitVec 5) (addr : BitVec 8) (rest : Bundle) (s : State) :
    Host.Outcome State Fault Refusal :=
  runBundle ⟨t, 2⟩ { rest with op := some (.vst vs addr) } s

end Sys2Proof.Machine
end

