-- ==== Sys2Proof/Machine/FabricRx.lean ====
section
/-! DEFINITION. Packets that reach the module: the router's checks, the receive contexts, and what each operation does at
its target and back at its issuer (R302 to R310, R319, R323 to R325). -/

namespace Sys2Proof.Machine

/-! ### Answers (R305, R325) -/

def packetReq (p : Packet) (port : Nat) : Req := .remote (BitVec.ofNat 16 (pkSrc p)) (BitVec.ofNat 4 port)

/-- The internal port through which an address is reached; the arrival port where the port die itself acts (R305). -/
def targetPort (s : State) (a port : Nat) : Nat :=
  match areaOf a 1 with
  | some .ctl => port
  | none => port
  | some _ => 6 + addrDie s a

/-- The internal port to the compute die that holds an address counts a packet delivered through it (R305, Table 11.12).
    (DEDUCED, log entry 51.) -/
def countThrough (s : State) (a : Nat) : State :=
  match areaOf a 1 with
  | some .ctl => s
  | none => s
  | some _ => if (areaOf a 1 = some .hbm ∧ (place s a).isNone) then s else countSent s (6 + addrDie s a)

/-- The target sends an answer: 0x4_011 where it holds no RSP context toward the sender (R321).
    (DEDUCED, log entry 69.) -/
def answerOp (s : State) (p : Packet) (port : Nat) (k : FKind) : State :=
  let (c, _, s) := startOp s (pkSrc p) k (.answer port)
  if c = 0x4011 then report s (unitOfPort port) c (packetInfo p) else s

def w3Status (w : Word) : Nat := fld w 31 16
def w3Opid (w : Word) : Nat := fld w 15 0

/-! ### The issuer hears of its operation -/

/-- An operation of a send context ends with a status and, for a load, a value. -/
def endOp (s : State) (n : Nat) (o : FOp) (status : Nat) (v : Word) : State :=
  if status ≠ 0 then failOp s n o.uid status
  else
    let s := closeOp s n o.uid
    match o.owner with
    | .xfer e xid => xferHears s e xid 0
    | .scalar e =>
      match (getEng s e).answer with
      | some (_, uid) => if uid = o.uid then answerScalar s e v else s
      | none => s
    | .answer _ => s

def FKind.isGet : FKind → Bool
  | .get .. => true
  | _ => false

def FKind.isLd : FKind → Bool
  | .ld _ => true
  | _ => false

/-- An OPACK may answer the operation. -/
def FKind.acked : FKind → Bool
  | .put .. => true
  | .st .. => true
  | .msg .. => true
  | _ => false

/-- The open operation toward `src` in a class that an OPID names, of a kind that `p` picks. -/
def openOp (s : State) (src cls opid : Nat) (p : FKind → Bool) : Option (Nat × FOp) :=
  match sendFlow s src cls with
  | none => none
  | some n =>
    match opOf s n opid with
    | some o => if p o.kind then some (n, o) else none
    | none => none

/-- A GETEND or an LDRSP ends a REQ operation. -/
def endReq (s : State) (src opid status : Nat) (v : Word) (p : FKind → Bool) : State :=
  match openOp s src 0 opid p with
  | some (n, o) => endOp s n o status v
  | none => s

/-- An OPACK names an OPID and no class: where an operation of class REQ and one of class MSG have it, which of them
    ends is open (DESIGN CHOICE, log entry 46). -/
def takeOpack (s : State) (src opid status : Nat) : State :=
  match openOp s src 0 opid FKind.acked, openOp s src 3 opid FKind.acked with
  | some (n, o), none => endOp s n o status 0
  | none, some (n, o) => endOp s n o status 0
  | some (n, o), some (m, q) =>
    let pick := Config.choice s.free
    let s := drawn s 1
    if pick then endOp s n o status 0 else endOp s m q status 0
  | none, none => s

/-! ### Operation slots (R325) -/

def rxSlot (s : State) (n opid : Nat) : RSlot := tget {} (flowOf s n).slots (opid % 16)
def setRxSlot (s : State) (n opid : Nat) (x : RSlot) : State :=
  let f := flowOf s n
  setFlow s n { f with slots := tset {} f.slots (opid % 16) x }

/-- The LAST packet's COUNT has been reached: a put whose bytes are all visible adds its token (R86), and answers; a get
    ends at its requester. -/
def settleSlot (s : State) (n : Nat) (p : Packet) (port : Nat) : State :=
  let x := rxSlot s n (pkOpid p)
  match x.last with
  | none => s
  | some (cnt, w3) =>
    if x.count % 2 ^ 20 ≠ cnt then s
    else
      let s := setRxSlot s n (pkOpid p) {}
      if flowClass s n = 1 then
        endReq s (pkSrc p) (w3Opid w3) (if x.status = 0 then w3Status w3 else x.status) 0 FKind.isGet
      else
        let t := fld w3 43 31
        let n := fld w3 26 19
        let st := if x.status = 0 then tokenCode s t n else x.status
        answerOp (if x.status = 0 then token s t (fld w3 30 27) n else s) p port (.opack (pkOpid p) st)

/-- A data packet is written, and its slot counts it. A put to the atomic window comes in packets, each with its own address:
    each is a write of its own by the length test and the order of R255 and R258 (DESIGN CHOICE, log entry 151). -/
def takeData (s : State) (n : Nat) (p : Packet) (port : Nat) : State :=
  let (c, s) :=
    if p.payload.length = 0 then (0, s) else dataWrite s (packetReq p port) (fld p.w3 47 0) p.payload 0x4024
  let x := rxSlot s n (pkOpid p)
  let s := setRxSlot s n (pkOpid p) { x with count := x.count + 1, status := if x.status = 0 then c else x.status }
  settleSlot s n p port

/-- The LAST packet of a put or of a get's answer. (DEDUCED, log entry 103.) -/
def takeEnd (s : State) (n : Nat) (p : Packet) (port : Nat) : State :=
  let x := rxSlot s n (pkOpid p)
  settleSlot (setRxSlot s n (pkOpid p) { x with last := some (fld p.w3 63 44, p.w3) }) n p port

/-- GET: the bytes that the read gives, or its failure's code, go into the answer. -/
def takeGet (s : State) (p : Packet) (port : Nat) : State :=
  let a := fld p.w3 47 0
  let len := leNat ((p.payload.drop 8).take 4)
  let dst := leNat (p.payload.take 6)
  let (bs, c, s) := if len = 0 then ([], 0, s) else loadRead s (packetReq p port) a len
  answerOp s p (targetPort s a port) (.getData dst bs (pkOpid p) c)

/-- LD: 8 bytes at a multiple of 8. (DEDUCED, log entry 71.) -/
def takeLd (s : State) (p : Packet) (port : Nat) : State :=
  let a := fld p.w3 47 0
  let (v, c, s) := if a % 8 = 0 then read8 s (packetReq p port) a else (0, 0x20F0, s)
  answerOp s p (targetPort s a port) (.ldrsp (pkOpid p) c (if c = 0 then v else 0))

/-- ST: the atomic window refuses it (R255), and so does the rest of control space (R305). -/
def takeSt (s : State) (p : Packet) (port : Nat) : State :=
  let a := fld p.w3 47 0
  let v := BitVec.ofNat 64 (leNat (p.payload.take 8))
  let (c, s) :=
    if a % 8 ≠ 0 then (0x20F0, s)
    else if inWindow a 8 then (0x9021, s)
    else if areaOf a 8 = some .ctl then (0x4024, s)
    else memWrite s (packetReq p port) a (wordLE v)
  answerOp s p (targetPort s a port) (.opack (pkOpid p) c)

/-! ### Messages (R306) -/

def mqEn (s : State) (q : Nat) : Bool := rbit s (aFabMqRing q) 63
def mqLog (s : State) (q : Nat) : Nat := rf s (aFabMqRing q) 51 48
def mqBase (s : State) (q : Nat) : Nat := rf s (aFabMqRing q) 47 6 * 64
def mqTail (s : State) (q : Nat) : Nat := rf s (aFabMqPtr q) 31 16
def mqHead (s : State) (q : Nat) : Nat := rf s (aFabMqPtr q) 15 0
def mqFull (s : State) (q : Nat) : Bool := (mqTail s q + 65536 - mqHead s q) % 65536 = 2 ^ mqLog s q

/-- The slot that a queue's next message fills. -/
def mqAddr (s : State) (q : Nat) : Nat := mqBase s q + mqTail s q % 2 ^ mqLog s q * 576

/-- A slot's 576 bytes. -/
def mqSlot (p : Packet) : List Byte :=
  let b := pkHeader p ++ p.payload
  b ++ List.replicate (576 - b.length) 0

/-- The NOTE of a queue. -/
def mqNote (s : State) (q : Nat) (p : Packet) (port : Nat) : State :=
  let a := aFabMqNote q
  match rf s a 63 62 with
  | 1 => report s (unitOfPort port) Config.noteCode.toNat { packetInfo p with event := true }
  | 2 => token s (rf s a 61 49) (rf s a 48 45) 1
  | _ => s

/-- DEDUCED, log entry 70. -/
def takeMsg (s : State) (p : Packet) (port : Nat) : State :=
  let q := fld p.w3 15 0
  let a := mqAddr s q
  if 255 < q ∨ !mqEn s q then answerOp s p port (.opack (pkOpid p) 0x4023)
  else if mqFull s q then answerOp (rsetb s (aFabMqNote q) 0 true) p port (.opack (pkOpid p) 0x4023)
  else
    let (c, s) := memWrite s (packetReq p port) a (mqSlot p)
    if c ≠ 0 then answerOp s p port (.opack (pkOpid p) c)
    else
      let s := rset s (aFabMqPtr q) 31 16 ((mqTail s q + 1) % 65536)
      countThrough (answerOp (mqNote s q p port) p (targetPort s a port) (.opack (pkOpid p) 0)) a

/-! ### Receive contexts (R323) -/

/-- What a context does with a SEQ. -/
inductive Taken where
  | accept | duplicate | outside
  deriving DecidableEq, Repr

def seqTaken (f : Flow) (seq : Nat) : Taken :=
  let d := (seq + 65536 - f.exp) % 65536
  if f.map.contains seq ∨ 65280 ≤ d then .duplicate
  else if d < 256 then .accept
  else .outside

/-- EXP moves past the SEQs that are marked. -/
def advanceExp : Nat → Flow → Flow
  | 0, f => f
  | k + 1, f =>
    if f.map.contains f.exp then
      advanceExp k { f with exp := (f.exp + 1) % 65536, map := f.map.filter (fun x => x ≠ f.exp) }
    else f

def markSeq (f : Flow) (seq : Nat) : Flow := advanceExp 256 { f with map := f.map ++ [seq], ackDue := true }

/-- What a packet for a context asks for. -/
def performOp (s : State) (n : Nat) (p : Packet) (port : Nat) : State :=
  match pkOpc p with
  | 0x01 => takeData s n p port
  | 0x02 => takeEnd s n p port
  | 0x03 => takeGet s p port
  | 0x04 => takeLd s p port
  | 0x05 => takeSt s p port
  | 0x11 => takeData s n p port
  | 0x12 => takeEnd s n p port
  | 0x13 => takeOpack s (pkSrc p) (w3Opid p.w3) (w3Status p.w3)
  | 0x14 =>
    endReq s (pkSrc p) (w3Opid p.w3) (w3Status p.w3) (BitVec.ofNat 64 (leNat (p.payload.take 8))) FKind.isLd
  | 0x30 => takeMsg s p port
  | _ => s

/-- A packet with an address goes through the internal port of the die that holds it (R305). -/
def hasAddr (p : Packet) : Bool := [0x01, 0x03, 0x04, 0x05, 0x11].contains (pkOpc p)

/-- The HBM that a packet reads or writes: that of its bytes, or of its message's slot. -/
def packetSpans (s : State) (p : Packet) : List (Nat × Nat) :=
  let a := fld p.w3 47 0
  match pkOpc p with
  | 0x01 => writeSpans a p.payload
  | 0x03 => memSpan a (leNat ((p.payload.drop 8).take 4))
  | 0x04 => memSpan a 8
  | 0x05 => memSpan a 8
  | 0x11 => writeSpans a p.payload
  | 0x30 =>
    let q := fld p.w3 15 0
    if q ≤ 255 ∧ mqEn s q ∧ !mqFull s q then memSpan (mqAddr s q) 576 else []
  | _ => []

/-- A packet for a context is performed once, and waits for a channel that retrains (R268). -/
def perform (s : State) (n : Nat) (p : Packet) (port : Nat) : State :=
  if heldBack s (packetSpans s p) then holdWork s (packetSpans s p) (.packet n p port)
  else
    let t := performOp s n p port
    if hasAddr p then countThrough t (fld p.w3 47 0) else t

def refusePacket (s : State) (p : Packet) (port : Nat) : State := report s (unitOfPort port) 0x4012 (packetInfo p)

/-- The context that FLOW names is enabled and is this flow's. -/
def contextFits (s : State) (p : Packet) : Bool :=
  let n := pkFlow p
  flowEn s n && flowRecv s n && flowPeer s n = pkSrc p && flowClass s n = pkCls p

/-- A sequenced packet meets its receive context. -/
def receive (s : State) (p : Packet) (port : Nat) : State :=
  let n := pkFlow p
  if !contextFits s p then refusePacket s p port
  else
    match seqTaken (flowOf s n) (pkSeq p) with
    | .accept => perform (setFlow s n (markSeq (flowOf s n) (pkSeq p))) n p port
    | .duplicate => sendFack s n
    | .outside => refusePacket s p port

/-- A FACK frees what it marks. -/
def receiveFack (s : State) (p : Packet) (port : Nat) : State :=
  match fackFlow s (pkSrc p) (pkFlow p) with
  | some n => takeFack s n (fld p.w3 15 0) (leNat (p.payload.take 32))
  | none => refusePacket s p port

/-- A packet whose DST is this module. -/
def deliver (s : State) (p : Packet) (port : Nat) : State :=
  match pkOpc p with
  | 0x15 => receiveFack s p port
  | 0x20 => takeCol s p none
  | _ => receive s p port

/-! ### Arrival (R303, R309, R310, R319) -/

/-- Cells that an optical port frees as it takes a packet in; its next CREDIT says so (R357). -/
def freeCells (s : State) (p : Packet) (port : Nat) : State :=
  let key := port * 8 + pkVc p
  if port < 6 then
    let n := (tget 0 s.fab.rxFreed key + pkCells p) % 2 ^ 32
    let s := { s with fab := { s.fab with rxFreed := tset 0 s.fab.rxFreed key n } }
    sendCtl s port (creditBytes s port)
  else s

/-- Packets of this module that wait to be delivered to it (R313). -/
def isLocal (p : Packet) (h : RHeld) : Bool := h.port = 15 && decide (h.pkt = p)

/-- A multicast group has a copy for an internal port here. -/
def mcHere (s : State) (p : Packet) (port : Nat) : Bool :=
  rbit s (aFabMc (pkMgrp p)) 63 && (mcPorts s p port).any (fun o => 6 ≤ o && o < 14)

/-- A packet that a router has taken in. A multicast packet with a copy for this module waits as a whole while a channel that
    the copy is written by retrains (R268). -/
def forward (s : State) (p : Packet) (port : Nat) : State :=
  if pkMc p then
    let here := mcHere s p port
    let xs := if here then writeSpans (fld p.w3 47 0) p.payload else []
    if heldBack s xs then holdWork s xs (.cast p port)
    else
      let (c, s) := multicast s p port
      if here then takeCol s p (some c) else s
  else if pkDst p = moduleId s then deliver s p port
  else routePacket s p port none

/-- A packet arrives at a port. (DEDUCED, log entry 67.) -/
def takeIn (s : State) (p : Packet) (port : Nat) : State :=
  if s.fab.held.any (isLocal p) then
    let s := { s with fab := { s.fab with held := s.fab.held.eraseP (isLocal p) } }
    if idValid s then deliver s p port else countRoute s port
  else if 14 < port ∨ (port < 6 ∧ !portUp s port) then s
  else if !p.crcOk then countCrc s port
  else if !idValid s then countRoute (freeCells s p port) port
  else if malformed p then report (freeCells s p port) (unitOfPort port) 0x4014 (packetInfo p)
  else forward (seePacket (freeCells s p port) p) p port

/-- A packet of a kind arrives. -/
def arriveIf (c : Bool) (port : BitVec 4) (p : Packet) (s : State) : Host.Outcome State Fault Refusal :=
  .next (if c then takeIn s p port.toNat else s)

/-- A COL packet's KIND (Table 13.7). -/
def isKind (p : Packet) (k : Nat) : Bool := pkOpc p = 0x20 && pkKind p = k

/-! ### Commands -/

/-- ROUTER_FORWARD: any packet that is not multicast. -/
def execRouterForward (port : BitVec 4) (p : Packet) (s : State) : Host.Outcome State Fault Refusal :=
  arriveIf (!pkMc p) port p s

/-- MULTICAST_PACKET. -/
def execMulticastPacket (port : BitVec 4) (p : Packet) (s : State) : Host.Outcome State Fault Refusal :=
  arriveIf (pkMc p) port p s

/-- PUT: a packet of OPC 0x01 arrives. -/
def execPut (port : BitVec 4) (p : Packet) (s : State) : Host.Outcome State Fault Refusal :=
  arriveIf (pkOpc p = 0x01) port p s

/-- PUTEND: a packet of OPC 0x02 arrives. -/
def execPutend (port : BitVec 4) (p : Packet) (s : State) : Host.Outcome State Fault Refusal :=
  arriveIf (pkOpc p = 0x02) port p s

/-- GET: a packet of OPC 0x03 arrives. -/
def execGet (port : BitVec 4) (p : Packet) (s : State) : Host.Outcome State Fault Refusal :=
  arriveIf (pkOpc p = 0x03) port p s

/-- LD: a packet of OPC 0x04 arrives. -/
def execLd (port : BitVec 4) (p : Packet) (s : State) : Host.Outcome State Fault Refusal :=
  arriveIf (pkOpc p = 0x04) port p s

/-- ST: a packet of OPC 0x05 arrives. -/
def execSt (port : BitVec 4) (p : Packet) (s : State) : Host.Outcome State Fault Refusal :=
  arriveIf (pkOpc p = 0x05) port p s

/-- GETDATA: a packet of OPC 0x11 arrives. -/
def execGetdata (port : BitVec 4) (p : Packet) (s : State) : Host.Outcome State Fault Refusal :=
  arriveIf (pkOpc p = 0x11) port p s

/-- GETEND: a packet of OPC 0x12 arrives. -/
def execGetend (port : BitVec 4) (p : Packet) (s : State) : Host.Outcome State Fault Refusal :=
  arriveIf (pkOpc p = 0x12) port p s

/-- OPACK: a packet of OPC 0x13 arrives. -/
def execOpack (port : BitVec 4) (p : Packet) (s : State) : Host.Outcome State Fault Refusal :=
  arriveIf (pkOpc p = 0x13) port p s

/-- LDRSP: a packet of OPC 0x14 arrives. -/
def execLdrsp (port : BitVec 4) (p : Packet) (s : State) : Host.Outcome State Fault Refusal :=
  arriveIf (pkOpc p = 0x14) port p s

/-- FACK: a packet of OPC 0x15 arrives. -/
def execFack (port : BitVec 4) (p : Packet) (s : State) : Host.Outcome State Fault Refusal :=
  arriveIf (pkOpc p = 0x15) port p s

/-- COL_PACKET: a packet of OPC 0x20 arrives. -/
def execColPacket (port : BitVec 4) (p : Packet) (s : State) : Host.Outcome State Fault Refusal :=
  arriveIf (pkOpc p = 0x20) port p s

/-- MSG_PACKET: a packet of OPC 0x30 arrives. -/
def execMsgPacket (port : BitVec 4) (p : Packet) (s : State) : Host.Outcome State Fault Refusal :=
  arriveIf (pkOpc p = 0x30) port p s

/-- CHK: a COL packet of KIND 0 arrives. -/
def execChk (port : BitVec 4) (p : Packet) (s : State) : Host.Outcome State Fault Refusal :=
  arriveIf (isKind p 0) port p s

/-- REL: a COL packet of KIND 1 arrives. -/
def execRel (port : BitVec 4) (p : Packet) (s : State) : Host.Outcome State Fault Refusal :=
  arriveIf (isKind p 1) port p s

/-- DATA1: a COL packet of KIND 2 arrives. -/
def execData1 (port : BitVec 4) (p : Packet) (s : State) : Host.Outcome State Fault Refusal :=
  arriveIf (isKind p 2) port p s

/-- CRED: a COL packet of KIND 3 arrives. -/
def execCred (port : BitVec 4) (p : Packet) (s : State) : Host.Outcome State Fault Refusal :=
  arriveIf (isKind p 3) port p s

/-- DATA2: a COL packet of KIND 4 arrives. -/
def execData2 (port : BitVec 4) (p : Packet) (s : State) : Host.Outcome State Fault Refusal :=
  arriveIf (isKind p 4) port p s

/-- RESEND: a COL packet of KIND 5 arrives. -/
def execResend (port : BitVec 4) (p : Packet) (s : State) : Host.Outcome State Fault Refusal :=
  arriveIf (isKind p 5) port p s

/-- FAIL: a COL packet of KIND 6 arrives. -/
def execFail (port : BitVec 4) (p : Packet) (s : State) : Host.Outcome State Fault Refusal :=
  arriveIf (isKind p 6) port p s

/-- XDATA: a COL packet of KIND 7 arrives. -/
def execXdata (port : BitVec 4) (p : Packet) (s : State) : Host.Outcome State Fault Refusal :=
  arriveIf (isKind p 7) port p s

end Sys2Proof.Machine
end

