-- ==== Sys2Proof/Machine/TenonRx.lean ====
section
/-! DEFINITION. Tenon flits and messages as they arrive (R278 to R282, R297, Tables 10.2 to 10.4). -/

namespace Sys2Proof.Machine

/-! ### Messages at their destination die -/

/-- The requester that a source unit stands for (Table 2.4). -/
def reqOfUnit (s : State) (u : Nat) : Req :=
  if u = 0 then .firmware
  else if u = 1 then .host
  else if 0x10 ≤ u ∧ u < 0x20 then .dma (BitVec.ofNat 4 (u - 0x10))
  else if 0x1000 ≤ u ∧ u < 0x1200 then .reed (BitVec.ofNat 9 (u - 0x1000))
  else if 0x3000 ≤ u ∧ u < 0x3004 then .chanter (BitVec.ofNat 2 (u - 0x3000))
  else if 0x4000 ≤ u ∧ u < 0x400F then .remote (BitVec.ofNat 16 (moduleId s)) (BitVec.ofNat 4 (u - 0x4000))
  else if 0x8000 ≤ u then .engine ⟨BitVec.ofNat 13 (u - 0x8000), BitVec.ofNat 2 ((u - 0x8000) / 0x2000)⟩
  else .mgmt

def tmReq (s : State) (m : TMsg) : Req := reqOfUnit s (tmUnit m)

/-- The destination answers a request. -/
def tmReply (s : State) (m : TMsg) (status : Nat) (body : List Byte) : State :=
  let r := answerMsg m status body
  if tmSdie m = tmDdie m then gotAnswer s r else issueMsg s (tmDdie m) r

def takeRd (s : State) (m : TMsg) : State :=
  let (bs, c, s) := if tmLen m = 0 then ([], 0, s) else loadRead s (tmReq s m) (tmAddr m) (tmLen m)
  tmReply s m c bs

/-- A write to the atomic window by one whom R255 names; any other performs no record and raises 0x9_021. -/
def recordWrite (s : State) (req : Req) (a : Nat) (bs : List Byte) : Nat × State :=
  if mayAtomic req then windowWrite s req a bs else refuse s unitFirmware 0x9021

/-- WR: memory, the records of the atomic window, or one aligned register (R9). -/
def takeWr (s : State) (m : TMsg) : State :=
  let (c, s) :=
    if m.body = [] then (0, s)
    else if meetsWindow (tmAddr m) m.body.length then recordWrite s (tmReq s m) (tmAddr m) m.body
    else if m.body.length = 8 then write8 s (tmReq s m) (tmAddr m) (wordAt m.body 0)
    else memWrite s (tmReq s m) (tmAddr m) m.body
  tmReply s m c []

def takeAtom (s : State) (m : TMsg) : State :=
  let (c, s) := recordWrite s (tmReq s m) (windowBase + tmAddr m % 32) m.body
  tmReply s m c []

/-- A push by one whom R75 names to a push window. Any other completes with error and raises 0x2_0F0, and 0x2_001 off the map
    (R3). -/
def takePush (s : State) (m : TMsg) : State :=
  let refused (s : State) : State :=
    let (c, s) := failed s (tmReq s m) (if (areaOf (tmAddr m) 32).isNone then 0x2001 else 0x20F0) (tmAddr m)
    tmReply s m c []
  match winAt (tmAddr m) with
  | some (w, 0) =>
    if m.body.length ≠ 32 ∨ !mayPush (tmReq s m) then refused s
    else
      let (st, s) := winPush s w (wordAt m.body 0) (wordAt m.body 8) (wordAt m.body 16) (wordAt m.body 24)
        (engineOf (tmReq s m))
      tmReply s m (if st = 6 then 0x3010 else st) []
  | _ => refused s

def takeToken (s : State) (m : TMsg) : State :=
  let x := tmAux m
  token s (x / 2 ^ 51) (x / 2 ^ 47 % 16) (x / 2 ^ 39 % 256)

/-- A response reaches its requester; one that nothing waits for is discarded (Table 10.8). -/
def takeResponse (s : State) (r : TMsg) : State :=
  match s.ten.open_.find? (answersTo r) with
  | none => s
  | some _ => gotAnswer { s with ten := { s.ten with open_ := s.ten.open_.eraseP (answersTo r) } } r

/-- The fabric packet in a message: header and payload, with no CRC of its own. (DEDUCED, log entry 72.) -/
def tmPacket (m : TMsg) : Packet :=
  { w0 := wordAt m.body 0, w1 := wordAt m.body 8, w2 := wordAt m.body 16, w3 := wordAt m.body 24
    payload := m.body.drop 32 }

/-- The router port that stands for a die: the internal port of a compute die; the host port for a port die, whose
    message names no port (DEDUCED, log entry 48). -/
def diePort (d : Nat) : Nat := if d < 8 then 6 + d else 14

def takeTenonCol (s : State) (m : TMsg) : State :=
  let p := tmPacket m
  if pkOpc p = 0x20 then takeCol s p none else s

/-- FABIN: the packet reaches the compute die for which the port die has routed it. -/
def takeFabin (s : State) (m : TMsg) : State :=
  if tmDdie m < 8 then takeIn s (tmPacket m) (diePort (tmDdie m)) else s

/-- FABOUT: the packet enters the router from its source die. -/
def takeFabout (s : State) (m : TMsg) : State :=
  if 8 ≤ tmDdie m then takeIn s (tmPacket m) (diePort (tmSdie m)) else s

/-- CRD and CWR: 8 bytes at any address of the map, since the host's requests for memory use them too (R401). -/
def takeCrd (s : State) (m : TMsg) : State :=
  let (v, c, s) := read8 s (tmReq s m) (tmAddr m)
  tmReply s m c (if c = 0 then wordLE v else [])

def takeCwr (s : State) (m : TMsg) : State :=
  let (c, s) := write8 s (tmReq s m) (tmAddr m) (BitVec.ofNat 64 (leNat (m.body.take 8)))
  tmReply s m c []

/-- The HBM that a message's request reads or writes. -/
def messageSpans (m : TMsg) : List (Nat × Nat) :=
  match tmOpc m with
  | 0x01 => memSpan (tmAddr m) (tmLen m)
  | 0x02 => writeSpans (tmAddr m) m.body
  | 0x03 => recordSpans m.body
  | 0x40 => memSpan (tmAddr m) 8
  | 0x41 => memSpan (tmAddr m) 8
  | _ => []

/-- What a message does at its destination. -/
def performMessage (s : State) (m : TMsg) : State :=
  match tmOpc m with
  | 0x01 => takeRd s m
  | 0x02 => takeWr s m
  | 0x03 => takeAtom s m
  | 0x04 => takePush s m
  | 0x05 => takeToken s m
  | 0x11 => takeResponse s m
  | 0x12 => takeResponse s m
  | 0x20 => takeTenonCol s m
  | 0x30 => takeFabin s m
  | 0x31 => takeFabout s m
  | 0x40 => takeCrd s m
  | 0x41 => takeCwr s m
  | _ => s

/-- A message is performed at its destination; a request waits for a channel that retrains (R268). -/
def takeMessage (s : State) (m : TMsg) : State :=
  if heldBack s (messageSpans m) then holdWork s (messageSpans m) (.message m) else performMessage s m

/-- A message that its receiving link end discards (R278). -/
def tmBad (m : TMsg) : Bool := (opcVc (tmOpc m)).isNone || decide (576 < tmLen m)

/-- A whole message has arrived at a port of a die. -/
def messageArrives (s : State) (d p : Nat) (m : TMsg) : State :=
  if tmBad m then report s (0x6000 + d * 8 + p) 0x3011 (linkArgs s (linkAt d p) d 0)
  else if tmDdie m ≠ d then letAllGo (forwardMsg s d m)
  else takeMessage (landed s m) m

/-- The port by which the route between a message's dies reaches its destination. -/
def arrivalPort (s : State) (m : TMsg) : Nat :=
  match routePath s (tmSdie m) (tmDdie m) with
  | some hs =>
    match hs.getLast? with
    | some (_, l) => portOn l (tmDdie m)
    | none => 7
  | none => 7

/-- A message command: a message of opcode `o` arrives at its destination die, which is live. -/
def messageIf (o : Nat) (m : TMsg) (s : State) : Host.Outcome State Fault Refusal :=
  .next (if tmOpc m = o ∧ tmDdie m < 12 ∧ !dieIsolated s (tmDdie m) then messageArrives s (tmDdie m) (arrivalPort s m) m else s)

/-! ### Flits (R281, R282) -/

/-- An ACK frees what it covers, with the replays counted for it. -/
def takeAck (x : TEnd) (l ack : Nat) : TEnd :=
  let y := getTLane x l
  let left := y.replay.filter (fun f => !covered ack (flitSeq f))
  setTLane x l { y with replay := left, redo := y.redo.filter (fun r => left.any (fun f => flitSeq f = r.1)) }

/-- Credits come back. -/
def takeCredits (x : TEnd) (vc n : Nat) : TEnd := { x with used := tset 0 x.used vc (tget 0 x.used vc - n) }

/-- The receiver of a bad flit NAKs it, and discards what follows until the replay arrives. The fourth NAK of a lane within
    1 µs starts a retest (R289). -/
def sendNak (s : State) (k l lane : Nat) : State :=
  let x := getEnd s k
  let y := getTLane x lane
  let s := setEnd s k (setTLane x lane { y with nak := true, queue := (1, 0, 3, true) :: y.queue, naks := 0 :: y.naks })
  let s := pumpEnd (rcount s (aTenLinkCnt l) 31 0 1) k
  if 3 ≤ y.naks.length then startRetest s l lane else s

/-- The flits that a lane holds go again: each counts one more replay. -/
def TLane.again (y : TLane) : TLane :=
  { y with redo := y.replay.map (fun f => (flitSeq f, tget 0 y.redo (flitSeq f) + 1)) }

/-- A NAK: the flits after its ACK stay in the replay buffer, and go again in order and unchanged. The eighth replay of one
    flit starts a retest of the lane (R289). -/
def takeNak (s : State) (k l lane ack : Nat) : State :=
  let x := takeAck (getEnd s k) lane ack
  let y := (getTLane x lane).again
  let s := pumpEnd (setEnd (rcount s (aTenLinkCnt l) 31 0 1) k (setTLane x lane y)) k
  if y.redo.any (fun r => decide (8 ≤ r.2)) then startRetest s l lane else s

/-- The message that flits hold, HEAD first. -/
def messageOf (fs : List (BitVec 256)) : TMsg :=
  let h := (fs.headD 0).setWidth 192
  let m : TMsg := { head := h }
  { m with body := ((fs.drop 1).flatMap (fun f => natLE 24 (f.setWidth 192).toNat)).take (tmLen m) }

/-- A flit of a message joins those received; the last one completes the message, whose buffer is free again. -/
def joinFlit (s : State) (k d p lane : Nat) (f : BitVec 256) : State :=
  let x := getEnd s k
  let y := getTLane x lane
  let part := if flitKind f = 1 then [f] else if y.part = [] then [] else y.part ++ [f]
  if !f.getLsbD 218 ∨ part = [] then setEnd s k (setTLane x lane { y with part := part })
  else
    let vc := flitVc f
    let x := setTLane x lane { y with part := [] }
    let s := pumpEnd (setEnd s k { x with owe := tset 0 x.owe vc (tget 0 x.owe vc + part.length) }) k
    messageArrives s d p (messageOf part)

/-- A flit that is good and, unless IDLE, next in order. -/
def takeFlit (s : State) (k l d p lane : Nat) (f : BitVec 256) : State :=
  let x := takeAck (getEnd s k) lane (flitAck f)
  if flitKind f = 0 then pumpEnd (setEnd s k x) k
  else
    let x := setTLane x lane { getTLane x lane with rxSeq := BitVec.ofNat 8 (flitSeq f), nak := false }
    let s := pumpEnd (setEnd s k (takeCredits x (flitCrvc f) (flitCrcnt f))) k
    if flitKind f ≠ 3 then joinFlit s k d p lane f
    else if f.getLsbD 0 then takeNak s k l lane (flitAck f)
    else s

/-- A flit is received at a link end. A good flit that is not the next in order is discarded: a repeat at once, a later
    one with a NAK. (DEDUCED, log entry 47.) -/
def flitArrives (s : State) (d p lane : Nat) (f : BitVec 256) : State :=
  let k := endKey d p
  match linkAt d p with
  | none => s
  | some l =>
    let y := getTLane (getEnd s k) lane
    if !linkUp s l ∨ !(linkInUse s l).testBit lane ∨ y.retest then s
    else if crc16 (f.toNat % 2 ^ 240) ≠ f.toNat / 2 ^ 240 then sendNak s k l lane
    else if flitKind f = 0 then (if y.nak then s else takeFlit s k l d p lane f)
    else if flitSeq f = (y.rxSeq + 1).toNat then takeFlit s k l d p lane f
    else if y.nak ∨ covered y.rxSeq.toNat (flitSeq f) then s
    else sendNak s k l lane

/-! ### Commands -/

/-- TENON_FLIT_RECEIVE. -/
def execTenonFlitReceive (e : LinkEnd) (lane : BitVec 4) (f : BitVec 256) (s : State) : Host.Outcome State Fault Refusal :=
  .next (flitArrives s e.die.toNat e.port.toNat lane.toNat f)

/-- TENON_NAK: a NAK reaches the transmitter at a link end. -/
def execTenonNak (e : LinkEnd) (lane : BitVec 4) (ack : BitVec 8) (s : State) : Host.Outcome State Fault Refusal :=
  .next (
    match linkAt e.die.toNat e.port.toNat with
    | none => s
    | some l =>
      if linkUp s l ∧ (linkInUse s l).testBit lane.toNat then takeNak s (endKey e.die.toNat e.port.toNat) l lane.toNat ack.toNat
      else s)

/-- A message that carries a fabric packet. -/
def isFab (m : TMsg) : Bool := tmOpc m = 0x30 || tmOpc m = 0x31

/-- Cells of the buffer for fabric VC `v` at die `d` that messages on their way to it will fill. -/
def fabFilled (s : State) (d v : Nat) : Nat :=
  ((s.ten.under.map Prod.fst ++ s.ten.stay).filter (fun m => isFab m && tmDdie m = d && pkVc (tmPacket m) = v)).foldl
    (fun n m => n + pkCells (tmPacket m)) 0

/-- The receiving port holds buffer space for a packet on its fabric VC (R297, R311). A buffer holds at least one packet of
    the greatest length (DESIGN CHOICE, log entry 138). -/
def fabRoom (s : State) (m : TMsg) : Bool :=
  let p := tmPacket m
  let n := fabFilled s (tmDdie m) (pkVc p) + pkCells p
  decide (n ≤ 9) || decide (n ≤ 9 + Config.fabCells (pkVc p))

/-- A message that a die may send: a known opcode, LEN as its body has it, from this die; a fabric packet only where the
    receiving port has room for it (R297). -/
def mayMessage (s : State) (d : Nat) (m : TMsg) : Bool :=
  !tmBad m && m.body.length = tmBodyLen m && tmSdie m = d && tmDdie m ≠ d && decide (tmDdie m < 12) && !dieIsolated s d &&
  (!isFab m || fabRoom s m)

/-- TENON_MESSAGE_SEND: a unit of the end's die issues a message that its route takes through that end. -/
def execTenonMessageSend (e : LinkEnd) (m : TMsg) (s : State) : Host.Outcome State Fault Refusal :=
  .next (
    let d := e.die.toNat
    let p := tget 0 s.route (tmSdie m * 256 + tmDdie m * 16 + d)
    if mayMessage s d m ∧ (p = 0 ∨ p = e.port.toNat + 1) then
      let s := if tmAsks m then { s with ten := { s.ten with open_ := s.ten.open_ ++ [m] } } else s
      issueMsg s d m
    else s)

/-- TENON_RD. -/
def execTenonRd (m : TMsg) (s : State) : Host.Outcome State Fault Refusal := messageIf 0x1 m s

/-- TENON_WR. -/
def execTenonWr (m : TMsg) (s : State) : Host.Outcome State Fault Refusal := messageIf 0x2 m s

/-- TENON_ATOM. -/
def execTenonAtom (m : TMsg) (s : State) : Host.Outcome State Fault Refusal := messageIf 0x3 m s

/-- TENON_PUSH. -/
def execTenonPush (m : TMsg) (s : State) : Host.Outcome State Fault Refusal := messageIf 0x4 m s

/-- TENON_TOKEN. -/
def execTenonToken (m : TMsg) (s : State) : Host.Outcome State Fault Refusal := messageIf 0x5 m s

/-- TENON_RDRSP. -/
def execTenonRdrsp (m : TMsg) (s : State) : Host.Outcome State Fault Refusal := messageIf 0x11 m s

/-- TENON_WRACK. -/
def execTenonWrack (m : TMsg) (s : State) : Host.Outcome State Fault Refusal := messageIf 0x12 m s

/-- TENON_COL. -/
def execTenonCol (m : TMsg) (s : State) : Host.Outcome State Fault Refusal := messageIf 0x20 m s

/-- TENON_FABIN. -/
def execTenonFabin (m : TMsg) (s : State) : Host.Outcome State Fault Refusal := messageIf 0x30 m s

/-- TENON_FABOUT. -/
def execTenonFabout (m : TMsg) (s : State) : Host.Outcome State Fault Refusal := messageIf 0x31 m s

/-- TENON_CRD. -/
def execTenonCrd (m : TMsg) (s : State) : Host.Outcome State Fault Refusal := messageIf 0x40 m s

/-- TENON_CWR. -/
def execTenonCwr (m : TMsg) (s : State) : Host.Outcome State Fault Refusal := messageIf 0x41 m s

end Sys2Proof.Machine
end

