-- ==== Sys2Proof/Machine/HostLink.lean ====
section
/-! DEFINITION. The host link: received frames and retry (R398 to R400), the host's transactions (R401, R402), and the DMA
queues at work (R403 to R406). -/

namespace Sys2Proof.Machine

/-! ### The link layer (R399, R400) -/

/-- Sends a NOP or a NAK. -/
def sendUnseq (s : State) (tt : Nat) : State :=
  let (st, s) := takeStamp s unitHostLink
  let f := { mkFrame tt 0 0 0 [] with w0 := BitVec.ofNat 64 (tt * 2 ^ 58 + hlLack s * 2 ^ 16), w2 := st }
  toWire { s with hl := { s.hl with unseq := f :: s.hl.unseq } } [f]

/-- A LACK covers an LSEQ: it is that one or a later one, modulo 65,536. -/
def lackCovers (ack seq : Nat) : Bool := decide ((ack + 65536 - seq) % 65536 < 32768)

/-- A LACK frees the frames it covers; waiting frames follow. -/
def takeLack (s : State) (ack : Nat) : State :=
  let rest := s.hl.replay.dropWhile (fun f => lackCovers ack (frSeq f))
  if rest.length = s.hl.replay.length then s
  else
    let s := { s with hl := { s.hl with replay := rest, tries := 0 } }
    settleAll (pumpFrames s s.hl.wait)

/-- Every frame after LACK goes again; the 16th time in a row, Bell H retrains. -/
def replayAll (s : State) : State :=
  if s.hl.replay.isEmpty then s
  else
    let s := toWire (rcount s aHlStatus 31 16 1) s.hl.replay
    let n := s.hl.tries + 1
    if n < 16 then { s with hl := { s.hl with tries := n } }
    else report (belTrain { s with hl := { s.hl with tries := 0 } } 6) unitHostLink 0xA002

/-- A transaction type that Table 14.2 does not list. -/
def ttReserved (tt : Nat) : Bool :=
  !([0, 1, 8, 9, 0xA, 0xB, 0xC, 0xD, 0x10, 0x18, 0x19, 0x1A, 0x1B, 0x20, 0x28].contains tt)

/-- Held work that a frame of the host brought, and a request that the host waits for. -/
def Work.isFrame : Work → Bool
  | .frame _ => true
  | _ => false

/-- A request of Table 14.2 that the host expects an answer to. -/
def isAsk (f : Frame) : Bool := [0x08, 0x09, 0x0C].contains (frTT f)

def Work.isAsk : Work → Bool
  | .frame f => Machine.isAsk f
  | _ => false

/-- The link goes DOWN: both replay buffers are empty, LSEQ starts again, and what was in flight ends with error. -/
def dropQueue (s : State) (q : Nat) : State :=
  let st := dqState s q
  let x := getDq s q
  let s := setDq s q { x with hrds := [], dfs := [] }
  if st = 1 then
    dqFault s q 0xA003 (match x.cur with
      | some d => dTag d
      | none => 0)
  else dqSettle s q

def linkDown (s : State) : State :=
  if hlState s ≠ 1 then s
  else
    let s := rset s aHlStatus 63 62 0
    let s := { s with
      waits := s.waits.filter (fun w => !w.work.isFrame)
      hl := { s.hl with replay := [], wait := [], answers := [], closes := [], next := 1, expect := 1, tries := 0 } }
    let s := (List.range 16).foldl dropQueue s
    alertCheck (report s unitHostLink 0xA003)

/-! ### Control accesses and pushes by the host (R401) -/

/-- The module owes the host an answer. In HOLD it waits with the rest (R400); only a link that is DOWN loses it. -/
def oweAnswer (s : State) (f : Frame) : State :=
  if hlState s = 0 then s else { s with hl := { s.hl with answers := s.hl.answers ++ [f] } }

/-- The region whose EN an access to `a` has cleared, while its close is in progress. -/
def closesRgn (was s : State) (a : Nat) : Option Nat :=
  (List.range 64).find? (fun n => a = aHbmRgnCtrl n && isClosing s n && !isClosing was n)

/-- The CACK of a write that clears EN returns only once the close is complete (R247, R270). -/
def holdClose (s : State) (f : Frame) (n : Option Nat) : State :=
  match n with
  | some n => { s with hl := { s.hl with closes := s.hl.closes ++ [(f, n)] } }
  | none => s

/-- An answer waits for the close of a region. -/
def closeWaits (s : State) (f : Frame) : Bool := s.hl.closes.any (fun c => c.1 = f && isClosing s c.2)

/-- RECOVERY refuses what it does not serve (R454); else the access `k`. -/
def served {α : Type} (s : State) (a : Nat) (none_ : Nat × State → α) (k : State → α) : α :=
  if barred s .host a then none_ (refuse s unitSecurity 0x9005) else k s

def hostWrite (s : State) (f : Frame) : State :=
  let was := s
  let a := f.w1.toNat
  let (c, s) := served s a id (fun s => write8 s .host a (BitVec.ofNat 64 (leNat (f.body.take 8))))
  let ans := mkFrame 0xA 0 (frTag f) (BitVec.ofNat 64 c) []
  oweAnswer (holdClose s ans (closesRgn was s a)) ans

def hostRead (s : State) (f : Frame) : State :=
  let a := f.w1.toNat
  let (v, c, s) := served s a noRead (fun s => read8 s .host a)
  oweAnswer s (mkFrame 0xB 8 (frTag f) (BitVec.ofNat 64 c) (wordLE (if c = 0 then v else 0)))

/-- The error code that goes with a push status: FENCED carries that of an access to an isolated die (Table 3.3). -/
def pushError (st : Nat) : Nat := if st = 6 then 0x3010 else 0

/-- A PUSH: its error code, its push status, and the state. -/
def hostPushes (s : State) (a : Nat) (b : List Byte) : Nat × Nat × State :=
  served s a (fun r => (r.1, 0, r.2)) (fun s =>
    match winAt a with
    | some (w, 0) =>
      let (st, s) := winPush s w (wordAt b 0) (wordAt b 8) (wordAt b 16) (wordAt b 24) none
      (pushError st, st, s)
    | _ =>
      let (c, s) := refuse s unitFirmware (if (areaOf a 32).isNone then 0x2001 else 0x20F0)
      (c, 0, s))

def hostPush (s : State) (f : Frame) : State :=
  let (c, st, s) := hostPushes s f.w1.toNat f.body
  oweAnswer s (mkFrame 0xD 0 (frTag f) (BitVec.ofNat 64 (c % 65536 * 65536 + st)) [])

/-- A request beyond the 64 unanswered is discarded. (DEDUCED, log entry 76.) -/
def hostAsks (s : State) (f : Frame) (k : State → Frame → State) : State :=
  if 64 ≤ s.hl.answers.length + (s.waits.filter (fun w => w.work.isAsk)).length then
    report s unitHostLink 0xA004 { tag := frTag f }
  else k s f

/-- Sends the next answer, if it is of type `tt`. -/
def sendAnswer (s : State) (tt : Nat) : State :=
  match s.hl.answers with
  | f :: rest =>
    if frTT f = tt ∧ hlUpNow s ∧ !closeWaits s f then
      sendFrame { s with hl := { s.hl with answers := rest, closes := s.hl.closes.filter (fun c => c.1 ≠ f) } } f
    else s
  | [] => s

/-- A DBELL writes TAIL. -/
def doorbell (s : State) (f : Frame) : State :=
  (wDqTail s (fld f.w1 3 0) (BitVec.ofNat 64 (leNat (f.body.take 2)))).2

/-! ### DMA (R403 to R406) -/

/-- HBM region 0 holds a range: all that RECOVERY lets DMA reach (R454). -/
def inRegion0 (s : State) (a len : Nat) : Bool :=
  decide (rgnBase s 0 ≤ a) && decide (a + len ≤ rgnBase s 0 + rgnSize s 0) && rgnEn s 0

def dmaBarred (s : State) (d : List Word) : Bool :=
  rf s aVrxState 63 60 = 1 && !(dOp d = 1 && inRegion0 s (dMaddr d) (dLen d))

/-- The slot that the queue fetches next. -/
def dqSlotAddr (s : State) (q : Nat) : Nat := rf s (aHlDqRing q) 51 0 + dqHead s q % dqSlots s q * 32

def dqAdvance (s : State) (q : Nat) : State := rset s (aHlDqPtr q) 31 16 ((dqHead s q + 1) % 65536)

/-- A tag of a queue's next request, with the queue's number in its upper bits. -/
def dqTag (s : State) (q : Nat) : Nat := q * 4096 + (getDq s q).reqs % 4096

/-- More descriptors stand posted, in a ring that lies where `loc` says. -/
def dqPosted (s : State) (q : Nat) (loc : Bool) : Bool :=
  dqState s q = 1 && rbit s (aHlDqRing q) 63 = loc && dqHead s q ≠ dqTail s q && dqSlots s q ≠ 0

/-- DFETCH: HEAD counts the descriptor as fetched (Table 14.16). (DEDUCED, log entry 74.) -/
def fetchDesc (s : State) (q : Nat) : State :=
  if !dqPosted s q false ∨ !hlUpNow s then s
  else
    let x := getDq s q
    let t := dqTag s q
    let a := dqSlotAddr s q
    let s := dqAdvance (setDq s q { x with dfs := x.dfs ++ [(t, [])], reqs := x.reqs + 1 }) q
    sendFrame s (mkFrame 0x18 32 t (BitVec.ofNat 64 a) [])

/-- The descriptor words that a DFETCH has brought, once all 32 bytes are there. -/
def fetchedDesc (gs : List Seg) : Option (List Word) :=
  match segBytes gs 0 32 with
  | some bs => some [wordAt bs 0, wordAt bs 8, wordAt bs 16, wordAt bs 24]
  | none => none

/-- Descriptors leave the DFETCH list in order as they are whole. -/
def takeFetched : List (Nat × List Seg) → List (List Word) → List (Nat × List Seg) × List (List Word)
  | [], ds => ([], ds)
  | (t, gs) :: rest, ds =>
    match fetchedDesc gs with
    | some d => takeFetched rest (ds ++ [d])
    | none => ((t, gs) :: rest, ds)

/-- Starts a descriptor. -/
def startDesc (s : State) (q : Nat) (d : List Word) : State :=
  if descInvalid d then dqFault s q 0xA011 (dTag d)
  else if dmaBarred s d then dqFault s q 0x9005 (dTag d)
  else setDq s q { getDq s q with cur := some d, pos := 0 }

/-- The queue starts its next descriptor, if that is one of OP `op` or is invalid; a ring at a local address is read now, as an
    LC read (R403). -/
def startNext (s : State) (q op : Nat) : State :=
  let x := getDq s q
  let mine (d : List Word) : Bool := dOp d = op || descInvalid d
  if dqState s q ≠ 1 ∨ x.cur.isSome then s
  else
    match x.fetched with
    | d :: rest => if mine d then startDesc (setDq s q { x with fetched := rest }) q d else s
    | [] =>
      if !dqPosted s q true ∨ !x.dfs.isEmpty then s
      else if heldBack s (memSpan (dqSlotAddr s q) 32) then callTiles s (memSpan (dqSlotAddr s q) 32)
      else
        let (bs, c, s') := memReadAs 0 s (.dma (BitVec.ofNat 4 q)) (dqSlotAddr s q) 32
        if c ≠ 0 then dqFault (dqAdvance s' q) q (Config.openCode 403).toNat 0
        else
          let d := [wordAt bs 0, wordAt bs 8, wordAt bs 16, wordAt bs 24]
          if mine d then startDesc (dqAdvance s' q) q d else s

/-- Bytes of HRDs outstanding in the module. -/
def hrdBytes (s : State) : Nat :=
  (List.range 16).foldl (fun n q => n + ((getDq s q).hrds.map (fun h => h.len)).foldl (· + ·) 0) 0

/-- The queue's next piece on the link: its OP, its first byte, its length. -/
def nextPiece (s : State) (q : Nat) : Option (List Word × Nat × Nat) :=
  let x := getDq s q
  match x.cur with
  | none => none
  | some d =>
    let n := Nat.min 512 (dLen d - x.pos)
    if dqState s q ≠ 1 ∨ n = 0 ∨ !hlUpNow s ∨ (dOp d = 1 ∧ 131072 < hrdBytes s + n) then none
    else some (d, x.pos, n)

/-- The queue whose turn it is: the one that holds the turn while 4 KiB are not spent, then the next that is ready. -/
def dqPick (s : State) : Option Nat :=
  let first := if s.hl.spent < 4096 then s.hl.turn else s.hl.turn + 1
  ((List.range 16).map (fun i => (first + i) % 16)).find? (fun q => (nextPiece s q).isSome)

/-- The queue has used `n` bytes of the link. -/
def dqSpend (s : State) (q n : Nat) : State :=
  if s.hl.turn = q ∧ s.hl.spent < 4096 then { s with hl := { s.hl with spent := s.hl.spent + n } }
  else { s with hl := { s.hl with turn := q, spent := n } }

/-- HRD: asks the host for the next bytes. -/
def askHost (s : State) (q : Nat) : State :=
  match nextPiece s q with
  | none => s
  | some (d, o, n) =>
    if dOp d ≠ 1 ∨ dqPick s ≠ some q then s
    else
      let x := getDq s q
      let t := dqTag s q
      let s := setDq s q { x with
        pos := o + n, reqs := x.reqs + 1
        hrds := x.hrds ++ [{ tag := t, addr := dMaddr d + o, len := n }] }
      sendFrame (dqSpend s q n) (mkFrame 0x19 n t (dHaddr d + BitVec.ofNat 64 o) [])

/-- HWR: sends the next bytes to the host. A read that fails stops the queue with its code; one by a channel that retrains
    waits (R268). -/
def sendHost (s : State) (q : Nat) : State :=
  match nextPiece s q with
  | none => s
  | some (d, o, n) =>
    if dOp d ≠ 2 ∨ dqPick s ≠ some q then s
    else if heldBack s (memSpan (dMaddr d + o) n) then callTiles s (memSpan (dMaddr d + o) n)
    else
      let (bs, c, s) := loadRead s (.dma (BitVec.ofNat 4 q)) (dMaddr d + o) n
      if c ≠ 0 then dqFault s q c (dTag d)
      else
        let x := getDq s q
        let t := dqTag s q
        let s := setDq s q { x with pos := o + n, reqs := x.reqs + 1 }
        sendFrame (dqSpend s q n) (mkFrame 0x1B n t (dHaddr d + BitVec.ofNat 64 o) bs)

/-- A DMA write at the module: memory, the atomic window, or one aligned register. -/
def dmaWrite (s : State) (q a : Nat) (bs : List Byte) : Nat × State :=
  if bs.length = 8 ∧ a % 8 = 0 ∧ areaOf a 8 = some .ctl ∧ !inWindow a 8 then
    ctlWrite s .host a (BitVec.ofNat 64 (leNat bs))
  else dataWrite s (.dma (BitVec.ofNat 4 q)) a bs 0x20F0

/-- The TAG of the descriptor in progress. -/
def curTag (s : State) (q : Nat) : Nat :=
  match (getDq s q).cur with
  | some d => dTag d
  | none => 0

/-- A queue that runs stops with a code; one that has stopped settles. (DEDUCED, log entry 75.) -/
def dqStops (s : State) (q code : Nat) : State := if dqState s q = 1 then dqFault s q code (curTag s q) else dqSettle s q

/-- HDATA for an HRD: bytes past the request's end are dropped. -/
def hrdData (s : State) (q : Nat) (h : Hrd) (off : Nat) (body : List Byte) : State :=
  let bs := body.take (h.len - off)
  let (c, s) := if bs = [] then (0, s) else dmaWrite s q (h.addr + off) bs
  let x := getDq s q
  let got := h.got + bs.length
  let hs := x.hrds.map (fun y => if y.tag = h.tag then { y with got := got } else y)
  let s := setDq s q { x with hrds := hs.filter (fun y => y.got < y.len) }
  if c ≠ 0 then dqStops s q c else dqSettle s q

/-- HDATA for a DFETCH. -/
def fetchData (s : State) (q tag off : Nat) (body : List Byte) : State :=
  let x := getDq s q
  let dfs := x.dfs.map (fun y => if y.1 = tag then (y.1, y.2 ++ [⟨off, body⟩]) else y)
  let (dfs, ds) := takeFetched dfs []
  dqSettle (setDq s q { x with dfs := dfs, fetched := if dqState s q = 1 then x.fetched ++ ds else x.fetched }) q

def hostData (s : State) (f : Frame) : State :=
  let q := frTag f / 4096
  let x := getDq s q
  let off := fld f.w1 47 0
  match x.hrds.find? (fun h => h.tag = frTag f), x.dfs.any (fun y => y.1 = frTag f) with
  | none, false => s
  | some h, _ =>
    if fld f.w1 63 48 ≠ 0 then dqStops (setDq s q { x with hrds := x.hrds.filter (fun y => y.tag ≠ frTag f) }) q 0xA010
    else hrdData s q h off f.body
  | none, true =>
    if fld f.w1 63 48 ≠ 0 then dqStops (setDq s q { x with dfs := x.dfs.filter (fun y => y.1 ≠ frTag f) }) q 0xA010
    else fetchData s q (frTag f) off f.body

/-- The NOTE of a descriptor: its token, then its event. A token that the tile discards ends the descriptor with error. -/
def descNote (s : State) (q : Nat) (d : List Word) : State :=
  let w := d.getD 0 0
  let n := if 2 ≤ dNote d then fld w 40 33 else 0
  let t := fld w 57 45
  let c := tokenCode s t n
  let s := token s t (fld w 44 41) n
  if c ≠ 0 then dqFault s q c (dTag d)
  else
    let s := setDq s q { getDq s q with cur := none }
    let s := if dNote d % 2 = 1 then report s (dqUnit q) Config.noteCode.toNat { event := true, tag := dTag d } else s
    dqSettle s q

/-- The descriptor in progress has moved every byte. -/
def descDone (s : State) (q : Nat) : State :=
  let x := getDq s q
  match x.cur with
  | none => s
  | some d =>
    if dqState s q = 1 ∧ x.pos = dLen d ∧ x.hrds.isEmpty ∧ !hwrOut s q then descNote s q d else s

/-! ### Frames from the host -/

/-- The HBM that a frame's transaction reads or writes. -/
def frameSpans (s : State) (f : Frame) : List (Nat × Nat) :=
  match frTT f with
  | 0x08 => memSpan f.w1.toNat 8
  | 0x09 => memSpan f.w1.toNat 8
  | 0x1A =>
    match (getDq s (frTag f / 4096)).hrds.find? (fun h => h.tag = frTag f) with
    | some h =>
      let off := fld f.w1 47 0
      if fld f.w1 63 48 ≠ 0 then [] else writeSpans (h.addr + off) (f.body.take (h.len - off))
    | none => []
  | _ => []

/-- A frame's transaction waits: for a channel that retrains (R268), or, where R401 puts the host's requests in order, behind a
    request that does. A DBELL keeps that order as the write that it stands for (R403). -/
def frameWaits (s : State) (f : Frame) : Bool :=
  heldBack s (frameSpans s f) || ((isAsk f || frTT f = 0x10) && s.waits.any (fun w => w.work.isAsk))

/-- What a frame in order does, once no earlier one that it must follow waits. -/
def perFrame (s : State) (f : Frame) : State :=
  match frTT f with
  | 0x08 => hostWrite s f
  | 0x09 => hostRead s f
  | 0x0C => hostPush s f
  | 0x10 => doorbell s f
  | 0x1A => hostData s f
  | 0x28 => takeIn s (packetOf f.body) 14
  | tt => if ttReserved tt then report s unitHostLink 0xA004 { tag := frTag f } else s

def takeFrame (s : State) (f : Frame) : State :=
  if frameWaits s f then holdWork s (frameSpans s f) (.frame f) else perFrame s f

/-- The transaction that a frame in order carries. -/
def transact (s : State) (f : Frame) : State := if isAsk f then hostAsks s f takeFrame else takeFrame s f

/-- A frame arrives while the link is UP. (DEDUCED, log entry 78.) -/
def frameArrives (s : State) (f : Frame) : State :=
  if !hlUpNow s then s
  else if !f.crcOk then sendUnseq s 1
  else if frTT f = 0 then takeLack s (frAck f)
  else if frTT f = 1 then replayAll (takeLack s (frAck f))
  else if frSeq f ≠ s.hl.expect then sendUnseq s 1
  else transact (takeLack { s with hl := { s.hl with expect := (s.hl.expect + 1) % 65536 } } (frAck f)) f

/-- A frame of type `tt`, or of a reserved type, arrives. -/
def frameIf (tt : Nat) (f : Frame) (s : State) : Host.Outcome State Fault Refusal :=
  .next (if frTT f = tt ∨ ttReserved (frTT f) then frameArrives s f else s)

/-! ### Lane blocks (R355, R356) -/

/-- Frames of a block that its FEC makes the receiver discard: those it would else have completed (R399).
    (DEDUCED, log entry 79.) -/
def framesLost (s : State) (b l : Nat) (blk : LaneBlock) (got : Nat) : Nat :=
  if belState s b = 5 ∧ blk.mode = 1 then
    (walkCells true { blk with errs := [] } blk.cells 0 (tget [] (getBell s b).part l)).1.length - got
  else 0

/-- Bell H NAKs each frame that it discards. -/
def nakLost (s : State) : Nat → State
  | 0 => s
  | n + 1 => nakLost (if hlUpNow s then sendUnseq s 1 else s) n

/-- A control message: STAT, CREDIT or TIME (Table 12.8). -/
def takeMessage72 (s : State) (b : Nat) (m : List Byte) : State :=
  match leNat (m.take 1) with
  | 1 => takeStat s b (statOf m)
  | 2 => takeCredit s b (creditOf m)
  | 3 => if b < 6 then takeTime s b (wordAt m 8) else s
  | _ => s

/-- A lane block: FEC counts, then its packets or frames, then its control messages. -/
def laneBlock (s : State) (b l : Nat) (blk : LaneBlock) : State :=
  if 6 < b ∨ belState s b = 0 ∨ !(lanesOf b).contains l then s
  else
    let s := blockFec s b l blk
    let s0 := s
    let (ps, s) := blockPackets s b l blk
    let s := if b = 6 then nakLost s (framesLost s0 b l blk ps.length) else s
    let s := ps.foldl (fun s bs => if b = 6 then frameArrives s (frameOf bs) else takeIn s (packetOf bs) b) s
    if (blockBad blk).getLsbD 0 then s else blk.ctl.foldl (fun s m => takeMessage72 s b m) s

/-! ### Commands -/

/-- NOP: a frame of type 0x00 arrives from the host. -/
def execNop (f : Frame) (s : State) : Host.Outcome State Fault Refusal := frameIf 0x00 f s

/-- NAK: a frame of type 0x01 arrives from the host. -/
def execNak (f : Frame) (s : State) : Host.Outcome State Fault Refusal := frameIf 0x01 f s

/-- CWR: a frame of type 0x08 arrives from the host. -/
def execCwr (f : Frame) (s : State) : Host.Outcome State Fault Refusal := frameIf 0x08 f s

/-- CRD: a frame of type 0x09 arrives from the host. -/
def execCrd (f : Frame) (s : State) : Host.Outcome State Fault Refusal := frameIf 0x09 f s

/-- PUSH: a frame of type 0x0c arrives from the host. -/
def execPush (f : Frame) (s : State) : Host.Outcome State Fault Refusal := frameIf 0x0c f s

/-- DBELL: a frame of type 0x10 arrives from the host. -/
def execDbell (f : Frame) (s : State) : Host.Outcome State Fault Refusal := frameIf 0x10 f s

/-- HDATA: a frame of type 0x1a arrives from the host. -/
def execHdata (f : Frame) (s : State) : Host.Outcome State Fault Refusal := frameIf 0x1a f s

/-- FAB: a frame of type 0x28 arrives from the host. -/
def execFab (f : Frame) (s : State) : Host.Outcome State Fault Refusal := frameIf 0x28 f s

/-- CACK: the module sends its next answer, if it is of this type. -/
def execCack (s : State) : Host.Outcome State Fault Refusal := .next (sendAnswer s 0xa)

/-- CRSP: the module sends its next answer, if it is of this type. -/
def execCrsp (s : State) : Host.Outcome State Fault Refusal := .next (sendAnswer s 0xb)

/-- PSTAT: the module sends its next answer, if it is of this type. -/
def execPstat (s : State) : Host.Outcome State Fault Refusal := .next (sendAnswer s 0xd)

/-- DFETCH. -/
def execDfetch (q : BitVec 4) (s : State) : Host.Outcome State Fault Refusal := .next (fetchDesc s q.toNat)

/-- HRD. -/
def execHrd (q : BitVec 4) (s : State) : Host.Outcome State Fault Refusal := .next (askHost s q.toNat)

/-- HWR. -/
def execHwr (q : BitVec 4) (s : State) : Host.Outcome State Fault Refusal := .next (sendHost s q.toNat)

/-- DMA_DESCRIPTOR_COMPLETE. -/
def execDmaDescriptorComplete (q : BitVec 4) (s : State) : Host.Outcome State Fault Refusal := .next (descDone s q.toNat)

/-- H2M: a queue starts its next descriptor. -/
def execH2m (q : BitVec 4) (s : State) : Host.Outcome State Fault Refusal := .next (startNext s q.toNat 1)

/-- M2H: a queue starts its next descriptor. -/
def execM2h (q : BitVec 4) (s : State) : Host.Outcome State Fault Refusal := .next (startNext s q.toNat 2)

/-- LINK_REPLAY_TIMEOUT: LACK has not advanced for 8 µs. (DESIGN CHOICE, log entry 12.) -/
def execLinkReplayTimeout (s : State) : Host.Outcome State Fault Refusal :=
  .next (if hlUpNow s then replayAll s else s)

/-- NOP_TIMER. -/
def execNopTimer (s : State) : Host.Outcome State Fault Refusal := .next (if hlUpNow s then sendUnseq s 0 else s)

/-- HOST_LINK_HOLD_TIMEOUT: 1 s out of UP. -/
def execHostLinkHoldTimeout (s : State) : Host.Outcome State Fault Refusal := .next (linkDown s)

/-- LANE_BLOCK. -/
def execLaneBlock (b : BitVec 3) (l : BitVec 5) (blk : LaneBlock) (s : State) : Host.Outcome State Fault Refusal :=
  .next (laneBlock s b.toNat l.toNat blk)

end Sys2Proof.Machine
end

