-- ==== Sys2Proof/Machine/Resume.lean ====
section
/-! DEFINITION. The work that a retraining channel or a stopped cluster has held back goes on in the order of its acceptance
(R95, R264, R268), and with it the commands that end such a wait. -/

namespace Sys2Proof.Machine

/-- Held work is taken up again: it is performed, or held anew. -/
def Work.redo (s : State) : Work → State
  | .access r => takeRequest s r
  | .record req w0 w1 w2 w3 => takeRecord s req w0 w1 w2 w3
  | .packet n p port => if contextFits s p then perform s n p port else s
  | .cast p port => forward s p port
  | .col p put => takeCol s p put
  | .message m => takeMessage s m
  | .frame f => takeFrame s f
  | .bundle a => retry s a
  | .token t sem n => Machine.token s t sem n
  | .write req a v => takeWrite s req a v

/-- One piece of held work; what the map gave it when it was accepted, it still has (R247). -/
def Waiter.redo (s : State) (w : Waiter) : State :=
  if w.spans.isEmpty then w.work.redo s else beforeClose s (fun s => w.work.redo s)

/-- All held work in order; what must still wait stays in that order. -/
def pumpWork (s : State) : State :=
  if s.waits.isEmpty then s else s.waits.foldl Waiter.redo { s with waits := [] }

/-- CLUSTER_CLOCK_START: what the cluster's gate holds is delivered in the order of its arrival (R95). -/
def execClusterClockStart (c : BitVec 6) (s : State) : Host.Outcome State Fault Refusal := .next (pumpWork (startClock s c.toNat))

/-- RETRAINING_END: `us` is the duration in µs. The accesses that waited go on (R268). -/
def execRetrainingEnd (c : BitVec 9) (us : BitVec 16) (s : State) : Host.Outcome State Fault Refusal :=
  .next (if chanHolds s c.toNat then pumpWork (endRetrain s c.toNat us.toNat) else s)

/-- RETRAINING_FAILURE: the accesses that waited meet a DOWN channel (R269). -/
def execRetrainingFailure (c : BitVec 9) (s : State) : Host.Outcome State Fault Refusal :=
  .next (if chanHolds s c.toNat then pumpWork (failRetrain s c.toNat) else s)

end Sys2Proof.Machine
end

