-- ==== Sys2Proof/Machine/Cycle.lean ====
section
/-! DEFINITION. What one cycle of the Drone reference does where no command waits (DESIGN CHOICE, log entry 13): the time base
moves on (R36), the aborts of the lanes, the Reeds and the DMA queues that have nothing outstanding end, and held work whose
channel holds it no longer goes on. -/

namespace Sys2Proof.Machine

/-- The lanes leave ABORTING (R392). -/
def endLaneAborts (s : State) : State :=
  { s with chn := { s.chn with lanes := tmap {} (fun _ x => { x with aborting := false }) s.chn.lanes } }

/-- A register that holds a Reed's or a DMA queue's STATE lets its abort end. -/
def endAbortAt (s : State) (a : Nat) : State :=
  let n := (a - aReedStatus 0) / 0x40
  let q := (a - aHlDqCtrl 0) / 0x20
  if a = aReedStatus n ∧ n < 512 then reedEndAbort s n
  else if a = aHlDqCtrl q ∧ q < 16 then dqEndAbort s q
  else s

/-- ABORTING lasts at least to the end of the cycle in which the abort arrives, so that a TAIL write or a push of the same
    cycle is refused (R238, R392, R419). (DESIGN CHOICE, log entry 36.) -/
def endAborts (s : State) : State := (s.regs.map (·.1)).foldl endAbortAt (endLaneAborts s)

/-- One reference cycle, 40 ns; nothing moves while the Drone domain is off. -/
def refCycle (s : State) : State := if s.pins.drone then pumpWork (endAborts (tickOnce s)) else s

end Sys2Proof.Machine
end

