-- ==== Sys2Proof/Machine/Mgmt.lean ====
section
/-! DEFINITION. The management port and SMBus (R415 to R418, R502, R484, Tables 14.6 to 14.8 and 14.17). Both live in the
Drone domain. -/

namespace Sys2Proof.Machine

/-- The thermal record as the management paths show it: zeros where flash holds no uncleared one (R442). -/
def shownRecord (s : State) : List Byte := (thermalRec s).getD (List.replicate 4096 0)

/-! ### The management port (R415 to R417) -/

/-- The service that the port offers: UDP port 24,880 at both ends, and messages of at most 1,232 B that begin with MAGIC and
    VER (R415, Table 14.6). -/
def mgtHears (s : State) (d : Datagram) : Bool :=
  s.pins.drone && d.sport = 24880 && d.dport = 24880 && decide (16 ≤ d.data.length) && decide (d.data.length ≤ 1232) &&
  leNat (d.data.take 2) = 0x4E38 && leNat ((d.data.drop 2).take 1) = 1

/-- TYPE and body of a message. -/
def mgtType (d : Datagram) : Nat := leNat ((d.data.drop 3).take 1)
def mgtBody (d : Datagram) : List Byte := d.data.drop 16

/-- A datagram that carries a message of one TYPE meets `f`; any other is discarded without an answer (Table 14.7). -/
def mgtIf (type : Nat) (f : State → State) (d : Datagram) (s : State) : Host.Outcome State Fault Refusal :=
  .next (if mgtHears s d ∧ mgtType d = type then f s else s)

/-- Answers the sender of a message. -/
def mgtAnswer (s : State) (d : Datagram) (type : Nat) (body : List Byte) : State := mgtSend s type d.sender body

/-- HELLO's body: the IDENT item, SITE, host-link state, THERMAL-HOLD, SLOT_ID (R21), DRN_ALIGN (DESIGN CHOICE, log entry 49). -/
def helloBody (s : State) : List Byte :=
  identItem s ++ natLE 1 (rf s aMgtSite 62 62) ++ natLE 1 (hlState s) ++ natLE 1 (rf s aThmHold 63 63) ++
    natLE 1 s.pins.slot.toNat ++ wordLE (readAlign s)

def sendHello (s : State) : State := if s.pins.drone then mgtSend s 1 (mgtDest s) (helloBody s) else s

/-- One entry of a READ: its status and its 8 bytes. Memory is a debug access (R484). (DEDUCED, log entry 80.) -/
def mgtRead (s : State) (a : Nat) : Word × Nat × State :=
  match areaOf a 8 with
  | some .ctl => ctlRead s .mgmt a
  | none => noRead (offMap s .mgmt a)
  | some _ =>
    if !rbit s aSecCtrl 1 then noRead (refuse s unitFirmware 0x9029)
    else if !s.pins.core then (0, (Config.openCode 24).toNat, s)
    else read8 s .mgmt a

/-- The entries of RDATA, in order. -/
def readEntries : List Word → State → List Byte × State
  | [], s => ([], s)
  | a :: as_, s =>
    let (v, c, s) := mgtRead s a.toNat
    let (bs, s) := readEntries as_ s
    (natLE 2 c ++ wordLE (if c = 0 then v else 0) ++ bs, s)

/-- The addresses of a READ. -/
def mgtAddrs (bs : List Byte) : List Word := (List.range (bs.length / 8)).map (fun i => wordAt bs (8 * i))

/-- READ: up to 64 whole addresses. -/
def mgtReads (s : State) (d : Datagram) : State :=
  let b := mgtBody d
  if 512 < b.length ∨ b.length % 8 ≠ 0 then s
  else
    let (bs, s) := readEntries (mgtAddrs b) s
    mgtAnswer s d 4 bs

/-- The registers that a management WRITE may reach (R417). -/
def mgtWritable (a : Nat) : Bool :=
  match regAt a with
  | some r =>
    match r.kind with
    | .belCtrl => true
    | .chnLaneCtrl => true
    | .tileCtrl => true
    | .tileIbank => true
    | .mgtCtrl => true
    | .mgtKfn => true
    | _ => false
  | none => false

/-- WRITE: one address and 8 B of data. The sender is MGT_FM where FMV is 1 and the addresses agree (R417). -/
def mgtWrites (s : State) (d : Datagram) : State :=
  let b := mgtBody d
  if b.length ≠ 16 then s
  else
    let a := (wordAt b 0).toNat
    let (c, s) :=
      if d.sender = fmAddr s ∧ rbit s aMgtSite 60 ∧ rbit s aMgtSite 62 ∧ mgtWritable a then ctlWrite s .mgmt a (wordAt b 8)
      else refuse s unitFirmware 0xA040
    mgtAnswer s d 6 (natLE 2 c)

/-- TREC: TDATA holds up to 1,024 bytes of the record from the offset. -/
def sendRecordPart (s : State) (d : Datagram) : State :=
  mgtAnswer s d 8 (((shownRecord s).drop (leNat (mgtBody d))).take 1024)

/-- The link-local address of the EUI-64 rule: fe80::/64, then the MAC address with its universal bit turned and
    ff:fe in its middle. (PRESUMED, log entry 111.) -/
def linkLocal (s : State) : Nat :=
  let m := ((identItem s).drop 8).map (fun b => b.toNat)
  let b (i : Nat) : Nat := m.getD i 0
  [b 0 ^^^ 2, b 1, b 2, 0xFF, 0xFE, b 3, b 4, b 5].foldl (fun n x => n * 256 + x) (0xFE80 * 2 ^ 48)

/-! ### SMBus (R418, R502) -/

/-- The module's SMBus address: 0x58 plus the value that SLOT_ID was read to have at cold start (R20). -/
def smbAddr (s : State) : Nat := 0x58 + s.pins.slot.toNat

/-- CRC-8 by x^8 + x^2 + x + 1, most significant bit first. -/
def crc8Shift : Nat → Nat → Nat
  | 0, c => c
  | n + 1, c => crc8Shift n (if 128 ≤ c then (c * 2 % 256) ^^^ 7 else c * 2)

/-- The packet error code: over every byte of the transfer, the address bytes among them. (PRESUMED, log entry 139.) -/
def smbPec (bs : List Byte) : Byte := BitVec.ofNat 8 (bs.foldl (fun c b => crc8Shift 8 (c ^^^ b.toNat)) 0)

/-- The address byte of a write, or of a read. -/
def smbAddrByte (s : State) (read : Bool) : Byte := BitVec.ofNat 8 (smbAddr s * 2 + if read then 1 else 0)

/-- A NACK. -/
def smbNack (s : State) : State := { s with mgt := { s.mgt with smbOut := ([], 0) :: s.mgt.smbOut } }

/-- The target answers a read of command `code` with data and their packet error code; a block's byte count goes before them. -/
def smbPut (s : State) (code : Byte) (block : Bool) (bs : List Byte) : State :=
  let sent := (if block then [BitVec.ofNat 8 bs.length] else []) ++ bs
  let pec := smbPec ([smbAddrByte s false, code, smbAddrByte s true] ++ sent)
  { s with mgt := { s.mgt with smbOut := (bs, pec) :: s.mgt.smbOut } }

/-- A write's packet error code, where it has one, is right. -/
def smbGood (s : State) (m : SmbCmd) (bs : List Byte) : Bool :=
  m.pec.isNone || m.pec = some (smbPec ([smbAddrByte s false, m.code] ++ bs))

def smbIdent (s : State) : List Byte :=
  let w := regGet s aParamId
  natLE 2 (fld w 63 48) ++ natLE 1 (fld w 39 36 * 16 + fld w 35 32) ++ natLE 1 (fld w 47 40) ++ identItem s ++
    List.replicate 14 0

def smbStatus (s : State) : Nat :=
  flagBit s.pins.pwrGood 0 + flagBit (hlUpNow s) 1 + flagBit (rbit s aThmHold 63) 2 + flagBit (rbit s aMgtSite 62) 3 +
    s.pins.slot.toNat * 16

def greatest : List Int → Option Int
  | [] => none
  | x :: xs =>
    match greatest xs with
    | some y => some (if y < x then x else y)
    | none => some x

def least (xs : List Int) : Option Int := (greatest (xs.map (fun x => -x))).map (fun x => -x)

/-- A temperature byte in °C; undefined where the last sample holds no such reading (DESIGN CHOICE, log entry 42). -/
def tempByte (s : State) (k : Nat) : Option Int → Byte
  | some t => BitVec.ofInt 8 t
  | none => Config.freeByte (s.free + k)

/-- TEMPS: dies, the hottest stack, the hottest Bell, the coolant-side estimate, 0. -/
def smbTemps (s : State) : List Byte :=
  let now := s.thm.hist.head?
  let reads (d : Nat) : List Int := if now.isSome then (validReads s d).map (fun t => t / 16) else []
  let dies := (List.range 12).map (fun d => tempByte s d (greatest (reads d)))
  let stack := greatest ((now.map (fun x => x.stackT)).getD [])
  let bell := greatest ((now.map (fun x => x.bells)).getD [])
  dies ++ [tempByte s 12 stack, tempByte s 13 bell, tempByte s 14 (least ((List.range 12).flatMap reads)), 0]

/-- TRDATA: 32 bytes, and the offset moves on. -/
def smbTrdata (s : State) : State :=
  let o := s.mgt.smbOff
  let s := smbPut s 3 true (((shownRecord s).drop o).take 32)
  { s with mgt := { s.mgt with smbOff := (o + 32) % 4096 } }

/-- TROFF: a bad offset, or a bad packet error code, is NACKed. -/
def smbTroff (s : State) (m : SmbWord) : State :=
  let v := m.value.toNat
  if v % 32 ≠ 0 ∨ 4096 ≤ v ∨ !smbGood s m.toSmbCmd (natLE 2 v) then smbNack s else { s with mgt := { s.mgt with smbOff := v } }

/-- ALERTMASK: a write, or a read. -/
def smbMask (s : State) (m : SmbByte) : State :=
  match m.write with
  | some v => if smbGood s m.toSmbCmd [v] then alertCheck { s with mgt := { s.mgt with smbMask := v.setWidth 4 } } else smbNack s
  | none => smbPut s 5 false [s.mgt.smbMask.setWidth 8]

/-- The Alert Response Address, 0x0C: a module whose ALERT_N is low answers with its own address, and ALERT_N goes high when
    no condition is pending (R20, R22). (PRESUMED, log entry 139.) -/
def alertResponse (s : State) : State :=
  if !s.mgt.alert then s
  else
    let a : Byte := BitVec.ofNat 8 (smbAddr s * 2)
    { s with mgt := { s.mgt with alert := alertPending s, smbOut := ([a], smbPec [0x19, a]) :: s.mgt.smbOut } }

/-- A read without operands is one of the module's own address with its own code. SMBus works while the Drone domain has
    power (DEDUCED, log entry 81). -/
def smbRead (f : State → State) (s : State) : Host.Outcome State Fault Refusal := .next (if s.pins.drone then f s else s)

/-- A transfer that carries its address and code: one sent to another address does not reach the module; a code that
    Table 14.8 does not list is NACKed (R418). -/
def smbus (code : Nat) (m : SmbCmd) (f : State → State) (s : State) : Host.Outcome State Fault Refusal :=
  .next (
    if !s.pins.drone ∨ m.addr.toNat ≠ smbAddr s then s
    else if m.code.toNat = code then f s
    else if 5 < m.code.toNat then smbNack s
    else s)

/-! ### Commands -/

/-- HELLO. -/
def execHello (s : State) : Host.Outcome State Fault Refusal := .next (sendHello s)

/-- MGT_READ: answered by RDATA. -/
def execMgtRead (d : Datagram) (s : State) : Host.Outcome State Fault Refusal := mgtIf 3 (fun s => mgtReads s d) d s

/-- MGT_WRITE: answered by WACK. The datagram comes with its sender, its source and destination ports, and its bytes. -/
def execMgtWrite (sender : BitVec 128) (ports : BitVec 16 × BitVec 16) (data : List Byte) (s : State) :
    Host.Outcome State Fault Refusal :=
  let d : Datagram := { sender := sender, sport := ports.1, dport := ports.2, data := data }
  mgtIf 5 (fun s => mgtWrites s d) d s

/-- TREC: answered by TDATA. -/
def execTrec (d : Datagram) (s : State) : Host.Outcome State Fault Refusal := mgtIf 7 (fun s => sendRecordPart s d) d s

/-- NEIGHBOUR_SOLICITATION: answered for the module's own address alone. -/
def execNeighbourSolicitation (target : BitVec 128) (s : State) : Host.Outcome State Fault Refusal :=
  .next (if s.pins.drone ∧ target.toNat = linkLocal s then { s with mgt := { s.mgt with nbAnswers := s.mgt.nbAnswers + 1 } } else s)

/-- IDENT. -/
def execIdent (s : State) : Host.Outcome State Fault Refusal := smbRead (fun s => smbPut s 0 true (smbIdent s)) s

/-- SMBUS_STATUS. -/
def execSmbusStatus (s : State) : Host.Outcome State Fault Refusal :=
  smbRead (fun s => smbPut s 1 false (natLE 2 (smbStatus s))) s

/-- TEMPS. -/
def execTemps (s : State) : Host.Outcome State Fault Refusal :=
  smbRead (fun s => drawn (smbPut s 2 true (smbTemps s)) 15) s

/-- TRDATA. -/
def execTrdata (s : State) : Host.Outcome State Fault Refusal := smbRead smbTrdata s

/-- TROFF. -/
def execTroff (m : SmbWord) (s : State) : Host.Outcome State Fault Refusal := smbus 4 m.toSmbCmd (fun s => smbTroff s m) s

/-- ALERTMASK. -/
def execAlertmask (m : SmbByte) (s : State) : Host.Outcome State Fault Refusal := smbus 5 m.toSmbCmd (fun s => smbMask s m) s

/-- ALERT_RESPONSE_ADDRESS. -/
def execAlertResponseAddress (s : State) : Host.Outcome State Fault Refusal :=
  .next (if s.pins.drone then alertResponse s else s)

end Sys2Proof.Machine
end

