-- ==== Sys2Proof/Machine/Dispatch.lean ====
section
/-! DEFINITION. The commands: one arm per constructor of Instr, each one call of its meaning. -/

namespace Sys2Proof.Machine

/-- The effect of a command on everything but the queue. -/
def exec (i : Instr) (s : State) : Host.Outcome State Fault Refusal :=
  match i with
  | .inputRise46v => Sys2Proof.Machine.execInputRise46v s
  | .bulkCapacitanceCharged slot => Sys2Proof.Machine.execBulkCapacitanceCharged slot s
  | .inputLowBand => Sys2Proof.Machine.execInputLowBand s
  | .inputHighBand => Sys2Proof.Machine.execInputHighBand s
  | .inputOvervoltage vin => Sys2Proof.Machine.execInputOvervoltage vin s
  | .powerLoss => Sys2Proof.Machine.execPowerLoss s
  | .holdUpExpiry => Sys2Proof.Machine.execHoldUpExpiry s
  | .modResetNLow => Sys2Proof.Machine.execModResetNLow s
  | .modResetNHigh => Sys2Proof.Machine.execModResetNHigh s
  | .coreRailsInRegulation => Sys2Proof.Machine.execCoreRailsInRegulation s
  | .railRegulationTimeout => Sys2Proof.Machine.execRailRegulationTimeout s
  | .railOutOfRegulation => Sys2Proof.Machine.execRailOutOfRegulation s
  | .mreset req => Sys2Proof.Machine.execMreset req s
  | .bootSequence b => Sys2Proof.Machine.execBootSequence b s
  | .ident => Sys2Proof.Machine.execIdent s
  | .smbusStatus => Sys2Proof.Machine.execSmbusStatus s
  | .temps => Sys2Proof.Machine.execTemps s
  | .trdata => Sys2Proof.Machine.execTrdata s
  | .troff m => Sys2Proof.Machine.execTroff m s
  | .alertmask m => Sys2Proof.Machine.execAlertmask m s
  | .alertResponseAddress => Sys2Proof.Machine.execAlertResponseAddress s
  | .timeAlignmentFrameSend => Sys2Proof.Machine.execTimeAlignmentFrameSend s
  | .time port tx => Sys2Proof.Machine.execTime port tx s
  | .launchPush t e w0 w1 w2 w3 req => Sys2Proof.Machine.execLaunchPush t e w0 w1 w2 w3 req s
  | .groupPush g e w0 w1 w2 w3 req => Sys2Proof.Machine.execGroupPush g e w0 w1 w2 w3 req s
  | .entryStart a => Sys2Proof.Machine.execEntryStart a s
  | .entrySignal a => Sys2Proof.Machine.execEntrySignal a s
  | .semaphoreWaitGrant a => Sys2Proof.Machine.execSemaphoreWaitGrant a s
  | .tokenArrival t sem n => Sys2Proof.Machine.execTokenArrival t sem n s
  | .tileSemaddWrite req t value => Sys2Proof.Machine.execTileSemaddWrite req t value s
  | .tileSemWrite req t n value => Sys2Proof.Machine.execTileSemWrite req t n value s
  | .engineAbort req t mask => Sys2Proof.Machine.execEngineAbort req t mask s
  | .engineAbortComplete a => Sys2Proof.Machine.execEngineAbortComplete a s
  | .tileReset req t => Sys2Proof.Machine.execTileReset req t s
  | .tileGrpWrite req g value => Sys2Proof.Machine.execTileGrpWrite req g value s
  | .gbarRelease g e => Sys2Proof.Machine.execGbarRelease g e s
  | .tileClockGate t => Sys2Proof.Machine.execTileClockGate t s
  | .tileActivation t => Sys2Proof.Machine.execTileActivation t s
  | .clusterClockStop cl => Sys2Proof.Machine.execClusterClockStop cl s
  | .clusterClockStart cl => Sys2Proof.Machine.execClusterClockStart cl s
  | .endOp a rest => Sys2Proof.Machine.execEndOp a rest s
  | .j a off rest => Sys2Proof.Machine.execJ a off rest s
  | .jal a xd off rest => Sys2Proof.Machine.execJal a xd off rest s
  | .jr a xa rest => Sys2Proof.Machine.execJr a xa rest s
  | .beq a xa xb off rest => Sys2Proof.Machine.execBeq a xa xb off rest s
  | .bne a xa xb off rest => Sys2Proof.Machine.execBne a xa xb off rest s
  | .blt a xa xb off rest => Sys2Proof.Machine.execBlt a xa xb off rest s
  | .bge a xa xb off rest => Sys2Proof.Machine.execBge a xa xb off rest s
  | .bltu a xa xb off rest => Sys2Proof.Machine.execBltu a xa xb off rest s
  | .bgeu a xa xb off rest => Sys2Proof.Machine.execBgeu a xa xb off rest s
  | .loop a xa lc exit rest => Sys2Proof.Machine.execLoop a xa lc exit rest s
  | .loopi a lc exit count rest => Sys2Proof.Machine.execLoopi a lc exit count rest s
  | .lcset a xa lc rest => Sys2Proof.Machine.execLcset a xa lc rest s
  | .wait a sem n rest => Sys2Proof.Machine.execWait a sem n rest s
  | .signal a sem n rest => Sys2Proof.Machine.execSignal a sem n rest s
  | .signalt a sem n tile rest => Sys2Proof.Machine.execSignalt a sem n tile rest s
  | .drain a rest => Sys2Proof.Machine.execDrain a rest s
  | .gbar a rest => Sys2Proof.Machine.execGbar a rest s
  | .swapb a target rest => Sys2Proof.Machine.execSwapb a target rest s
  | .bankSwap t => Sys2Proof.Machine.execBankSwap t s
  | .hostBankSwap req t => Sys2Proof.Machine.execHostBankSwap req t s
  | .trap a code rest => Sys2Proof.Machine.execTrap a code rest s
  | .agbase a ag base rest => Sys2Proof.Machine.execAgbase a ag base rest s
  | .agdim a ag dim cntm1 str rest => Sys2Proof.Machine.execAgdim a ag dim cntm1 str rest s
  | .agstep a ag n rest => Sys2Proof.Machine.execAgstep a ag n rest s
  | .agrst a ag rest => Sys2Proof.Machine.execAgrst a ag rest s
  | .agbasex a ag xa rest => Sys2Proof.Machine.execAgbasex a ag xa rest s
  | .add a xd xa xb rest => Sys2Proof.Machine.execAdd a xd xa xb rest s
  | .sub a xd xa xb rest => Sys2Proof.Machine.execSub a xd xa xb rest s
  | .and a xd xa xb rest => Sys2Proof.Machine.execAnd a xd xa xb rest s
  | .or a xd xa xb rest => Sys2Proof.Machine.execOr a xd xa xb rest s
  | .xor a xd xa xb rest => Sys2Proof.Machine.execXor a xd xa xb rest s
  | .shl a xd xa xb rest => Sys2Proof.Machine.execShl a xd xa xb rest s
  | .shr a xd xa xb rest => Sys2Proof.Machine.execShr a xd xa xb rest s
  | .sra a xd xa xb rest => Sys2Proof.Machine.execSra a xd xa xb rest s
  | .mul a xd xa xb rest => Sys2Proof.Machine.execMul a xd xa xb rest s
  | .slt a xd xa xb rest => Sys2Proof.Machine.execSlt a xd xa xb rest s
  | .sltu a xd xa xb rest => Sys2Proof.Machine.execSltu a xd xa xb rest s
  | .min a xd xa xb rest => Sys2Proof.Machine.execMin a xd xa xb rest s
  | .max a xd xa xb rest => Sys2Proof.Machine.execMax a xd xa xb rest s
  | .addi a xd xa imm rest => Sys2Proof.Machine.execAddi a xd xa imm rest s
  | .andi a xd xa imm rest => Sys2Proof.Machine.execAndi a xd xa imm rest s
  | .ori a xd xa imm rest => Sys2Proof.Machine.execOri a xd xa imm rest s
  | .xori a xd xa imm rest => Sys2Proof.Machine.execXori a xd xa imm rest s
  | .shli a xd xa n rest => Sys2Proof.Machine.execShli a xd xa n rest s
  | .shri a xd xa n rest => Sys2Proof.Machine.execShri a xd xa n rest s
  | .srai a xd xa n rest => Sys2Proof.Machine.execSrai a xd xa n rest s
  | .movi a xd imm rest => Sys2Proof.Machine.execMovi a xd imm rest s
  | .movhi a xd imm rest => Sys2Proof.Machine.execMovhi a xd imm rest s
  | .rdlc a xd lc rest => Sys2Proof.Machine.execRdlc a xd lc rest s
  | .agrd a xd ag rest => Sys2Proof.Machine.execAgrd a xd ag rest s
  | .ldx a xd addr rest => Sys2Proof.Machine.execLdx a xd addr rest s
  | .stx a xb addr rest => Sys2Proof.Machine.execStx a xb addr rest s
  | .ldg a xd xa rest => Sys2Proof.Machine.execLdg a xd xa rest s
  | .stg a xa xb rest => Sys2Proof.Machine.execStg a xa xb rest s
  | .ldma t dst xa xn sem tcnt loc rest => Sys2Proof.Machine.execLdma t dst xa xn sem tcnt loc rest s
  | .ldma2 t dst xa xn sem tcnt xr xs loc rest => Sys2Proof.Machine.execLdma2 t dst xa xn sem tcnt xr xs loc rest s
  | .lgath t dst xa xn sem tcnt idx xc loc rest => Sys2Proof.Machine.execLgath t dst xa xn sem tcnt idx xc loc rest s
  | .sdma t src xa xn sem tcnt rcnt rsem xt loc rest => Sys2Proof.Machine.execSdma t src xa xn sem tcnt rcnt rsem xt loc rest s
  | .msg t src xa xn sem tcnt rest => Sys2Proof.Machine.execMsg t src xa xn sem tcnt rest s
  | .lpush t src xa xd rest => Sys2Proof.Machine.execLpush t src xa xd rest s
  | .transferComplete a xid => Sys2Proof.Machine.execTransferComplete a xid s
  | .cmma t av bv acc clr fmt exact fd ksteps rest => Sys2Proof.Machine.execCmma t av bv acc clr fmt exact fd ksteps rest s
  | .ccvt t dst acc ofmt fd rest => Sys2Proof.Machine.execCcvt t dst acc ofmt fd rest s
  | .csta t dst acc rest => Sys2Proof.Machine.execCsta t dst acc rest s
  | .clda t src acc rest => Sys2Proof.Machine.execClda t src acc rest s
  | .czero t acc rest => Sys2Proof.Machine.execCzero t acc rest s
  | .canch t anchor acc rest => Sys2Proof.Machine.execCanch t anchor acc rest s
  | .canchs t scale acc rest => Sys2Proof.Machine.execCanchs t scale acc rest s
  | .cfin t dst fd rows rest => Sys2Proof.Machine.execCfin t dst fd rows rest s
  | .resultReady a => Sys2Proof.Machine.execResultReady a s
  | .valu t vd va vb ty fn rest => Sys2Proof.Machine.execValu t vd va vb ty fn rest s
  | .vfma t vd va vb ty vc rest => Sys2Proof.Machine.execVfma t vd va vb ty vc rest s
  | .vcmp t vd va vb ty fn rest => Sys2Proof.Machine.execVcmp t vd va vb ty fn rest s
  | .vlogic t vd va vb fn rest => Sys2Proof.Machine.execVlogic t vd va vb fn rest s
  | .vshift t vd va vb ty fn rest => Sys2Proof.Machine.execVshift t vd va vb ty fn rest s
  | .vcvt t vd va ty fn rest => Sys2Proof.Machine.execVcvt t vd va ty fn rest s
  | .vfnExp2 t vd va ty rest => Sys2Proof.Machine.execVfnExp2 t vd va ty rest s
  | .vfnLog2 t vd va ty rest => Sys2Proof.Machine.execVfnLog2 t vd va ty rest s
  | .vfnReciprocal t vd va ty rest => Sys2Proof.Machine.execVfnReciprocal t vd va ty rest s
  | .vfnReciprocalSquareRoot t vd va ty rest => Sys2Proof.Machine.execVfnReciprocalSquareRoot t vd va ty rest s
  | .vfnSigmoid t vd va ty rest => Sys2Proof.Machine.execVfnSigmoid t vd va ty rest s
  | .vred t xd va ty fn rest => Sys2Proof.Machine.execVred t xd va ty fn rest s
  | .vbcast t vd xa ty rest => Sys2Proof.Machine.execVbcast t vd xa ty rest s
  | .vsel t vd va vb ty vc rest => Sys2Proof.Machine.execVsel t vd va vb ty vc rest s
  | .vld t vd addr rest => Sys2Proof.Machine.execVld t vd addr rest s
  | .vst t vs addr rest => Sys2Proof.Machine.execVst t vs addr rest s
  | .emptyBundle a => Sys2Proof.Machine.execEmptyBundle a s
  | .reedRingWrite req n value => Sys2Proof.Machine.execReedRingWrite req n value s
  | .reedTailWrite req n value => Sys2Proof.Machine.execReedTailWrite req n value s
  | .reedAbort req n => Sys2Proof.Machine.execReedAbort req n s
  | .vload n => Sys2Proof.Machine.execVload n s
  | .mv n => Sys2Proof.Machine.execMv n s
  | .reedSignal n => Sys2Proof.Machine.execReedSignal n s
  | .reedBlockDelivery n => Sys2Proof.Machine.execReedBlockDelivery n s
  | .reedToken n => Sys2Proof.Machine.execReedToken n s
  | .hbmRead req addr len ecc => Sys2Proof.Machine.execHbmRead req addr len ecc s
  | .hbmWrite req addr bytes => Sys2Proof.Machine.execHbmWrite req addr bytes s
  | .wcDrain c gran => Sys2Proof.Machine.execWcDrain c gran s
  | .atomicRecord req w0 w1 w2 w3 => Sys2Proof.Machine.execAtomicRecord req w0 w1 w2 w3 s
  | .arbiterRound pc ready => Sys2Proof.Machine.execArbiterRound pc ready s
  | .refreshDue pc => Sys2Proof.Machine.execRefreshDue pc s
  | .stackTemperatureReading stack temp => Sys2Proof.Machine.execStackTemperatureReading stack temp s
  | .ceWindowStart => Sys2Proof.Machine.execCeWindowStart s
  | .regionEnable req n value => Sys2Proof.Machine.execRegionEnable req n value s
  | .regionDisable req n value => Sys2Proof.Machine.execRegionDisable req n value s
  | .regionCloseComplete n => Sys2Proof.Machine.execRegionCloseComplete n s
  | .hbmExclWrite req stack value => Sys2Proof.Machine.execHbmExclWrite req stack value s
  | .channelPolicyWrite req c value => Sys2Proof.Machine.execChannelPolicyWrite req c value s
  | .retrain req c => Sys2Proof.Machine.execRetrain req c s
  | .retrainingStart c => Sys2Proof.Machine.execRetrainingStart c s
  | .retrainingEnd c us => Sys2Proof.Machine.execRetrainingEnd c us s
  | .retrainingFailure c => Sys2Proof.Machine.execRetrainingFailure c s
  | .flush req die => Sys2Proof.Machine.execFlush req die s
  | .flushComplete die => Sys2Proof.Machine.execFlushComplete die s
  | .tenonFlitReceive e lane flit => Sys2Proof.Machine.execTenonFlitReceive e lane flit s
  | .tenonNak e lane ack => Sys2Proof.Machine.execTenonNak e lane ack s
  | .tenonMessageSend e m => Sys2Proof.Machine.execTenonMessageSend e m s
  | .tenonRd m => Sys2Proof.Machine.execTenonRd m s
  | .tenonWr m => Sys2Proof.Machine.execTenonWr m s
  | .tenonAtom m => Sys2Proof.Machine.execTenonAtom m s
  | .tenonPush m => Sys2Proof.Machine.execTenonPush m s
  | .tenonToken m => Sys2Proof.Machine.execTenonToken m s
  | .tenonRdrsp m => Sys2Proof.Machine.execTenonRdrsp m s
  | .tenonWrack m => Sys2Proof.Machine.execTenonWrack m s
  | .tenonCol m => Sys2Proof.Machine.execTenonCol m s
  | .tenonFabin m => Sys2Proof.Machine.execTenonFabin m s
  | .tenonFabout m => Sys2Proof.Machine.execTenonFabout m s
  | .tenonCrd m => Sys2Proof.Machine.execTenonCrd m s
  | .tenonCwr m => Sys2Proof.Machine.execTenonCwr m s
  | .laneRetest link lane => Sys2Proof.Machine.execLaneRetest link lane s
  | .laneRetestComplete link lane bad => Sys2Proof.Machine.execLaneRetestComplete link lane bad s
  | .linkRetrainComplete link => Sys2Proof.Machine.execLinkRetrainComplete link s
  | .clockLoss die => Sys2Proof.Machine.execClockLoss die s
  | .routesInForce die => Sys2Proof.Machine.execRoutesInForce die s
  | .dresetSet req die => Sys2Proof.Machine.execDresetSet req die s
  | .dresetClear req die => Sys2Proof.Machine.execDresetClear req die s
  | .test req die => Sys2Proof.Machine.execTest req die s
  | .train req die => Sys2Proof.Machine.execTrain req die s
  | .admitOp req die => Sys2Proof.Machine.execAdmit req die s
  | .dieBooted die ok => Sys2Proof.Machine.execDieBooted die ok s
  | .dieTested die ok bad => Sys2Proof.Machine.execDieTested die ok bad s
  | .dieTrained die => Sys2Proof.Machine.execDieTrained die s
  | .dieAdmitted die ok noTrain => Sys2Proof.Machine.execDieAdmitted die ok noTrain s
  | .packetSend n => Sys2Proof.Machine.execPacketSend n s
  | .routerForward port p => Sys2Proof.Machine.execRouterForward port p s
  | .multicastPacket port p => Sys2Proof.Machine.execMulticastPacket port p s
  | .put port p => Sys2Proof.Machine.execPut port p s
  | .putend port p => Sys2Proof.Machine.execPutend port p s
  | .get port p => Sys2Proof.Machine.execGet port p s
  | .ld port p => Sys2Proof.Machine.execLd port p s
  | .st port p => Sys2Proof.Machine.execSt port p s
  | .getdata port p => Sys2Proof.Machine.execGetdata port p s
  | .getend port p => Sys2Proof.Machine.execGetend port p s
  | .opack port p => Sys2Proof.Machine.execOpack port p s
  | .ldrsp port p => Sys2Proof.Machine.execLdrsp port p s
  | .fack port p => Sys2Proof.Machine.execFack port p s
  | .colPacket port p => Sys2Proof.Machine.execColPacket port p s
  | .msgPacket port p => Sys2Proof.Machine.execMsgPacket port p s
  | .fackSend n => Sys2Proof.Machine.execFackSend n s
  | .retransmit n seq => Sys2Proof.Machine.execRetransmit n seq s
  | .answerTimeout n opid => Sys2Proof.Machine.execAnswerTimeout n opid s
  | .portDown port => Sys2Proof.Machine.execPortDown port s
  | .routeEntryWrite req copyB d value => Sys2Proof.Machine.execRouteEntryWrite req copyB d value s
  | .injWrite req inj => Sys2Proof.Machine.execInjWrite req inj s
  | .multicastEntryWrite req g value => Sys2Proof.Machine.execMulticastEntryWrite req g value s
  | .flowEnable req n value => Sys2Proof.Machine.execFlowEnable req n value s
  | .flowRst req n => Sys2Proof.Machine.execFlowRst req n s
  | .mqHeadWrite req q value => Sys2Proof.Machine.execMqHeadWrite req q value s
  | .fabCfgWrite req value => Sys2Proof.Machine.execFabCfgWrite req value s
  | .laserMeasurement port uw => Sys2Proof.Machine.execLaserMeasurement port uw s
  | .laserLineReturn port line => Sys2Proof.Machine.execLaserLineReturn port line s
  | .bellEnable req b value => Sys2Proof.Machine.execBellEnable req b value s
  | .bellDisable req b value => Sys2Proof.Machine.execBellDisable req b value s
  | .bellRetrain req b => Sys2Proof.Machine.execBellRetrain req b s
  | .lockIteration b steps => Sys2Proof.Machine.execLockIteration b steps s
  | .txRingLock b lane heat found => Sys2Proof.Machine.execTxRingLock b lane heat found s
  | .rxRingScan b lane heat found idx => Sys2Proof.Machine.execRxRingScan b lane heat found idx s
  | .ringStep b row => Sys2Proof.Machine.execRingStep b row s
  | .ringStepComplete b lane heat found => Sys2Proof.Machine.execRingStepComplete b lane heat found s
  | .laneBlock b lane blk => Sys2Proof.Machine.execLaneBlock b lane blk s
  | .stat b m => Sys2Proof.Machine.execStat b m s
  | .credit b freed => Sys2Proof.Machine.execCredit b freed s
  | .laneLeavesService b lane cause => Sys2Proof.Machine.execLaneLeavesService b lane cause s
  | .laneServiceSample b => Sys2Proof.Machine.execLaneServiceSample b s
  | .trainingTimeout b => Sys2Proof.Machine.execTrainingTimeout b s
  | .failedRetry b => Sys2Proof.Machine.execFailedRetry b s
  | .eyehUpdate b lane eye => Sys2Proof.Machine.execEyehUpdate b lane eye s
  | .chanterPush lane w0 w1 w2 w3 req => Sys2Proof.Machine.execChanterPush lane w0 w1 w2 w3 req s
  | .allreduce lane => Sys2Proof.Machine.execAllreduce lane s
  | .reduceScatter lane => Sys2Proof.Machine.execReduceScatter lane s
  | .allgather lane => Sys2Proof.Machine.execAllgather lane s
  | .broadcast lane => Sys2Proof.Machine.execBroadcast lane s
  | .reduce lane => Sys2Proof.Machine.execReduce lane s
  | .alltoall lane => Sys2Proof.Machine.execAlltoall lane s
  | .barrier lane => Sys2Proof.Machine.execBarrier lane s
  | .reshard lane => Sys2Proof.Machine.execReshard lane s
  | .collectiveComplete g seq => Sys2Proof.Machine.execCollectiveComplete g seq s
  | .chk port p => Sys2Proof.Machine.execChk port p s
  | .rel port p => Sys2Proof.Machine.execRel port p s
  | .data1 port p => Sys2Proof.Machine.execData1 port p s
  | .cred port p => Sys2Proof.Machine.execCred port p s
  | .data2 port p => Sys2Proof.Machine.execData2 port p s
  | .resend port p => Sys2Proof.Machine.execResend port p s
  | .fail port p => Sys2Proof.Machine.execFail port p s
  | .xdata port p => Sys2Proof.Machine.execXdata port p s
  | .phaseGapTimeout g seq kind src => Sys2Proof.Machine.execPhaseGapTimeout g seq kind src s
  | .groupEnable req g value => Sys2Proof.Machine.execGroupEnable req g value s
  | .groupDisable req g value => Sys2Proof.Machine.execGroupDisable req g value s
  | .laneAbort req lane => Sys2Proof.Machine.execLaneAbort req lane s
  | .nop f => Sys2Proof.Machine.execNop f s
  | .nak f => Sys2Proof.Machine.execNak f s
  | .cwr f => Sys2Proof.Machine.execCwr f s
  | .crd f => Sys2Proof.Machine.execCrd f s
  | .cack => Sys2Proof.Machine.execCack s
  | .crsp => Sys2Proof.Machine.execCrsp s
  | .push f => Sys2Proof.Machine.execPush f s
  | .pstat => Sys2Proof.Machine.execPstat s
  | .dbell f => Sys2Proof.Machine.execDbell f s
  | .dfetch q => Sys2Proof.Machine.execDfetch q s
  | .hrd q => Sys2Proof.Machine.execHrd q s
  | .hdata f => Sys2Proof.Machine.execHdata f s
  | .hwr q => Sys2Proof.Machine.execHwr q s
  | .event => Sys2Proof.Machine.execEvent s
  | .fab f => Sys2Proof.Machine.execFab f s
  | .linkReplayTimeout => Sys2Proof.Machine.execLinkReplayTimeout s
  | .nopTimer => Sys2Proof.Machine.execNopTimer s
  | .hostLinkHoldTimeout => Sys2Proof.Machine.execHostLinkHoldTimeout s
  | .h2m q => Sys2Proof.Machine.execH2m q s
  | .m2h q => Sys2Proof.Machine.execM2h q s
  | .dmaDescriptorComplete q => Sys2Proof.Machine.execDmaDescriptorComplete q s
  | .dqTailWrite req q value => Sys2Proof.Machine.execDqTailWrite req q value s
  | .dqAbort req q => Sys2Proof.Machine.execDqAbort req q s
  | .eventHeadWrite req value => Sys2Proof.Machine.execEventHeadWrite req value s
  | .siteDone req value => Sys2Proof.Machine.execSiteDone req value s
  | .hello => Sys2Proof.Machine.execHello s
  | .mgtRead d => Sys2Proof.Machine.execMgtRead d s
  | .mgtWrite sender ports data => Sys2Proof.Machine.execMgtWrite sender ports data s
  | .trec d => Sys2Proof.Machine.execTrec d s
  | .neighbourSolicitation target => Sys2Proof.Machine.execNeighbourSolicitation target s
  | .domainPowerOff req d => Sys2Proof.Machine.execDomainPowerOff req d s
  | .domainPowerOn req d => Sys2Proof.Machine.execDomainPowerOn req d s
  | .domainSwitchComplete d => Sys2Proof.Machine.execDomainSwitchComplete d s
  | .calipersSample x => Sys2Proof.Machine.execCalipersSample x s
  | .thermalTrip => Sys2Proof.Machine.execThermalTrip s
  | .divisionTakesEffect cl => Sys2Proof.Machine.execDivisionTakesEffect cl s
  | .thermalCoalesceWindowEnd die code => Sys2Proof.Machine.execThermalCoalesceWindowEnd die code s
  | .bellowsHold rising => Sys2Proof.Machine.execBellowsHold rising s
  | .bellowsRelease => Sys2Proof.Machine.execBellowsRelease s
  | .softWrite req value => Sys2Proof.Machine.execSoftWrite req value s
  | .capWrite req value => Sys2Proof.Machine.execCapWrite req value s
  | .keyWrite req key => Sys2Proof.Machine.execKeyWrite req key s
  | .thermalHoldCleared => Sys2Proof.Machine.execThermalHoldCleared s
  | .standbyGo req value => Sys2Proof.Machine.execStandbyGo req value s
  | .standbyEntered => Sys2Proof.Machine.execStandbyEntered s
  | .wakeTime => Sys2Proof.Machine.execWakeTime s
  | .update req => Sys2Proof.Machine.execUpdate req s
  | .confirm req => Sys2Proof.Machine.execConfirm req s
  | .minver req => Sys2Proof.Machine.execMinver req s
  | .calwr req kind => Sys2Proof.Machine.execCalwr req kind s
  | .read req kind => Sys2Proof.Machine.execRead req kind s
  | .nvsCommandDone flashOk => Sys2Proof.Machine.execNvsCommandDone flashOk s
  | .recordCommit => Sys2Proof.Machine.execRecordCommit s
  | .ext req sel => Sys2Proof.Machine.execExt req sel s
  | .quote req => Sys2Proof.Machine.execQuote req s
  | .quoteDone => Sys2Proof.Machine.execQuoteDone s
  | .lock req => Sys2Proof.Machine.execLock req s
  | .remoteWindowEnd peer code => Sys2Proof.Machine.execRemoteWindowEnd peer code s
  | .kfnPost req value => Sys2Proof.Machine.execKfnPost req value s
  | .kfnWithdraw req slot => Sys2Proof.Machine.execKfnWithdraw req slot s
  | .chatterGo req value => Sys2Proof.Machine.execChatterGo req value s
  | .chatterTileDone t upset => Sys2Proof.Machine.execChatterTileDone t upset s
  | .pairEnable req p value => Sys2Proof.Machine.execPairEnable req p value s
  | .registerWrite req addr value => Sys2Proof.Machine.execRegisterWrite req addr value s

end Sys2Proof.Machine
end

