-- ==== Sys2Proof/Machine/Step.lean ====
section
/-! DEFINITION. One step: the command at the front of the queue; a cycle of the Drone reference where none waits. -/

namespace Sys2Proof.Machine

/-- The front command meets the state with the rest of the queue. On an empty queue nothing is commanded, and 40 ns pass:
    one cycle of the Drone reference (R36; DESIGN CHOICE, log entry 13). -/
def step (s : State) : Host.Outcome State Fault Refusal :=
  match s.pending with
  | [] => .next (refCycle s)
  | c :: rest => exec c { s with pending := rest }

/-- The state with the command that a word spells at the front of its queue; unchanged where it spells none. -/
def State.withFetchWord (s : State) (nbits w : Nat) : State :=
  match decodeTableWord nbits w with
  | some c => { s with pending := c :: s.pending }
  | none => s

end Sys2Proof.Machine
end

