-- ==== Sys2Proof/Safety.lean ====
section
/-! DEFINITION. The terms that claims use: what a command leaves alone, and when an engine can issue. -/

namespace Sys2Proof.Machine

/-! ### Engines -/

/-- The live loops, the next PC and the counters of an engine whose control falls through a bundle of `len` words (R118). -/
def Engine.after (g : Engine) (len : Nat) : List Loop × Nat × Tbl (BitVec 32) := endOfLoop g.loops (g.pc.toNat + len) g.lc

/-- An engine whose control falls through a bundle of `len` words. -/
def Engine.fall (g : Engine) (len : Nat) : Engine :=
  { g with loops := (g.after len).1, lc := (g.after len).2.2, pc := BitVec.ofNat 12 (g.after len).2.1 }

/-- An engine issues a bundle of `len` words at once: it runs with no bundle held, no answer awaited and no result pending,
    and the bundle lies in the bank. -/
structure Ready (s : State) (a : At) (len : Nat) : Prop where
  runs : mayIssue s a = true
  quiet : (getEng s a).results = []
  free : (getEng s a).full = false
  asks : (getEng s a).answer = none
  unplanned : (getEng s a).plan = none
  fits : (getEng s a).pc.toNat + len ≤ 4096

/-- Control that falls through a bundle of `len` words stays in the bank (R108). -/
def Engine.Falls (g : Engine) (len : Nat) : Prop := (g.after len).2.1 < 4096

/-- Nothing but one tile differs. -/
def OnlyTile (s t : State) (n : Nat) : Prop :=
  t = { s with tile := t.tile } ∧ ∀ u, u ≠ n → getTile t u = getTile s u

/-- Nothing but one engine differs: no memory, no register, no semaphore, no other engine. -/
def OnlyEngine (s t : State) (a : At) : Prop :=
  OnlyTile s t a.tile.toNat ∧
  getTile t a.tile.toNat = { getTile s a.tile.toNat with eng := (getTile t a.tile.toNat).eng } ∧
  ∀ e, e ≠ a.eng.toNat → (getTile t a.tile.toNat).engine e = (getTile s a.tile.toNat).engine e

/-- Nothing but one engine differs, and it stands as `g`. -/
def Becomes (s t : State) (a : At) (g : Engine) : Prop := OnlyEngine s t a ∧ getEng t a = g

/-! ### Rows of chapter 04: what the spec gives each one's engine, from the engine as it stands -/

/-- Control passes to `target`: the live loops whose body does not hold it close, innermost first (R120). -/
def Engine.jump (g : Engine) (target : Nat) : Engine :=
  { g with pc := BitVec.ofNat 12 target
           loops := g.loops.dropWhile (fun l => !decide (l.start ≤ target ∧ target < l.exit)) }

/-- Table 4.7: each row of the scalar slot that computes from registers, its bundle's length, and XD's new value. -/
def scalarRows (a : At) (xd xa xb : BitVec 5) (imm : BitVec 14) (n : BitVec 6) (w : BitVec 32) (lc : BitVec 2)
    (ag : BitVec 3) (g : Engine) : List (Instr × Nat × Word) :=
  let x := g.xr xa
  let y := g.xr xb
  let i : Word := imm.signExtend 64
  [(.add a xd xa xb {}, 2, x + y), (.sub a xd xa xb {}, 2, x - y), (.and a xd xa xb {}, 2, x &&& y),
   (.or a xd xa xb {}, 2, x ||| y), (.xor a xd xa xb {}, 2, x ^^^ y),
   (.shl a xd xa xb {}, 2, x <<< (y.toNat % 64)), (.shr a xd xa xb {}, 2, x >>> (y.toNat % 64)),
   (.sra a xd xa xb {}, 2, x.sshiftRight (y.toNat % 64)), (.mul a xd xa xb {}, 2, x * y),
   (.slt a xd xa xb {}, 2, if x.toInt < y.toInt then 1 else 0), (.sltu a xd xa xb {}, 2, if x < y then 1 else 0),
   (.min a xd xa xb {}, 2, if x.toInt ≤ y.toInt then x else y),
   (.max a xd xa xb {}, 2, if x.toInt ≤ y.toInt then y else x),
   (.addi a xd xa imm {}, 2, x + i), (.andi a xd xa imm {}, 2, x &&& i), (.ori a xd xa imm {}, 2, x ||| i),
   (.xori a xd xa imm {}, 2, x ^^^ i), (.shli a xd xa n {}, 2, x <<< n.toNat), (.shri a xd xa n {}, 2, x >>> n.toNat),
   (.srai a xd xa n {}, 2, x.sshiftRight n.toNat), (.movi a xd w {}, 3, w.signExtend 64),
   (.movhi a xd w {}, 3, w ++ (g.xr xd).setWidth 32), (.rdlc a xd lc {}, 2, (g.lcv lc).setWidth 64),
   (.agrd a xd ag {}, 2, BitVec.ofInt 64 (g.gen ag.toNat).addr)]

/-- Table 4.3: J and the branches, with the condition under which control goes to PC + OFF. -/
def branchRows (a : At) (xa xb : BitVec 5) (off : BitVec 13) (g : Engine) : List (Instr × Prop) :=
  let x := g.xr xa
  let y := g.xr xb
  [(.j a off {}, True), (.beq a xa xb off {}, x = y), (.bne a xa xb off {}, x ≠ y),
   (.blt a xa xb off {}, x.toInt < y.toInt), (.bge a xa xb off {}, y.toInt ≤ x.toInt),
   (.bltu a xa xb off {}, x < y), (.bgeu a xa xb off {}, y ≤ x)]

/-- Table 4.3: the rows that open a loop: the length of the bundle and the count. -/
def loopRows (a : At) (xa : BitVec 5) (lc : BitVec 2) (exit : BitVec 12) (count : BitVec 32) (g : Engine) :
    List (Instr × Nat × BitVec 32) :=
  [(.loop a xa lc exit {}, 2, (g.xr xa).setWidth 32), (.loopi a lc exit count {}, 3, count)]

/-- Table 4.6: the rows of the address generator slot: the bundle's length and the generator as it then stands. -/
def aguRows (a : At) (ag : BitVec 3) (base : BitVec 20) (dim : BitVec 2) (cntm1 : BitVec 16) (str : BitVec 24)
    (n : BitVec 16) (xa : BitVec 5) (g : Engine) : List (Instr × Nat × Gen) :=
  let x := g.gen ag.toNat
  let home (y : Gen) : Gen :=
    { y with d0.idx := 0, d1.idx := 0, d2.idx := 0, d3.idx := 0 }
  let set (y : Gen) (d : GenDim) : Gen :=
    if dim = 0 then { y with d0 := d } else if dim = 1 then { y with d1 := d } else if dim = 2 then { y with d2 := d }
    else { y with d3 := d }
  [(.agbase a ag base {}, 2, home { x with base := base }),
   (.agdim a ag dim cntm1 str {}, 3, home (set x { cntm1 := cntm1, str := str })),
   (.agstep a ag n {}, 2, Nat.repeat Gen.step n.toNat x),
   (.agrst a ag {}, 2, home x),
   (.agbasex a ag xa {}, 2, home { x with base := (g.xr xa).setWidth 20 })]

/-- An engine stops in FAULTED with a code, and its report is the only other thing that happens (R100, R140). -/
structure Stops (s t : State) (a : At) (code : Nat) : Prop where
  phase : (getEng t a).phase = .faulted
  fault : (getEng t a).fault = BitVec.ofNat 16 code
  pc : (getEng t a).pc = (getEng s a).pc
  keeps : (getEng t a).x = (getEng s a).x ∧ (getEng t a).lc = (getEng s a).lc ∧ (getEng t a).ag = (getEng s a).ag ∧
    (getEng t a).queue = (getEng s a).queue ∧ (getEng t a).running = (getEng s a).running
  only : OnlyEngine { s with free := t.free, rep := t.rep } t a
  said : ∃ r, t.rep.raised = s.rep.raised ++ [r] ∧ r.code = BitVec.ofNat 16 code ∧
    r.unit = unitOfEngine a.tile.toNat a.eng.toNat ∧ r.tag = (getEng s a).tag

/-- The tile of an engine differs in one semaphore at most, and nothing beyond the tile differs. -/
def SemBecomes (s t : State) (a : At) (sem v : Nat) (g : Engine) : Prop :=
  OnlyTile s t a.tile.toNat ∧
  getTile t a.tile.toNat = { getTile s a.tile.toNat with
    eng := (getTile t a.tile.toNat).eng, sem := (getTile t a.tile.toNat).sem } ∧
  (∀ e, e ≠ a.eng.toNat → (getTile t a.tile.toNat).engine e = (getTile s a.tile.toNat).engine e) ∧
  (∀ m, (getTile t a.tile.toNat).semVal m = if m = sem then v else (getTile s a.tile.toNat).semVal m) ∧
  getEng t a = g

/-- A tile takes tokens at once: powered, not isolated, not resetting, its clock neither gated nor stopped. -/
def TakesTokens (s : State) (t : Nat) : Prop :=
  tileDeaf s t = false ∧ (getTile s t).gated = false ∧ (getCluster s (clusterOf t)).clk = .running

/-! ### Tile memory, entries and pushes -/

/-- A byte of a tile's store or hold buffer by its tile-local address (Table 4.4). -/
def localByte (s : State) (t a : Nat) : Byte :=
  if a < 0x40000 then rdByte s.mem (0x020000000000 + t * 0x40000 + a) else rdByte s.hold (t * 0x10000 + (a - 0x40000))

/-- `n` bytes from a tile-local address lie in a region open to an engine's instructions (Table 4.4). -/
def OpenTo (eng : BitVec 2) (ad : Int) (n : Nat) : Prop :=
  (0 ≤ ad ∧ ad + n ≤ 0x40000) ∨ ((eng = 1 ∨ eng = 2) ∧ 0x40000 ≤ ad ∧ ad + n ≤ 0x50000)

/-- An engine whose address operand has been used: MODE 1 steps its generator once (Table 4.5). -/
def Engine.used (g : Engine) (o : BitVec 8) : Engine :=
  if o.toNat / 64 = 1 then { g with ag := tset {} g.ag (o.toNat % 32) (g.gen (o.toNat % 32)).step } else g

/-- No running transfer of an engine of tile `t` writes the `n` bytes from tile-local address `a` (R113). -/
def Engine.Settled (g : Engine) (t a n : Nat) : Prop :=
  ∀ d ∈ g.writing, d.1 + d.2 ≤ localPhys t a ∨ localPhys t a + n ≤ d.1

/-- No transfer of the module writes the `n` bytes from a tile-local address, nor does a result of the tile's C engine that is
    still to be written (R219). -/
def VldSettled (s : State) (t a n : Nat) : Prop :=
  ∀ d ∈ vldConflicts s t, d.1 + d.2 ≤ localPhys t a ∨ localPhys t a + n ≤ d.1

/-- An access reaches a tile at once: powered, not isolated, not under Chatter, its clock running. -/
def Awake (s : State) (t : Nat) : Prop :=
  tileCode s t = 0 ∧ (getTile s t).gated = false ∧ (getCluster s (clusterOf t)).clk = .running

/-- A token, or a host's write of a semaphore, that a stopped cluster's gate has accepted (R95). -/
structure Delivery where
  tile : TileId
  sem  : BitVec 4
  set  : Bool
  n    : BitVec 8

/-- How the gate holds it. -/
def Delivery.held (d : Delivery) : Waiter :=
  if d.set then
    { spans := [(aTileSem d.tile.toNat d.sem.toNat, 8)]
      work := .write .host (aTileSem d.tile.toNat d.sem.toNat) (d.n.setWidth 64) }
  else { spans := [(0x020000000000 + d.tile.toNat * 0x40000, 64)], work := .token d.tile.toNat d.sem.toNat d.n.toNat }

/-- What it makes of semaphore `m` of tile `t` that holds `v` (R81). -/
def Delivery.on (t m v : Nat) (d : Delivery) : Nat :=
  if d.tile.toNat = t ∧ d.sem.toNat = m then (if d.set then d.n.toNat else Nat.min (v + d.n.toNat) 65535) else v

/-- Memory changes in the bytes `bs` from local physical address `a` on and nowhere else. -/
def MemBecomes (s t : State) (a : Nat) (bs : List Byte) : Prop :=
  (∀ i, ∀ h : i < bs.length, rdByte t.mem (a + i) = bs[i]) ∧
  (∀ x, x < a ∨ a + bs.length ≤ x → rdByte t.mem x = rdByte s.mem x)

/-- Table 4.8: the rows of a load: its address, what it copies as (source, tile-local destination, bytes), in order. -/
def packedRows (src : Nat → Nat) (dst n k : Nat) : List (Nat × Nat × Nat) :=
  (List.range k).map (fun r => (src r, dst + r * n, n))

/-- The refusal of a push to one queue that stands highest in Table 3.3; 0 where the queue accepts. -/
def highestRefusal (s : State) (t e : Nat) (w0 : Word) : Nat :=
  if tileIsolated s t = true then 6
  else if rbit s aThmHold 63 = true then 7
  else if tilePowered s t = false ∨ inStandby s = true then 5
  else if (getTile s t).resetting = true then 4
  else if ((getTile s t).engine e).phase = .aborting then 3
  else if 1 < fld w0 63 60 ∨ fld w0 35 34 = 3 then 8
  else if 16 ≤ ((getTile s t).engine e).queue.length then 1
  else 0

/-- The host link is served: the module is not in RECOVERY, and the core stage runs. -/
def HostServed (s : State) : Prop := rf s aVrxState 63 60 ≠ 1 ∧ s.pins.core = true

/-- An engine that can start the entry `x` at the head of its queue, its wait aside (R74, R493). -/
def CanStart (s : State) (a : At) (x : Entry) (rest : List Entry) : Prop :=
  (getEng s a).queue = x :: rest ∧ (getEng s a).phase = .idle ∧ (getEng s a).running = none ∧
  tileRuns s a.tile.toNat = true ∧ pairHolds s a = false

/-- The engine's registers at the start of an entry (R74): x1 to x4, the queue less its head, and for RUN the PC. -/
def Engine.started (g : Engine) (x : Entry) (rest : List Entry) (x4 : Word) : Engine :=
  let g := (((g.setX 1 (BitVec.ofNat 64 (fld x.w1 47 0))).setX 2 x.w2).setX 3 x.w3).setX 4 x4
  if fld x.w0 63 60 = 0 then
    { g with queue := rest, running := some x, loops := [], phase := .run, pc := BitVec.ofNat 12 (fld x.w0 11 0) }
  else { g with queue := rest, running := some x, loops := [], phase := .drain }

/-- A rectangle of tiles that stays inside its dies (R90). -/
def FitsDies (w : Word) : Prop := fld w 20 16 + fld w 29 24 ≤ 32 ∧ fld w 4 0 + fld w 13 8 ≤ 32

/-- An engine that an abort has stopped (R98): nothing waits, runs or is held, and it reads ABORTING until
    ENGINE_ABORT_COMPLETE (log entry 119). Its registers stand. -/
def Engine.aborted (g : Engine) : Engine :=
  { g with
    queue := [], running := none, fault := 0, held := none, full := false, answer := none, plan := none, stuck := false, results := []
    loops := [], phase := .aborting
    xfers := g.xfers.map (fun x => { x with discard := true }) }

/-- No engine of a tile's group waits at GBAR on engine `e` (R92). -/
def NoGbar (s : State) (t e : Nat) : Prop := ∀ u ∈ groupMates s t, atGbar s u e = false

/-- An engine waits with a lone control operation held that lies in the bank, its results written. -/
def HoldsCtl (g : Engine) (c : Ctl) (ph : Phase) : Prop :=
  g.held = some { ctl := some c } ∧ g.phase = ph ∧ g.full = false ∧ g.answer = none ∧ g.plan = none ∧ g.results = [] ∧ g.pc.toNat + 2 ≤ 4096

/-! ### Vector and cube results -/

/-- Lane `k` of a vector register of `w`-bit elements (R201). -/
def lane (w : Nat) (v : BitVec 2048) (k : Nat) : BitVec w := v.extractLsb' (w * k) w

/-- The state in which an instruction's result has been written: the engine of tile `n` stands as `g`, status register
    `reg` has taken the bits `m`, and nothing beyond the tile's vector registers, accumulators and carried exponents and
    the register differs. -/
structure Result (s t : State) (a : At) (g : Engine) (reg : Nat) (m : Word) : Prop where
  only : OnlyTile { s with regs := t.regs } t a.tile.toNat
  tile : getTile t a.tile.toNat = { getTile s a.tile.toNat with
    eng := (getTile t a.tile.toNat).eng, v := (getTile t a.tile.toNat).v, acc := (getTile t a.tile.toNat).acc
    cexp := (getTile t a.tile.toNat).cexp }
  engines : ∀ e, e ≠ a.eng.toNat → (getTile t a.tile.toNat).engine e = (getTile s a.tile.toNat).engine e
  engine : getEng t a = g
  status : ∀ x, regGet t x = if x = reg then regGet s x ||| m else regGet s x

/-- A bundle of the V engine issues, passes control and queues one result; RESULT_READY then writes that result: the
    lanes of VD are as `P` says, no other vector register differs, and VEC_STATUS takes `m`. -/
def VecRuns (s : State) (c : Instr) (t : TileId) (vd : BitVec 5) (len : Nat) (m : Word) (P : BitVec 2048 → Prop) : Prop :=
  ∃ u v p, exec c s = .next u ∧ Becomes s u ⟨t, 2⟩ { (getEng s ⟨t, 2⟩).fall len with results := [p] } ∧
    exec (.resultReady ⟨t, 2⟩) u = .next v ∧
    Result s v ⟨t, 2⟩ ((getEng s ⟨t, 2⟩).fall len) (aVecStatus t.toNat) m ∧ P ((getTile v t.toNat).vr vd) ∧
    (∀ r, r ≠ vd → (getTile v t.toNat).vr r = (getTile s t.toNat).vr r) ∧
    (getTile v t.toNat).acc = (getTile s t.toNat).acc ∧ (getTile v t.toNat).cexp = (getTile s t.toNat).cexp

/-- Every lane of a mask register: all ones where the comparison holds, else 0 (R207). -/
def maskLane (w : Nat) (b : Bool) : BitVec w := if b then BitVec.allOnes w else 0

/-- Tables 7.2 and 7.3 and R207: the rows whose result is the same in every type, with the length of the bundle and
    lane `k` of VD. -/
def bitVecRows (t : TileId) (vd va vb vc xa : BitVec 5) (ty : BitVec 3) (w : Nat) (x : Tile) (g : Engine) :
    List (Instr × Nat × (Nat → BitVec w)) :=
  let a := lane w (x.vr va)
  let b := lane w (x.vr vb)
  let c := lane w (x.vr vc)
  [(.vlogic t vd va vb 0 {}, 2, fun k => a k &&& b k), (.vlogic t vd va vb 1 {}, 2, fun k => a k ||| b k),
   (.vlogic t vd va vb 2 {}, 2, fun k => a k ^^^ b k), (.vlogic t vd va vb 3 {}, 2, fun k => a k &&& ~~~b k),
   (.vlogic t vd va 0 4 {}, 2, fun k => ~~~a k),
   (.vsel t vd va vb ty vc {}, 3, fun k => if (c k).msb then a k else b k),
   (.vbcast t vd xa ty {}, 2, fun _ => (g.xr xa).setWidth w)]

/-- Table 7.2, R204, R207: the integer rows that set no flag. -/
def intVecRows (t : TileId) (vd va vb vc : BitVec 5) (ty : BitVec 3) (w : Nat) (x : Tile) :
    List (Instr × Nat × (Nat → BitVec w)) :=
  let a := lane w (x.vr va)
  let b := lane w (x.vr vb)
  let c := lane w (x.vr vc)
  [(.valu t vd va vb ty 0 {}, 2, fun k => a k + b k), (.valu t vd va vb ty 1 {}, 2, fun k => a k - b k),
   (.valu t vd va vb ty 2 {}, 2, fun k => a k * b k),
   (.valu t vd va vb ty 3 {}, 2, fun k => if (a k).toInt ≤ (b k).toInt then a k else b k),
   (.valu t vd va vb ty 4 {}, 2, fun k => if (a k).toInt ≤ (b k).toInt then b k else a k),
   (.valu t vd va 0 ty 5 {}, 2, fun k => if (a k).toInt < 0 then -a k else a k),
   (.valu t vd va 0 ty 6 {}, 2, fun k => -a k),
   (.valu t vd va vb ty 10 {}, 2, fun k => if a k ≤ b k then a k else b k),
   (.valu t vd va vb ty 11 {}, 2, fun k => if a k ≤ b k then b k else a k),
   (.vshift t vd va vb ty 0 {}, 2, fun k => a k <<< ((b k).toNat % w)),
   (.vshift t vd va vb ty 1 {}, 2, fun k => a k >>> ((b k).toNat % w)),
   (.vshift t vd va vb ty 2 {}, 2, fun k => (a k).sshiftRight ((b k).toNat % w)),
   (.vcmp t vd va vb ty 0 {}, 2, fun k => maskLane w (a k == b k)),
   (.vcmp t vd va vb ty 1 {}, 2, fun k => maskLane w (a k != b k)),
   (.vcmp t vd va vb ty 2 {}, 2, fun k => maskLane w ((a k).slt (b k))),
   (.vcmp t vd va vb ty 3 {}, 2, fun k => maskLane w ((a k).sle (b k))),
   (.vcmp t vd va vb ty 4 {}, 2, fun k => maskLane w ((b k).slt (a k))),
   (.vcmp t vd va vb ty 5 {}, 2, fun k => maskLane w ((b k).sle (a k))),
   (.vcmp t vd va vb ty 6 {}, 2, fun k => maskLane w ((a k).ult (b k))),
   (.vcmp t vd va vb ty 7 {}, 2, fun k => maskLane w ((b k).ule (a k)))] ++
  (if ty = 3 then [(.vfma t vd va vb ty vc {}, 3, fun k => a k * b k + c k),
                   (.valu t vd va vb ty 9 {}, 2, fun k => BitVec.ofInt w ((a k).toInt * (b k).toInt / 2 ^ 32))] else [])

/-- The value of lane `k` under a float type (Table 7.1). -/
def fltLane (f : Fmt) (v : BitVec 2048) (k : Nat) : FNum := decodeFloat f (lane (1 + f.ebits + f.mbits) v k).toNat

/-- R203, R205, R206: the float rows that compute an exact value and round it once: the bundle's length, the values that
    go in, the exact value that comes out. -/
def fltVecRows (t : TileId) (vd va vb vc : BitVec 5) (ty : BitVec 3) (f : Fmt) (x : Tile) :
    List (Instr × Nat × (Nat → List FNum) × (Nat → FNum)) :=
  let a := fltLane f (x.vr va)
  let b := fltLane f (x.vr vb)
  let c := fltLane f (x.vr vc)
  [(.valu t vd va vb ty 0 {}, 2, fun k => [a k, b k], fun k => fadd (a k) (b k)),
   (.valu t vd va vb ty 1 {}, 2, fun k => [a k, b k], fun k => fadd (a k) (fneg (b k))),
   (.valu t vd va vb ty 2 {}, 2, fun k => [a k, b k], fun k => fmul (a k) (b k)),
   (.vfma t vd va vb ty vc {}, 3, fun k => [a k, b k, c k], fun k => fadd (fmul (a k) (b k)) (c k))]

/-- Table 7.3: the float comparisons; every one but NE and UNORD is false of a NaN. -/
def fltCmpRows (x y : FNum) : List (BitVec 6 × Bool) :=
  let un := isNan x || isNan y
  [(0, !un && fltEq x y), (1, un || !fltEq x y), (2, !un && fltLt x y), (3, !un && !fltLt y x), (4, !un && fltLt y x),
   (5, !un && !fltLt x y), (8, un)]

/-- The bits of VEC_STATUS that lanes of exact values set as they round (R221): NAN from no NaN, INF from finite
    inputs, OVF where a finite value becomes an infinity. -/
def lanesSet (f : Fmt) (n : Nat) (ins : Nat → List FNum) (exact : Nat → FNum) (m : Word) : Prop :=
  let r (k : Nat) : FNum := rnd f (exact k)
  (bit m 0 = true ↔ ∃ k < n, isNan (r k) = true ∧ ∀ x ∈ ins k, isNan x = false) ∧
  (bit m 1 = true ↔ ∃ k < n, isInf (r k) = true ∧ ∀ x ∈ ins k, isFinite x = true) ∧
  (bit m 2 = true ↔ ∃ k < n, isInf (r k) = true ∧ isFinite (exact k) = true) ∧ m.toNat < 8

/-- The five functions of VFN (Table 7.5): the special inputs and what each gives, and the FP32 algorithm beyond them. -/
def vfnRows (t : TileId) (vd va : BitVec 5) (ty : BitVec 3) : List (Instr × VFn × List (FNum × FNum)) :=
  let one : FNum := .fin 1 0
  [(.vfnExp2 t vd va ty {}, .exp2,
      [(.nan, .nan), (.inf false, .inf false), (.inf true, .zero false), (.zero false, one), (.zero true, one)]),
   (.vfnLog2 t vd va ty {}, .log2,
      [(.nan, .nan), (.inf false, .inf false), (.inf true, .nan), (.zero false, .inf true), (.zero true, .inf true)]),
   (.vfnReciprocal t vd va ty {}, .reciprocal,
      [(.nan, .nan), (.inf false, .zero false), (.inf true, .zero true), (.zero false, .inf false), (.zero true, .inf true)]),
   (.vfnReciprocalSquareRoot t vd va ty {}, .rsqrt,
      [(.nan, .nan), (.inf false, .zero false), (.inf true, .nan), (.zero false, .inf false), (.zero true, .inf true)]),
   (.vfnSigmoid t vd va ty {}, .sigmoid,
      [(.nan, .nan), (.inf false, one), (.inf true, .zero false), (.zero false, .fin 1 (-1)), (.zero true, .fin 1 (-1))])]

/-- The pairwise tree of R217 over the values `x i` … : adjacent values join, the lower index first. -/
def pairTree {α : Type} (f : α → α → α) : Nat → (Nat → α) → Nat → α
  | 0, x, i => x i
  | n + 1, x, i => f (pairTree f n x (2 * i)) (pairTree f n x (2 * i + 1))

/-- `w` bits of the tile store from bit `n` of byte `at_` on (R146). -/
def storeBits (s : State) (t at_ n w : Nat) : Nat :=
  leNat ((List.range ((n % 8 + w + 7) / 8)).map (fun i => localByte s t (at_ + n / 8 + i))) / 2 ^ (n % 8) % 2 ^ w

/-- Element (r, k) of a cube operand of format `c` whose span stands at byte `at_` of the tile store: step slices of K
    elements a row (R146). -/
def cubeElem (s : State) (t at_ c r k : Nat) : FNum :=
  decodeElem c (storeBits s t at_ (elemBits c * (k / stepK c * (8 * stepK c) + r * stepK c + k % stepK c)) (elemBits c))

/-- One element of VCVT and the bits of VEC_STATUS that it sets (R209, Table 7.4): from an element of type `ty` to one of type
    `dst`, toward zero or to nearest even. -/
def cvtElem (ty dst : Nat) (zero : Bool) (x : Nat) : Nat × Word :=
  let v := if ty ≤ 2 then decodeFloat (tyFmt ty) x else ofInt (BitVec.ofNat (tyBits ty) x).toInt 0
  let mode : RMode := if zero then .towardZero else .nearestEven
  if ty = dst then (x, 0)
  else if dst ≤ 2 then
    let f := tyFmt dst
    match v with
    | .fin m e =>
      match roundFin f mode m e with
      | .small neg => (signBit f neg, 0)
      | .fits q u => (encodeFloat f (.fin q u), 0)
      | .past neg => if zero then (encodeFloat f (maxFin f neg), 0) else (encodeFloat f (.inf neg), 6)
    | y => (encodeFloat f y, 0)
  else
    let hi : Int := 2 ^ (tyBits dst - 1) - 1
    let code (n : Int) : Nat := (BitVec.ofInt (tyBits dst) n).toNat
    match v with
    | .nan => (0, 8)
    | .inf neg => (code (if neg then -hi - 1 else hi), 8)
    | y => (code (max (-hi - 1) (min hi (roundInt mode y))), if -hi - 1 ≤ roundInt mode y ∧ roundInt mode y ≤ hi then 0 else 8)

/-- Bytes of an operand span of `tk` K elements in format `c`: a scale line of 64 bytes for each K-superblock of a microscaling
    format, and eight rows of elements (R144, R149). -/
def spanLen (c tk : Nat) : Nat := (if isMX c then (tk + 255) / 256 * 64 else 0) + tk * elemBits c

/-- Element (r, k) of an operand span at byte `at_` of the tile's memory (R146 to R148, R178): in step slices of `K` elements a row,
    or in 8 × 8 blocks; the scale byte of its K-block of 32 in the line before its K-superblock of 256. -/
def spanElem (s : State) (t at_ c K : Nat) (tr : Bool) (r k : Nat) : FNum :=
  let w := elemBits c
  let index (k : Nat) : Nat := if tr then k / 8 * 64 + k % 8 * 8 + r else k / K * (8 * K) + r * K + k % K
  if isMX c then
    let line := at_ + k / 256 * (64 + 256 * w)
    fmul (decodeElem c (storeBits s t (line + 64) (w * index (k % 256)) w)) (e8m0 (localByte s t (line + 8 * (k / 32 % 8) + r)).toNat)
  else decodeElem c (storeBits s t at_ (w * index k) w)

/-- The code of Table 4.11 for a descriptor's stored format, and for what the hold buffer keeps of it (R183). -/
def Desc.storedFmt (d : Desc) : Nat := if d.sfmt = 0 then 7 else if d.sfmt = 1 then 8 else 15
def Desc.heldFmt (d : Desc) (exact : Bool) : Nat := if d.keepwide && !exact then 15 else d.storedFmt

/-- R185: act(v) of a descriptor's table. -/
def actOf (s : State) (t : Nat) (d : Desc) (v : FNum) : FNum :=
  let u := scale32 (add32 v (fneg d.alo)) (-d.ash)
  let n : Nat := if isInf u then (if isNeg u then 0 else 255) else (max 0 (min 255 (ffloor u))).toNat
  let e := regGet s (aCubAct t (d.atbl * 256 + n))
  let slope := f32 (fld e 63 32)
  let base := f32 (fld e 31 0)
  if isNan v || isNan u then .nan
  else if isInf u then (if isZero slope then base else fmul slope u)
  else fma32 slope (add32 u (ofInt (-(n : Int)) 0)) base

/-- R181: an element on its way through the stages, each rounded into `f`, under the exponent `ce` that its row carries, a value
    of the scale stream, one of the bias stream and one of the residual stream. -/
def epiValue (s : State) (t : Nat) (d : Desc) (f : Fmt) (ce : Int) (scale bias res : FNum) (x : OutVal) : FNum :=
  let v := match x with
    | .sat neg => .inf neg
    | .num y => rnd f y
  let factor := if d.scen = 0 then .fin 1 0 else if d.scen = 1 then d.sconst else if d.scen = 2 then scale else mul32 d.sconst scale
  let v := if d.scen = 0 ∧ ce = 0 then v else if ce = -128 then .nan else rnd f (fscale (fmul v factor) ce)
  let v := if d.ben then rnd f (fadd v bias) else v
  let v := if d.aen then rnd f (actOf s t d v) else v
  if d.ren then rnd f (fadd v res) else v

/-- One step of CMMA on an element of FP32: the exact sum of its K products, rounded once onto the element (R161, R162). -/
def cubeStep32 (K : Nat) (a b : Nat → FNum) (x : FNum) (step : Nat) : FNum :=
  rnd fp32 (fadd x (stepSum ((List.range K).map (fun j => fmul (a (step * K + j)) (b (step * K + j))))))

/-- One step of CMMA on an element of VL128: each product truncated at the anchor, all added exactly, their sum and its addition
    to the element by Table 5.5 (R158, R164). -/
def cubeStepVl (K : Nat) (anchor : Int) (a b : Nat → FNum) (x : VClass) (step : Nat) : VClass :=
  vaddClass x (vaddClass (.fin 0) (((List.range K).map (fun j =>
    vcontrib anchor (fmul (a (step * K + j)) (b (step * K + j))))).foldl vaddExact (.fin 0)))

/-- A bundle of the C engine issues and passes control, and its result is written: at once where `now`, else by
    RESULT_READY. CUB_STATUS takes `m`; `acc` alone of the accumulators differs, with its carried exponents, as `P` says. -/
def CubeRuns (s : State) (c : Instr) (t : TileId) (acc : BitVec 3) (len : Nat) (now : Bool) (g : Engine) (m : Word)
    (P : Acc → BitVec 64 → Prop) : Prop :=
  ∃ u v, exec c s = .next u ∧ (if now then v = u else exec (.resultReady ⟨t, 1⟩) u = .next v) ∧
    Result { s with free := v.free } v ⟨t, 1⟩ (g.fall len) (aCubStatus t.toNat) m ∧
    P ((getTile v t.toNat).accOf acc) ((getTile v t.toNat).cexpOf acc) ∧
    (getTile v t.toNat).v = (getTile s t.toNat).v ∧
    ∀ b, b ≠ acc → (getTile v t.toNat).accOf b = (getTile s t.toNat).accOf b ∧
      (getTile v t.toNat).cexpOf b = (getTile s t.toNat).cexpOf b

/-- Bits of CUB_STATUS that belong to an accumulator: INF, OVF, NAN and CVT (Table 5.9). -/
def cubBits (acc : BitVec 3) : Word := (0x01010101#64) <<< acc.toNat

/-- A bundle of the C or V engine issues, passes control, and its result goes to the `bs.length` bytes from tile-local
    address `ad` on: nothing else of memory differs, and nothing of the tile but the engine. -/
def StoresRun (s : State) (c : Instr) (a : At) (len : Nat) (now : Bool) (reg : Nat) (m : Word) (o : BitVec 8) (ad n : Nat)
    (byte : Nat → Byte) : Prop :=
  ∃ u v, exec c s = .next u ∧ (if now then v = u else exec (.resultReady a) u = .next v) ∧
    Result { s with mem := v.mem, hold := v.hold } v a (((getEng s a).used o).fall len) reg m ∧
    (getTile v a.tile.toNat).v = (getTile s a.tile.toNat).v ∧ (getTile v a.tile.toNat).acc = (getTile s a.tile.toNat).acc ∧
    (getTile v a.tile.toNat).cexp = (getTile s a.tile.toNat).cexp ∧
    ∀ k b, k < 8192 → b < 0x50000 → localByte v k b =
      if k = a.tile.toNat ∧ ad ≤ b ∧ b < ad + n then byte (b - ad) else localByte s k b

/-! ### Commands whose effect is said row by row -/

/-- A command, when it has the effect, and what the next state then holds. -/
abbrev Case := Instr × Prop × (State → Prop)

/-- Every row's command answers a next state that holds what the row says. -/
def Cases (s : State) (rows : List Case) : Prop := ∀ c ∈ rows, c.2.1 → ∃ t, exec c.1 s = .next t ∧ c.2.2 t

/-- No register differs but those of a list. -/
def OnlyRegs (s t : State) (as : List Nat) : Prop := ∀ a, a ∉ as → regGet t a = regGet s a

/-- One report has been raised, with this code from this unit. -/
def Says (s t : State) (code unit : Nat) : Prop :=
  ∃ r, t.rep.raised = s.rep.raised ++ [r] ∧ r.code = BitVec.ofNat 16 code ∧ r.unit = unit

/-- An access is refused: it completes with error and raises its code, and nothing else happens. -/
def Refused (s t : State) (code unit : Nat) : Prop :=
  t = { s with reply := t.reply, rep := t.rep, free := t.free } ∧ t.reply.1 = code ∧ Says s t code unit

/-- A write is performed: it completes without error, and no register but those of a list differs, nor anything else. -/
def Written (s t : State) (as : List Nat) : Prop :=
  t = { s with reply := t.reply, regs := t.regs } ∧ t.reply.1 = 0 ∧ OnlyRegs s t as

/-- A register's fields are as those of a word. -/
def FieldsAre (w v : Word) (fs : List (Nat × Nat)) : Prop := ∀ f ∈ fs, fld w f.1 f.2 = fld v f.1 f.2

/-! ### Reeds -/

/-- The words of the entry at a running Reed's HEAD, which no retraining channel and no stopped clock holds back, and the state `y`
    that reading them leaves (R225, R227). -/
def ReedHas (s y : State) (n : Nat) (k : RCmd) : Prop :=
  reedOn s n = true ∧ reedState s n = 1 ∧ reedHead s n ≠ reedTail s n ∧ (getReed s n).bad = none ∧ y.regs = s.regs ∧
  heldBack s (memSpan (rf s (aReedRing n) 47 6 * 64 + reedHead s n % 2 ^ rf s (aReedRing n) 51 48 * 32) 32) = false ∧
  ∃ bs, memRead s (.reed (BitVec.ofNat 9 n))
      (rf s (aReedRing n) 47 6 * 64 + reedHead s n % 2 ^ rf s (aReedRing n) 51 48 * 32) 32 = (bs, 0, y) ∧
    bs = [k.w0, k.w1, k.w2, k.w3].flatMap wordLE

/-- A Reed has taken its entry (R227): HEAD has passed it, RUN_TAG is its TAG, the Reed stands as `r`, and beyond its status the
    state is `z`, as the command's reads have left it. -/
def ReedTook (s z t : State) (n : Nat) (k : RCmd) (r : Reed) : Prop :=
  t = { z with regs := t.regs, reed := t.reed, free := t.free } ∧ OnlyRegs s t [aReedStatus n] ∧
  reedHead t n = (reedHead s n + 1) % 65536 ∧ rf t (aReedStatus n) 59 44 = fld k.w0 15 0 ∧ reedState t n = 1 ∧
  getReed t n = r ∧ ∀ m, m ≠ n → getReed t m = getReed s m

/-- A Reed that owes the token of command word W0 once `left` deliveries are made. -/
def Reed.owes (r : Reed) (w0 : Word) (left : Nat) : Reed :=
  { r with toks := r.toks ++ [⟨left, fld w0 47 35, fld w0 34 31, fld w0 30 23, fld w0 15 0⟩] }

/-- W0 of a Reed command of operation `op` with its reserved fields 0 (Table 8.1). -/
def ReedW0 (w : Word) (op : Nat) : Prop := fld w 63 60 = op ∧ fld w 59 48 = 0 ∧ fld w 22 16 = 0

/-- The exact dot product of a weight row and a vector as a VL128 word at an anchor (R232). -/
def reedDot (anchor : Int) (k : Nat) (w x : Nat → FNum) : BitVec 128 :=
  vword (((List.range k).map (fun i => vcontrib anchor (fmul (w i) (x i)))).foldl vaddClass (.fin 0))

/-! ### HBM -/

/-- No held work is to read or write granule `g` (R264). -/
def Unwaited (s : State) (g : Nat) : Prop := ∀ w ∈ s.waits, ∀ x ∈ w.spans, ¬(x.1 / 64 ≤ g ∧ g * 64 < x.1 + x.2)

/-- A granule of HBM that a request can be served from at once: a region places it, its channel serves it and does not retrain
    (R242, R268, R269), no older request to it waits, and the device reads it without error. -/
def Served (s : State) (g : Nat) (n : Nat) (p : Spot) : Prop :=
  place s (g * 64) = some (n, p) ∧ chanCode s p.chan = 0 ∧ chState s p.chan ≠ 1 ∧ Unwaited s g ∧ p.key ∉ s.bad

/-- Byte `i` of the device from a place on. -/
def devByte (s : State) (key i : Nat) : Byte := tget (devDefault s (key + i)) s.dev (key + i)

/-- Byte `i` of a granule's 64. -/
def byteOf (d : BitVec 512) (i : Nat) : Byte := d.extractLsb' (8 * i) 8

/-- Table 9.3: what a record of an OP and a TYPE makes of the value at its target, `old`, and its operand. -/
def atomResult (op ty old arg : Nat) : Nat :=
  let pick (lt : Bool) : Nat := if lt = true then (if op = 2 then old else arg) else (if op = 2 then arg else old)
  if ty = 4 then
    toBits fp32 (if op = 1 then fadd (f32 old) (f32 arg) else if op = 2 then fmin (f32 old) (f32 arg) else fmax (f32 old) (f32 arg))
  else if ty = 5 then (vword (vaddClass (vclass (BitVec.ofNat 128 old)) (vclass (BitVec.ofNat 128 arg)))).toNat
  else
    let w := if ty = 0 ∨ ty = 2 then 32 else 64
    if op = 1 then (old + arg) % 2 ^ w
    else if ty = 0 ∨ ty = 1 then pick ((BitVec.ofNat w old).slt (BitVec.ofNat w arg)) else pick (decide (old < arg))

/-- Head `x` of class `c` beats head `y` of class `d` in a round (R261). -/
def Beats (c : Nat) (x : ArbReq) (d : Nat) (y : ArbReq) : Prop :=
  y.prio < x.prio ∨ (y.prio = x.prio ∧ (y.lost < x.lost ∨ (y.lost = x.lost ∧ c < d)))

/-- The class queue of an arbiter. -/
def Arb.of (a : Arb) (c : Nat) : List ArbReq := tget [] a.q c

/-- Every pseudo-channel's refresh interval and share of grants at a reading of more than 95 °C, and of at most 83 °C (R265). -/
def coolOrHot (t : Int) : Option (Nat × Nat) := if 95 < t then some (3, 2) else if t ≤ 83 then some (0, 0) else none

/-! ### Tenon -/

/-- Reports have been raised, one of them with this code from this unit. -/
def SaysAmong (s t : State) (code unit : Nat) : Prop :=
  ∃ rs, t.rep.raised = s.rep.raised ++ rs ∧ ∃ r ∈ rs, r.code = BitVec.ofNat 16 code ∧ r.unit = unit

/-- A message of an opcode that its destination die can take (R278, Table 10.8). -/
def TakesMessage (s : State) (m : TMsg) (opc : Nat) : Prop :=
  tmOpc m = opc ∧ tmDdie m < 12 ∧ dieIsolated s (tmDdie m) = false ∧ tmLen m ≤ 576

/-- The flits of a message from a SEQ on, with an ACK and no credits (R277, R278, R281). -/
def flitsFrom (seq : Nat) (ack : BitVec 8) : List (BitVec 192 × BitVec 3 × BitVec 2 × Bool) → List (BitVec 256)
  | [] => []
  | f :: fs => mkFlit (seq % 256) ack.toNat f.2.1.toNat f.2.2.1.toNat f.2.2.2 0 0 f.1 :: flitsFrom (seq + 1) ack fs

/-- The lane of a message on a FULL link (R283). -/
def fullLane (m : TMsg) : Nat :=
  let u := tmUnit m
  u % 16 ^^^ (u / 16 % 16) ^^^ (u / 256 % 16) ^^^ (u / 4096 % 16) ^^^ tmSdie m

/-- The lane of a link end. -/
def laneOf (s : State) (d p l : Nat) : TLane := getTLane (getEnd s (d * 4 + p)) l

/-- A re-admission write is refused: the code stands in FAULT and is raised for the die, and nothing else happens (R294). -/
def StepRefused (s t : State) (d : Nat) : Prop :=
  t = { s with reply := t.reply, regs := t.regs, rep := t.rep, free := t.free } ∧ t.reply.1 = 0x3021 ∧
  OnlyRegs s t [aTenDieStatus d] ∧ rf t (aTenDieStatus d) 15 0 = 0x3021 ∧
  rf t (aTenDieStatus d) 63 60 = rf s (aTenDieStatus d) 63 60 ∧ Says s t 0x3021 (0x6000 + d * 8 + 7)

/-- A re-admission step runs: STATE stays and BUSY reads 1 (R294). -/
def StepRuns (s t : State) (d step : Nat) : Prop :=
  t.reply.1 = 0 ∧ t.rep = s.rep ∧ t.mem = s.mem ∧ t.tile = s.tile ∧ rbit t (aTenDieStatus d) 52 = true ∧
  rf t (aTenDieStatus d) 63 60 = rf s (aTenDieStatus d) 63 60 ∧ tget 0 t.ten.step d = step

/-! ### The fabric -/

/-- A router takes a packet in from a port: no copy of it waits to be delivered here, the port is UP, its CRC holds, the module
    has an identity, and the packet is well formed and of the module's own epoch (R303, R310, R317). -/
def TakenIn (s : State) (port : Nat) (p : Packet) : Prop :=
  s.fab.held.any (isLocal p) = false ∧ port < 15 ∧ (port < 6 → portUp s port = true) ∧ p.crcOk = true ∧
  idValid s = true ∧ malformed p = false ∧ pkEpoch p = rbit s aFabEpoch 63

/-- A packet of an opcode, in the class that Table 11.4 gives it, for this module, that its receive context accepts (R323). -/
def Accepts (s : State) (port : Nat) (p : Packet) (opc : Nat) : Prop :=
  let n := pkFlow p
  let f := flowOf s n
  TakenIn s port p ∧ pkMc p = false ∧ pkDst p = moduleId s ∧ pkOpc p = opc ∧ opcClass opc = some (pkCls p) ∧
  flowEn s n = true ∧ flowRecv s n = true ∧ flowPeer s n = pkSrc p ∧ flowClass s n = pkCls p ∧
  pkSeq p ∉ f.map ∧ (pkSeq p + 65536 - f.exp) % 65536 < 256

/-- The state once a packet has been accepted: its cells are freed and its SEQ is marked. -/
def accepted (s : State) (port : Nat) (p : Packet) : State :=
  setFlow (freeCells s p port) (pkFlow p) (markSeq (flowOf s (pkFlow p)) (pkSeq p))

/-- A send context toward a module in a class with room: it may open an operation at once (R321, R322). -/
def Sends (s : State) (peer cls n : Nat) : Prop :=
  idValid s = true ∧ sendFlow s peer cls = some n ∧ flowBroken s n = false ∧ (flowOf s n).ops.length < 16 ∧
  ∀ o ∈ (flowOf s n).ops, o.opid ≠ none

/-- An operation opens in a send context (R322), and nothing else happens. -/
def Opens (s t : State) (n : Nat) (k : FKind) (owner : FOwner) : Prop :=
  let f := flowOf s n
  t = { s with fab := { s.fab with flows := t.fab.flows, nextUid := s.fab.nextUid + 1 } } ∧
  (∀ m, m ≠ n → flowOf t m = flowOf s m) ∧
  flowOf t n = { f with ops := f.ops ++ [{ uid := s.fab.nextUid, kind := k, owner := owner, opid := some f.nextOpid }]
                        nextOpid := (f.nextOpid + 1) % 65536 }

/-- An optical port that R314 chooses from the minimal set of a packet's entry: the one UP port with most credit, the
    lowest on a tie. -/
def Chosen (s : State) (p : Packet) (o : Nat) : Prop :=
  let e := regGet s (if pkEpoch p = true then aFabRouteB (pkDst p) else aFabRouteA (pkDst p))
  let min (q : Nat) : Prop := q < 6 ∧ e.getLsbD q = true ∧ portUp s q = true
  e.getLsbD 63 = true ∧ pkHops p ≠ 127 ∧ pkDet p = false ∧ min o ∧ e.getLsbD (8 + o) = false ∧
  ∀ q, q ≠ o → min q → freeCredit s q (pkVc p) < freeCredit s o (pkVc p) ∨ (freeCredit s q (pkVc p) = freeCredit s o (pkVc p) ∧ o < q)

/-- W0 of a packet as it leaves by port `o` after it came by port `a`: HOPS rises, DL is cleared as the axis changes and set at a
    dateline (R311, R312, R314); DET, which is 0, stays. -/
def leavingW0 (s : State) (p : Packet) (a o : Nat) : Word :=
  let turn := a < 6 ∧ o / 2 ≠ a / 2
  let dl := rbit s aFabCfg (50 + o) = true ∨ (p.w0.getLsbD 27 = true ∧ ¬turn)
  BitVec.ofNat 64 ((p.w0.toNat / 2 ^ 28 * 2 + (if dl then 1 else 0)) * 2 ^ 27 + p.w0.toNat % 2 ^ 27 / 2 ^ 7 * 2 ^ 7 + pkHops p + 1)

/-- The cells queued on the lanes of Bell `b`, in sixteenths from place `base` of the table on, as `n` cells more join those of
    lane `l`: the lane in service with the fewest cells queued, the lowest on a tie (R355). With no lane in service none takes
    them. -/
def LaneTaken (s : State) (q r : Tbl Nat) (b base l n : Nat) : Prop :=
  let served (k : Nat) : Prop := k < 32 ∧ rbit s (aBelLanes b) (32 + k) = true
  let cells (k : Nat) : Nat := (tget 0 q (base + k) + 15) / 16
  ((∃ k, served k) → served l ∧ (∀ k, served k → cells l < cells k ∨ (cells l = cells k ∧ l ≤ k)) ∧
    ∀ j, tget 0 r j = tget 0 q j + if j = base + l then 16 * n else 0) ∧
  ((¬∃ k, served k) → l = 0 ∧ r = q)

/-- A packet has left by port `o` on one of its lanes: it is held until the peer frees its cells, its cells are taken from the
    credit of its VC, and PKTS counts it (R317, R355, R357). -/
def Leaves (s t : State) (o : Nat) (q orig : Packet) (a : Nat) (own : Option (Nat × Nat)) : Prop :=
  let n := tget 0 s.fab.sent (o * 8 + pkVc q) + pkCells q
  (∃ l, LaneTaken s s.fab.laneQ t.fab.laneQ o (o * 32) l (pkCells q) ∧ t.fab = { s.fab with
    held := s.fab.held ++ [{ port := o, pkt := q, orig := orig, from_ := a, own := own, last := n, lane := l }]
    sent := tset 0 s.fab.sent (o * 8 + pkVc q) n, flows := t.fab.flows, laneQ := t.fab.laneQ }) ∧
  (own = none → t.fab.flows = s.fab.flows) ∧
  OnlyRegs s t [aFabPortPkts o] ∧ rf t (aFabPortPkts o) 63 0 = (rf s (aFabPortPkts o) 63 0 + 1) % 2 ^ 64

/-- A port with credit for a packet and nothing queued. -/
def PortFree (s : State) (o : Nat) (q : Packet) : Prop :=
  pkCells q ≤ freeCredit s o (pkVc q) ∧ ∀ h ∈ s.fab.held, h.port = o → h.last ≠ 0

/-- One discard is counted in a field of a port's _DROP, which saturates. -/
def Dropped (s t : State) (port hi lo k : Nat) : Prop :=
  OnlyRegs s t [aFabPortDrop port] ∧
  rf t (aFabPortDrop port) hi lo = Nat.min (2 ^ (hi + 1 - lo) - 1) (rf s (aFabPortDrop port) hi lo + k)

/-- The transfer of an engine that an operation belongs to has heard of the operation's end (R129); its first error stands, with
    the PEER and REMOTE `w` that a report of it carries (R480). -/
def Engine.heard (g : Engine) (xid code : Nat) (w : Nat × Bool) : Engine :=
  { g with xfers := g.xfers.map (fun x =>
      if x.id = xid then { x with
        left := x.left - 1, code := if x.code = 0 then BitVec.ofNat 16 code else x.code
        from_ := if code ≠ 0 ∧ x.code = 0 then w else x.from_ } else x) }

/-- The only open operation of a send context closes. -/
def Closes (s t : State) (n : Nat) : Prop :=
  t.fab = { s.fab with flows := t.fab.flows } ∧ (flowOf t n).ops = [] ∧ (flowOf t n).unacked = (flowOf s n).unacked ∧
  ∀ m, m ≠ n → flowOf t m = flowOf s m

/-! ### Flows -/

/-- Tables 11.3 and 11.4: opcode, W3 and payload of packet `i` of an operation. -/
def CarriesPart (s : State) (k : FKind) (i opc : Nat) (w3 : Word) (bs : List Byte) : Prop :=
  let part (t src len : Nat) : List Byte :=
    (List.range (Nat.min 512 (len - i * 512))).map (fun j => localByte s t (src + i * 512 + j))
  match k with
  | .put t src dst len rcnt rsem rtile =>
    t < 8192 ∧ src + len ≤ 0x40000 ∧
    (if i * 512 < len then opc = 1 ∧ w3 = BitVec.ofNat 64 (dst + i * 512) ∧ bs = part t src len
     else opc = 2 ∧ bs = [] ∧
       w3 = BitVec.ofNat 64 ((len + 511) / 512 * 2 ^ 44 + rtile * 2 ^ 31 + rsem * 2 ^ 27 + rcnt * 2 ^ 19))
  | .get src dst len => opc = 3 ∧ w3 = BitVec.ofNat 64 src ∧ dst < 2 ^ 48 ∧ bs = natLE 8 dst ++ natLE 4 len
  | .ld a => opc = 4 ∧ w3 = BitVec.ofNat 64 a ∧ bs = []
  | .st a v => opc = 5 ∧ w3 = BitVec.ofNat 64 a ∧ bs = wordLE v
  | .getData dst data opid status =>
    if i * 512 < data.length then opc = 0x11 ∧ w3 = BitVec.ofNat 64 (dst + i * 512) ∧ bs = (data.drop (i * 512)).take 512
    else opc = 0x12 ∧ bs = [] ∧ w3 = BitVec.ofNat 64 ((data.length + 511) / 512 * 2 ^ 44 + status * 2 ^ 16 + opid)
  | .opack opid status => opc = 0x13 ∧ bs = [] ∧ w3 = BitVec.ofNat 64 (status * 2 ^ 16 + opid)
  | .ldrsp opid status v => opc = 0x14 ∧ bs = wordLE v ∧ w3 = BitVec.ofNat 64 (status * 2 ^ 16 + opid)
  | .msg t src q len => t < 8192 ∧ src + len ≤ 0x40000 ∧ len ≤ 512 ∧ i = 0 ∧ opc = 0x30 ∧ w3 = BitVec.ofNat 64 q ∧ bs = part t src len

/-- No transfer that runs beside the owner's writes a byte of the packet's payload (R113). -/
def Steady (s : State) (o : FOwner) (k : FKind) (i : Nat) (bs : List Byte) : Prop :=
  match o with
  | .xfer e xid => ∀ x ∈ (getEng s e).xfers, x.id = xid → ∀ d ∈ x.dirty,
      d.1 + d.2 ≤ payloadSource k i ∨ payloadSource k i + bs.length ≤ d.1
  | _ => True

/-- The packets that an operation sends (Table 11.2, R304). -/
def partsOf : FKind → Nat
  | .put _ _ _ len _ _ _ => (len + 511) / 512 + 1
  | .getData _ data _ _ => (data.length + 511) / 512 + 1
  | _ => 1

/-- The packet of a send context `n` that carries a part (R308, R309, Table 11.3), as it enters the router. -/
def flowPacket (s : State) (n seq opid opc : Nat) (last : Bool) (stamp w3 : Word) (bs : List Byte) : Packet :=
  let cls := flowClass s n
  { w0 := BitVec.ofNat 64 (flowPeer s n * 2 ^ 48 + moduleId s * 2 ^ 32 + cls * 2 ^ 30 + cls * 2 ^ 28 +
            (if rbit s aFabEpoch 63 = true then 2 ^ 26 else 0) + (if last = true then 2 ^ 24 else 0))
    w1 := BitVec.ofNat 64 (flowRidx s n * 2 ^ 48 + seq * 2 ^ 32 + bs.length * 2 ^ 22 + opc * 2 ^ 16 + opid)
    w2 := stamp, w3 := w3, payload := bs }

/-- The port by which an owner's packets enter the router: of its die, or the host port where a port die answers (R297, R314). -/
def entryPort : FOwner → Nat
  | .xfer e _ => 6 + e.tile.toNat / 1024
  | .scalar e => 6 + e.tile.toNat / 1024
  | .answer p => if p < 6 then 14 else p

/-- No unit of a die that is cut out owns the operation. -/
def Lives (s : State) (o : FOwner) : Prop :=
  match o with
  | .xfer e _ => tileIsolated s e.tile.toNat = false
  | .scalar e => tileIsolated s e.tile.toNat = false
  | .answer _ => True

/-! ### Bells -/

/-- No move of Table 12.6 is due at a Bell, and no lane of an UP link is due to rejoin or to leave. -/
def Rests (s : State) (b : Nat) : Prop :=
  let st := belState s b
  let x := getBell s b
  let ready := (lanesOf b).filter (laneMeets s b)
  (1 ≤ st → st ≤ 4 → minLanes b ≤ canServe s b) ∧
  (st = 1 → ((lanesOf b).filter (laneLit s)).length < minLanes b) ∧
  (st = 2 → ∃ l ∈ lanesOf b, laneLit s l = true ∧ txState s b l ≠ 2 ∧ x.txFail.getLsbD l = false ∧ laneDisabled s b l = false) ∧
  (st = 3 → (∃ l ∈ lanesOf b, rxState s b l ≠ 2 ∧ laneDisabled s b l = false) ∨ x.peer < 3 ∨ 5 < x.peer) ∧
  (st = 4 → x.matched < 16 ∨ ready.length < minLanes b) ∧
  (st = 5 → minLanes b ≤ rf s (aBelStatus b) 59 54 ∧
    ∀ l ∈ lanesOf b, (laneMeets s b l = true → inServ s b l = true) ∧ (laneOff s b l = true → inServ s b l = false))

/-- The rings of a Bell are dark and its heaters 0. -/
def Dark (t : State) (b : Nat) (lit : Nat → Nat) : Prop :=
  ∀ l ∈ lanesOf b, rf t (aBelRingT b l) 63 60 = lit l ∧ rf t (aBelRingT b l) 57 48 = 0 ∧ rf t (aBelRingT b l) 9 0 = 0 ∧
    rf t (aBelRingR b l) 63 60 = 0 ∧ rf t (aBelRingR b l) 57 48 = 0 ∧ rf t (aBelRingR b l) 9 0 = 0

/-- The rings, lanes and status of one Bell. -/
def bellRegs (b : Nat) : List Nat :=
  [aBelStatus b, aBelLanes b] ++ (lanesOf b).flatMap (fun l => [aBelRingT b l, aBelRingR b l])

/-- A Bell as it speaks: the STAT of a link that trains or is UP goes out where it has changed (R352, R356). -/
def spoken (s : State) (b : Nat) : Bell :=
  let x := getBell s b
  if belState s b = 0 ∨ belState s b = 7 ∨ x.said = some (ownStat s b) then x
  else { x with said := some (ownStat s b), out := statBytes (ownStat s b) :: x.out }

/-- A Bell has spoken, and nothing else has happened. -/
def Spoke (s t : State) (b : Nat) : Prop :=
  t = { s with bell := t.bell } ∧ getBell t b = spoken s b ∧ ∀ c, c ≠ b → getBell t c = getBell s c

/-- Codewords of a block whose count of wrong symbols lies from `lo` on. -/
def wrongWords (k : LaneBlock) (lo : Nat) : Nat := ((List.range 9).filter (fun i => decide (lo ≤ k.errs.getD i 0))).length

/-- Training has started (R351) at a Bell that stood as `x`: from LIGHT on to TXLOCK where the lines present feed the minimum
    of lanes, whose rings then search from HEAT 0; no lane is in service or DISABLED, and the STAT says so. -/
def Trains (s t : State) (b : Nat) (x : Bell) : Prop :=
  let enough := minLanes b ≤ ((lanesOf b).filter (laneLit s)).length
  rf t (aBelStatus b) 63 60 = (if enough then 2 else 1) ∧ rf t (aBelStatus b) 59 54 = 0 ∧ regGet t (aBelLanes b) = 0 ∧
  rf t (aBelStatus b) 15 8 = Nat.min 255 (rf s (aBelStatus b) 15 8 + 1) ∧ rbit t (aBelStatus b) 53 = false ∧
  Dark t b (fun l => if enough then (if laneLit s l = true then 1 else 5) else 0) ∧
  getBell t b = { left := x.left, causes := x.causes, los := x.los, said := some (ownStat t b)
                  out := statBytes (ownStat t b) :: x.out }

/-! ### The host link -/

/-- A frame of a type arrives in order on the UP link, which holds no frame of its own unanswered (R399). -/
def InOrder (s : State) (f : Frame) (tt : Nat) : Prop :=
  hlUpNow s = true ∧ f.crcOk = true ∧ frTT f = tt ∧ frSeq f = s.hl.expect ∧ s.hl.replay = []

/-- The state once a frame in order has been taken. -/
def inOrder (s : State) : State := { s with hl := { s.hl with expect := (s.hl.expect + 1) % 65536 } }

/-- The module owes the host an answer (R401), and nothing else differs. -/
def Owes (s t : State) (tt len tag : Nat) (w1 : Word) (body : List Byte) : Prop :=
  t = { s with hl := { s.hl with answers := s.hl.answers ++
    [{ w0 := BitVec.ofNat 64 (tt * 2 ^ 58 + len * 2 ^ 48 + tag), w1 := w1, w2 := 0, body := body }] } }

/-- The link sends a frame at once: nothing waits, and fewer than 256 frames are held (R399). -/
def LinkFree (s : State) : Prop := hlUpNow s = true ∧ s.hl.wait = [] ∧ s.hl.replay.length < 256

/-- A frame's ceil((28 + LEN) / 64) cells have joined those of lane `l` of Bell H (R355, R398). -/
def TakesLane (s t : State) (f : Frame) (l : Nat) : Prop :=
  LaneTaken s s.hl.laneQ t.hl.laneQ 6 0 l ((91 + f.body.length) / 64)

/-- A request that came before holds back those that follow (R401). -/
def asksWait (s : State) : Bool := s.waits.any (fun w => w.work.isAsk)

/-- The requests unanswered: those whose answer waits to go, and those that wait to be performed. -/
def unanswered (s : State) : Nat := s.hl.answers.length + (s.waits.filter (fun w => w.work.isAsk)).length

/-- A frame has been sent: it carries the next LSEQ, LACK and a stamp, its cells go to the lanes, and it is held for replay
    (R398, R399). -/
def Sent (s t : State) (tt len tag : Nat) (w1 : Word) (body : List Byte) : Prop :=
  ∃ (f : Frame) (l : Nat), f.body = body ∧ f.w1 = w1 ∧ f.crcOk = true ∧ TakesLane s t f l ∧
    f.w0 = BitVec.ofNat 64 (tt * 2 ^ 58 + len * 2 ^ 48 + s.hl.next % 65536 * 2 ^ 32 + (s.hl.expect + 65535) % 65536 * 2 ^ 16 + tag) ∧
    t = { s with
      hl := { s.hl with
        replay := s.hl.replay ++ [f], next := (s.hl.next + 1) % 65536
        wire := frWire f :: s.hl.wire, laneQ := t.hl.laneQ }
      free := t.free, rep := t.rep } ∧ t.rep.raised = s.rep.raised ∧ t.rep.sent = s.rep.sent ∧ t.rep.kept = s.rep.kept

/-- An unsequenced frame, NOP or NAK, has been sent with the LACK. -/
def SentUnseq (s t : State) (tt : Nat) : Prop :=
  ∃ (f : Frame) (l : Nat), TakesLane s t f l ∧ f.w0 = BitVec.ofNat 64 (tt * 2 ^ 58 + (s.hl.expect + 65535) % 65536 * 2 ^ 16) ∧ f.w1 = 0 ∧ f.body = [] ∧
    f.crcOk = true ∧ t = { s with
      hl := { s.hl with unseq := f :: s.hl.unseq, wire := frWire f :: s.hl.wire, laneQ := t.hl.laneQ }
      free := t.free, rep := t.rep } ∧ t.rep.raised = s.rep.raised

/-- No DMA queue runs. -/
def DmaQuiet (s : State) : Prop := ∀ q < 16, dqState s q ≠ 1

/-- No answer of this frame waits for the close of a region (R247). -/
def FreeToGo (s : State) (f : Frame) : Prop := ∀ c ∈ s.hl.closes, c.1 = f → isClosing s c.2 = false

/-- The oldest answer leaves the list. -/
def answerGone (s : State) (f : Frame) (rest : List Frame) : State :=
  { s with hl := { s.hl with answers := rest, closes := s.hl.closes.filter (fun c => c.1 ≠ f) } }

/-- One DMA queue stands otherwise, and nothing else of the host link. -/
def OnlyDq (s t : State) (q : Nat) (x : DmaQ) : Prop :=
  t.hl = { s.hl with dq := t.hl.dq } ∧ getDq t q = x ∧ ∀ p, p ≠ q → getDq t p = getDq s p

/-- A DMA queue has stopped in FAULTED with a code and a TAG (R406). -/
def DmaFaults (s t : State) (q code tag : Nat) : Prop :=
  t = { s with regs := t.regs, hl := t.hl, rep := t.rep, free := t.free } ∧
  OnlyDq s t q { getDq s q with cur := none, fetched := [] } ∧ OnlyRegs s t [aHlDqCtrl q] ∧
  dqState t q = 2 ∧ rf t (aHlDqCtrl q) 47 32 = code ∧ rf t (aHlDqCtrl q) 31 16 = tag ∧ Says s t code (0x10 + q)

/-! ### The Chanter -/

/-- A lane whose head `e` can start at once (R368): its wait is 0, its group is enabled on this lane with LOCV 0 and no multicast,
    the counts have room, the lane's die answers, nothing of the collective has come yet, and no access of it waits (R268). -/
structure CanCollect (s : State) (l : Nat) (e : ChEntry) (rest : List ChEntry) : Prop where
  queue : (getLane s l).queue = e :: rest
  wait : e.waitCnt = 0
  credit : fld e.w0 34 33 = 0
  lane : dieIsolated s (8 + l) = false ∧ domOn s (96 + 4 * l + 1) = true
  ident : idValid s = true
  room : grpOutst s e.group < 8 ∧ laneInflight s l < 16
  group : let w := regGet s (aChnGrpCtrl e.group)
    bit w 63 = true ∧ ctrlLane w = l ∧ ctrlLocv w = false ∧ ctrlMcen w = false
  fresh : ∀ c ∈ s.chn.colls, ¬(c.grp = e.group ∧ c.seq = grpNext s e.group)
  early : ∀ p ∈ s.chn.early, ¬(pkGroup p.pkt = e.group ∧ pkSeq p.pkt = grpNext s e.group)
  atOnce : heldBack s ((newColl s l e (grpNext s e.group)).spans s) = false

/-- The collective that a head starts. -/
def CollOf (c : Coll) (s : State) (l : Nat) (e : ChEntry) : Prop :=
  c.grp = e.group ∧ c.seq = grpNext s e.group ∧ c.lane = l ∧ c.cmd = e ∧ c.ended = false

/-- A collective has started (R368 step 3): the slot is free, NEXTSEQ and OUTST have risen by 1, and it is in flight as `c`. -/
def Collects (s t : State) (l : Nat) (e : ChEntry) (rest : List ChEntry) (c : Coll) : Prop :=
  let g := e.group
  CollOf c s l e ∧ collOf t g (grpNext s g) = some c ∧ getLane t l = { getLane s l with queue := rest } ∧
  grpNext t g = (grpNext s g + 1) % 65536 ∧ grpOutst t g = grpOutst s g + 1 ∧ t.rep.raised = s.rep.raised ∧
  OnlyRegs s t [aChnGrpStat g, aChnLaneStatus l, aChnLaneBar l, aChnLaneLate l] ∧
  t = { s with chn := t.chn, mem := t.mem, regs := t.regs, rep := t.rep, free := t.free }

/-- The staging slot of collective `q` of a group, or the one that it takes where one is free: that of its number modulo 8, else
    the lowest (R365). -/
def slotFor (s : State) (g q : Nat) : Option Nat := (stageSlot s g q).or ((q % 8 :: List.range 8).find? (slotFree s g))

/-- Where the contributions of module `m` to the collective in a slot of a group lie in the staging area, with LOCV 0 (R365,
    R385). -/
def stageAt (s : State) (g slot nmod m : Nat) (ctrl : Word) : Nat :=
  rf s (aChnGrpStage g) 47 6 * 64 + (slot * nmod + m) * (2 * ctrlChunk ctrl)

/-- Memory holds a result at OUT and, beside it, contributions in the staging area; no other byte differs. -/
def Staged (s t : State) (out : Nat) (res : List Byte) (base : Nat) (st : List Byte) : Prop :=
  ∀ b, rdByte t.mem b = if out ≤ b ∧ b < out + res.length then res.getD (b - out) 0
    else if base ≤ b ∧ b < base + st.length then st.getD (b - base) 0 else rdByte s.mem b

/-- The Chanter as a group's EN is set or cleared: nothing of its earlier collectives stays (R364). -/
def forgets (s : State) (g : Nat) : State :=
  { s with chn := { s.chn with
      colls := s.chn.colls.filter (fun c => decide (c.grp ≠ g))
      slots := s.chn.slots.filter (fun x => decide (x.1 ≠ g))
      early := s.chn.early.filter (fun e => decide (pkGroup e.pkt ≠ g)) } }

/-- A group of this module alone: no axis is masked (R361, R362). -/
def Alone (s : State) (g : Nat) : Prop := fld (regGet s (aChnGrpCtrl g)) 53 51 = 0

/-- A COL packet of a KIND for a collective in flight of its group's current definition, no access of which waits (R383, R268). -/
def Collected (s : State) (port : Nat) (p : Packet) (kind : Nat) (c : Coll) : Prop :=
  let w := regGet s (aChnGrpCtrl (pkGroup p))
  TakenIn s port p ∧ pkMc p = false ∧ pkDst p = moduleId s ∧ pkOpc p = 0x20 ∧ pkKind p = kind ∧ bit w 63 = true ∧
  ctrlGen w = pkGen p ∧ collOf s (pkGroup p) (pkSeq p) = some c ∧ c.ended = false ∧ heldBack s (c.spans s) = false

/-- The collectives in flight are those of `s`, but the one `c` stands as `d`. -/
def CollBecomes (s t : State) (c d : Coll) : Prop :=
  t.chn = { s.chn with colls := s.chn.colls.map (fun x => if x.grp = c.grp ∧ x.seq = c.seq then d else x) }

/-- A collective has failed here (R389): OUTST is lower, FAULT holds the code, and it is in flight no more. -/
def CollFails (s t : State) (c : Coll) (code : Nat) : Prop :=
  collOf t c.grp c.seq = none ∧ grpOutst t c.grp = grpOutst s c.grp - 1 ∧ grpNext t c.grp = grpNext s c.grp ∧
  rf t (aChnLaneStatus c.lane) 35 20 = code ∧ SaysAmong s t code (0x3000 + c.lane)

/-- W0 to W3 of a packet from this module's lane to another member (R383, Table 13.7), as it enters the router. -/
def lanePacket (s : State) (c : Coll) (dst kind att addr : Nat) (stamp : Word) (body : List Byte) : Packet :=
  { w0 := BitVec.ofNat 64 (dst % 65536 * 2 ^ 48 + moduleId s * 2 ^ 32 + 2 * 2 ^ 30 + 2 * 2 ^ 28)
    w1 := BitVec.ofNat 64 (c.grp % 256 * 2 ^ 56 + ctrlGen c.ctrl * 2 ^ 48 + c.seq % 65536 * 2 ^ 32 + body.length % 1024 * 2 ^ 22 +
            0x20 * 2 ^ 16 + kind % 16 * 4096 + att % 4 * 1024)
    w2 := stamp, w3 := BitVec.ofNat 64 (c.me % 65536 * 2 ^ 48 + addr % 2 ^ 48), payload := body }

/-! ### Management paths -/

/-- A datagram has left on the management port (Table 14.6, R416): it carries the next SEQ, a stamp and the module's ID, to the
    fault manager while FMV is 1 where it is an announcement, else to its sender. -/
def Datagrams (s t : State) (type : Nat) (dest : BitVec 128) (body : List Byte) : Prop :=
  ∃ st, t = { s with
      mgt := { s.mgt with
        sent := { type := type, modId := moduleId s, seq := s.mgt.seq, stamp := st, dest := dest, body := body } :: s.mgt.sent
        seq := (s.mgt.seq + 1) % 65536 }
      free := t.free, rep := t.rep } ∧ t.rep.raised = s.rep.raised

/-- A datagram of the management service with a message of a TYPE and body (R415, Table 14.6): both UDP ports 24,880; MAGIC, VER 1,
    TYPE, twelve bytes more of header; 1,232 B at most. -/
def Carries (d : Datagram) (type : Nat) (body : List Byte) : Prop :=
  d.sport = 24880 ∧ d.dport = 24880 ∧ d.data.length ≤ 1232 ∧
  ∃ head, head.length = 12 ∧ d.data = natLE 2 0x4E38 ++ [1, BitVec.ofNat 8 type] ++ head ++ body

/-- The address bytes of the module's SMBus target (R20): its address is 0x58 plus SLOT_ID. -/
def smbusByte (s : State) (read : Bool) : Byte := BitVec.ofNat 8 ((0x58 + s.pins.slot.toNat) * 2 + if read then 1 else 0)

/-- An SMBus command of a code sent to this module. -/
def SmbTo (s : State) (m : SmbCmd) (code : Nat) : Prop := m.addr.toNat = 0x58 + s.pins.slot.toNat ∧ m.code.toNat = code

/-- The packet error code after a write's bytes is right, or there is none. -/
def PecRight (s : State) (m : SmbCmd) (bs : List Byte) : Prop :=
  m.pec = none ∨ m.pec = some (smbPec ([smbusByte s false, m.code] ++ bs))

/-- SMBus has returned these bytes with this packet error code, and nothing else happens; no byte is a NACK. -/
def Smb (s t : State) (bs : List Byte) (pec : Byte) : Prop := t = { s with mgt := { s.mgt with smbOut := (bs, pec) :: s.mgt.smbOut } }

/-- The packet error code of a read of a word's or byte's data, and of a block's, whose byte count goes first. -/
def pecWord (s : State) (code : Byte) (bs : List Byte) : Byte := smbPec ([smbusByte s false, code, smbusByte s true] ++ bs)
def pecBlock (s : State) (code : Byte) (bs : List Byte) : Byte := pecWord s code (BitVec.ofNat 8 bs.length :: bs)

/-- The greatest value of a list. -/
def Greatest (xs : List Int) (x : Int) : Prop := x ∈ xs ∧ ∀ y ∈ xs, y ≤ x

/-- The least value of a list. -/
def Least (xs : List Int) (x : Int) : Prop := x ∈ xs ∧ ∀ y ∈ xs, x ≤ y

/-- The thermal record that the management paths show: zeros where flash holds no uncleared one (R442). -/
def recordShown (s : State) : List Byte := (thermalRec s).getD (List.replicate 4096 0)

/-- The registers that a management WRITE may reach: BEL_CTRL, CHN_LANEl_CTRL, TILE_CTRL, TILE_IBANK, MGT_CTRL and MGT_KFN (R417). -/
def MgtReach (a : Nat) : Prop :=
  (∃ b < 7, a = aBelCtrl b) ∨ (∃ l < 4, a = aChnLaneCtrl l) ∨ (∃ t < 8192, a = aTileCtrl t ∨ a = aTileIbank t) ∨
  a = aMgtCtrl ∨ a = aMgtKfn

/-- The conditions of R418 that stand. -/
def AlertStands (s : State) (k : Nat) : Prop :=
  (k = 0 ∧ rbit s aThmHold 62 = true) ∨
  (k = 1 ∧ ∃ d < 12, ∃ t ∈ validReads s d, (s.thm.soft : Int) * 16 < t) ∨
  (k = 2 ∧ hlState s ≠ 2) ∨ (k = 3 ∧ s.pins.pwrGood = false)

/-- R412: the checks of Table 14.5 that fail. -/
def SiteFails (s : State) (row : Nat) : Prop :=
  let on (b : Nat) : Bool := rbit s (aBelCtrl b) 63
  (row = 1 ∧ (idValid s = false ∨ ∀ k < 4, rf s aFabBoard (16 * k + 15) (16 * k) ≠ moduleId s)) ∨
  (row = 2 ∧ mapId s [rf s aFabCfg 47 43, rf s aFabCfg 42 38, rf s aFabCfg 37 36] ≠ moduleId s) ∨
  (row = 3 ∧ ∃ b < 6, on b = true ∧ rbit s (aMgtDly b) 63 = false) ∨
  (row = 4 ∧ (∃ b < 6, on b = true) ∧ ((List.range 4).filter (fun p => rbit s aMgtSite (56 + p))).length < 3)


/-! ### Power, resets and heat -/

/-- Every register is listed once. -/
def ListedOnce (s : State) : Prop := (s.regs.map Prod.fst).Nodup

/-- The core has lost what it held (R97, R447, R451): memories, caches, Reeds and links are empty, and of a tile only its active
    bank stays. -/
structure CoreEmpty (s t : State) : Prop where
  memory : t.mem = [] ∧ t.hold = [] ∧ t.dev = [] ∧ t.cache = [] ∧ t.chan = [] ∧ t.waits = []
  units : t.reed = [] ∧ t.fab = {} ∧ t.hl = {} ∧ t.chn = {} ∧ t.ten = {} ∧ t.bell = [] ∧ t.chat = none ∧
    t.arb = [] ∧ t.closing = [] ∧ t.cluster = []
  tiles : ∀ n, getTile t n = { bank := (getTile s n).bank }

/-- The fields of the given reset codes of every register that `p` picks read their reset values; the others stand (R13). -/
def ResetWhere (s t : State) (p : Reg → Nat → Bool) (codes : RCode → Bool) : Prop :=
  ∀ a r, regAt a = some r → p r a = true → ∀ f ∈ kindFields r.kind,
    fld (regGet t a) f.hi f.lo = if codes f.code = true then fld (regReset r) f.hi f.lo else fld (regGet s a) f.hi f.lo

/-- A module reset of a cause has run (R447, Table 16.3), and the core stage is started or not. -/
structure ModuleResets (s t : State) (cause : Nat) (pins : Pins) : Prop where
  core : CoreEmpty s t
  regs : ResetWhere s t (fun _ a => !(a == aTenModstat || a == aVrxState || a == aThmHold)) codeM
  cause : rf t aTenModstat 63 60 = cause
  boots : rf t aVrxState 63 60 = 0 ∧ rf t aVrxState 55 52 = 1
  hold : rbit t aThmHold 63 = (thermalRec s).isSome
  records : t.rep.raised = [] ∧ t.rep.kept = [] ∧ t.rep.windows = []
  counter : t.drone.tick = s.drone.tick ∧ t.drone.slew = 0 ∧ t.drone.everAligned = false
  heat : t.thm = {}
  alert : t.mgt.smbMask = 0xF ∧ t.mgt.alert = true
  flash : t.sto.flash = s.sto.flash
  trust : t.sto.meas = [] ∧ t.sto.quote = none ∧ t.sto.pubKey = [] ∧ t.sto.secret = []
  pins : t.pins = pins

/-- What starts the core stage: input and Drone power, no trip, no reset held, no failed rail, no THERMAL record still to be
    written (R24, R26, R443, R453). -/
def CoreMay (s : State) (p : Pins) : Prop :=
  p.input = true ∧ p.drone = true ∧ p.powerLost = false ∧ p.tripLow = false ∧ p.rstLow = false ∧ p.railFail = false ∧
  ∀ c ∈ s.sto.commits, ¬(c.kind = 4 ∧ c.clear = false)

/-- No NVS command runs. -/
def NoCommand (s : State) : Prop := s.sto.cmd = none


/-- R430: the readings in a sample of the sensors next to sensor `k` of die `d`, diagonals among them, that stood not voted out. -/
def nearReadings (s : State) (x : Sample) (d k : Nat) : List Int :=
  let n := if d < 8 then 8 else 4
  ((List.range (n * n)).filter (fun j => j ≠ k ∧ j / n ≤ k / n + 1 ∧ k / n ≤ j / n + 1 ∧ j % n ≤ k % n + 1 ∧ k % n ≤ j % n + 1 ∧
    rbit s (aThmSens d j) 47 = false)).map (fun j => (x.dies.getD d []).getD j 0)

/-- R430: a value that is the median of a list, the lower middle one of an even count. -/
def MedianIs (xs : List Int) (m : Int) : Prop :=
  m ∈ xs ∧ (xs.filter (fun y => decide (y < m))).length ≤ (xs.length - 1) / 2 ∧
  (xs.length - 1) / 2 < (xs.filter (fun y => decide (y ≤ m))).length

/-- Table 15.5: the new level from SOFT, the governed temperature and its values one and ten samples before, in 1/16 °C, whether a
    stack of the die reads above 95 °C, whether the last 100 samples stood at or below SOFT - 5 °C, and the level. -/
def newLevel (soft t t1 t10 : Int) (stackHot cool : Prop) [Decidable stackHot] [Decidable cool] (l : Nat) : Nat :=
  if soft + 6 * 16 ≤ t then 10
  else if soft + 3 * 16 ≤ t then (if t1 ≤ t then Nat.min (Nat.max l 8 + 1) 10 else Nat.max l 8)
  else if soft ≤ t ∧ t1 ≤ t then Nat.min (l + 1) 10
  else if soft - 10 * 16 ≤ t ∧ 2 * 16 ≤ t - t10 then Nat.max l 4
  else if stackHot then Nat.max l 2
  else if cool then l - 1
  else l


/-! ### Flash and trust -/

/-- The current records of all kinds but `k` stand. -/
def OtherRecords (s t : State) (k : Nat) : Prop := ∀ j, 1 ≤ j → j ≤ 11 → j ≠ k → recPayload t j = recPayload s j

/-- A payload that fits the slots of its kind (Tables 16.7 and 16.8). -/
def FitsSlot (kind : Nat) (p : List Byte) : Prop := 1 ≤ kind ∧ kind ≤ 11 ∧ 64 + p.length ≤ (if kind = 2 then 0x8000 else 0x2000) - 16

/-- An NVS command has been accepted (R460): BUSY, its code and DONEB 0, and OP and KIND as written; it will fail with `code` unless
    that is 0. -/
structure NvsStarts (s t : State) (op kind code : Nat) : Prop where
  done : t.reply = (0, [])
  cmd : t.sto.cmd = some (op, kind, rf s aNvsAddr 47 0, rf s aNvsLen 31 0) ∧ t.sto.cmdCode = code
  status : rf t aNvsStatus 63 60 = 1 ∧ rf t aNvsStatus 47 32 = 0 ∧ rf t aNvsStatus 31 0 = 0
  word : rf t aNvsCmd 62 59 = op ∧ rf t aNvsCmd 55 48 = kind ∧ OnlyRegs s t [aNvsStatus, aNvsCmd]
  frame : t = { s with reply := t.reply, regs := t.regs, sto := t.sto } ∧
    t.sto = { s.sto with cmd := t.sto.cmd, cmdCode := t.sto.cmdCode, commits := t.sto.commits, flash := t.sto.flash }

/-- An NVS command has ended (R460): DONE with DONEB and event 0x9_013, or FAILED with its fault code. -/
def NvsEnds (s t : State) (code bytes : Nat) : Prop :=
  t = { s with regs := t.regs, sto := t.sto, rep := t.rep, free := t.free } ∧
  t.sto = { s.sto with cmd := none, cmdCode := 0, commits := s.sto.commits.filter (fun c => !c.nvs) } ∧ OnlyRegs s t [aNvsStatus] ∧
  (if code = 0 then rf t aNvsStatus 63 60 = 2 ∧ rf t aNvsStatus 31 0 = bytes % 2 ^ 32 ∧ Says s t 0x9013 0x20
   else rf t aNvsStatus 63 60 = 3 ∧ rf t aNvsStatus 47 32 = code ∧ Says s t code 0x20)

/-- The bytes that a boot record holds (Table 16.7). -/
def bootBytes (active trial tried : Nat) : List Byte :=
  [BitVec.ofNat 8 active, BitVec.ofNat 8 trial, BitVec.ofNat 8 tried] ++ List.replicate 13 0

/-- What step 5 and 7 of a boot leave where image `b` runs (R458, R459, R466, Table 16.16). -/
structure Runs (s t : State) (b minsvn : Nat) (trial reverted : Bool) : Prop where
  state : rf t aVrxState 63 60 = 2 ∧ rbit t aVrxState 59 = decide (b = 1) ∧ rbit t aVrxState 58 = trial ∧ rbit t aVrxState 57 = reverted ∧
    rf t aVrxState 55 52 = rf s aVrxState 55 52
  image : rf t aVrxState 31 0 = leNat (((slotImage s b).drop 8).take 4) ∧ rf t aParamId 31 24 = leNat (((slotImage s b).drop 14).take 1) ∧
    rf t aSecStatus 47 32 = leNat (((slotImage s b).drop 12).take 2) ∧ rf t aSecStatus 31 16 = minsvn
  measured : measOf t 0 = shake256 (shake256 (measOf s 0 ++ shake256 Config.romContents 64) 64 ++ shake256 (slotImage s b) 64) 64 ∧
    measOf t 1 = shake256 (measOf s 1 ++ shake256 ((recPayload s 2).getD (List.replicate 64 0)) 64) 64 ∧
    measOf t 2 = measOf s 2 ∧ measOf t 3 = measOf s 3


/-! ### Standby, health checks and time -/

/-- R448: everything that a standby waits for is idle. -/
def AllIdle (s : State) : Prop :=
  (∀ t e, e < 4 → ((getTile s t).engine e).phase = .idle ∧ ((getTile s t).engine e).queue = [] ∧ ((getTile s t).engine e).running = none) ∧
  (∀ n < 512, reedState s n = 0 ∨ reedState s n = 5) ∧
  (∀ l < 4, (getLane s l).aborting = false ∧ (getLane s l).queue = [] ∧ laneInflight s l = 0) ∧ (∀ q < 16, dqState s q = 0) ∧ rf s aNvsStatus 63 60 ≠ 1

/-- Ticks from now to a TICK value, as R39 compares. -/
def ticksUntil (s : State) (at_ : Nat) : Int := (BitVec.ofNat 52 at_ - s.drone.tick).toInt

/-- A tile that Chatter may take (R486). -/
def ChatFree (s : State) (t : Nat) : Prop :=
  (∀ e < 4, ((getTile s t).engine e).phase = .idle ∧ ((getTile s t).engine e).queue = [] ∧ ((getTile s t).engine e).running = none ∧
    ((getTile s t).engine e).xfers = []) ∧ ∀ p < 16, pairHas s p t = false

/-- A pair window of R481 that covers a peer and a code. -/
def Covers (w : Window) (peer code : Nat) : Prop := w.peer = peer ∧ w.code.toNat = code

/-- The lowest-numbered lane in service of a link (R356). -/
def LowestLane (s : State) (q l : Nat) : Prop :=
  (rf s (aBelLanes q) 63 32).testBit l = true ∧ ∀ k < l, (rf s (aBelLanes q) 63 32).testBit k = false

/-- The links that take part in alignment (R52, Table 14.14). -/
def TakesPart (s : State) (p : Nat) : Prop := p < 6 ∧ portUp s p = true ∧ rbit s (aMgtDly p) 63 = true


/-! ### Invariants -/

/-- The tile stores, instruction memories, hold buffers and flash stand in canonical form: addresses strictly rising, and no
    entry equal to what an unlisted address reads as. -/
def MemoryCanonical (s : State) : Prop := Memory.wf 0 s.mem = true ∧ Memory.wf 0 s.hold = true ∧ Memory.wf 0xFF s.sto.flash = true

/-- The core stage runs only with input and Drone power and no trip; PWR_GOOD is high only while it runs (R24 to R28, R439, R464). -/
def PowerSafe (s : State) : Prop :=
  (s.pins.core = true → s.pins.input = true ∧ s.pins.drone = true ∧ s.pins.powerLost = false ∧ s.pins.tripLow = false) ∧
  (s.pins.pwrGood = true → s.pins.core = true)


end Sys2Proof.Machine
end

