-- ==== Sys2Proof/Certificates/Slice0/Obligations.lean ====
section
/-! DEFINITION. What is claimed of the model. -/

open Sys2Proof Sys2Proof.Machine

/-! ### The queue -/

/-- A step runs the command at the front of the queue on the state with the queue's rest. -/
def Obligations.StepRunsFront : Prop :=
  ∀ (c : Instr) (rest : List Instr) (s : State), s.pending = c :: rest →
    step s = exec c { s with pending := rest }

/-- Every command answers a next state, in every state. -/
def Obligations.CommandsComplete : Prop :=
  ∀ (c : Instr) (s : State), ∃ t, exec c s = .next t

/-! ### Instruction streams (chapter 04) -/

/-- Table 4.7, R71, R126: XD takes the row's value, x0 nothing; control passes on; nothing else differs. Table 4.6, R125: each row
    of the address generator slot sets its generator and nothing else. R109, R110: every slot of a bundle reads the engine as it
    stood before the bundle: an AGBASEX and a scalar operation in one bundle both read the old registers, even where XD is the
    register that AGBASEX reads. R110, R140, R141: a bundle of an AGSTEP and an LDX that post-steps the same generator has two
    slots that write it: it has no effect and the engine faults with 0x1_008. -/
def Obligations.RegisterRows : Prop :=
  (∀ (s : State) (a : At) (xd xa xb : BitVec 5) (imm : BitVec 14) (n : BitVec 6) (w : BitVec 32) (lc : BitVec 2)
    (ag : BitVec 3), ∀ r ∈ scalarRows a xd xa xb imm n w lc ag (getEng s a),
    Ready s a r.2.1 → ((getEng s a).setX xd r.2.2).Falls r.2.1 →
    ∃ t, exec r.1 s = .next t ∧ Becomes s t a (((getEng s a).setX xd r.2.2).fall r.2.1)) ∧
  (∀ (s : State) (a : At) (ag : BitVec 3) (base : BitVec 20) (dim : BitVec 2) (cntm1 : BitVec 16) (str : BitVec 24)
    (n : BitVec 16) (xa : BitVec 5), ∀ r ∈ aguRows a ag base dim cntm1 str n xa (getEng s a), Ready s a r.2.1 →
    let g := { getEng s a with ag := tset {} (getEng s a).ag ag.toNat r.2.2 }
    g.Falls r.2.1 → ∃ t, exec r.1 s = .next t ∧ Becomes s t a (g.fall r.2.1)) ∧
  ((∀ (s : State) (a : At) (ag : BitVec 3) (xa xd xb xc : BitVec 5), Ready s a 3 →
     let g := getEng s a
     let k := (g.setGen ag.toNat { (g.gen ag.toNat).reset with base := (g.xr xa).setWidth 20 }).setX xd (g.xr xb + g.xr xc)
     k.Falls 3 →
     ∃ t, exec (.agbasex a ag xa { scl := some (.r .add xd xb xc) }) s = .next t ∧ Becomes s t a (k.fall 3)) ∧
  (∀ (s : State) (a : At) (ag : BitVec 3) (n : BitVec 16) (xd : BitVec 5), Ready s a 3 →
     ∃ t, exec (.agstep a ag n { scl := some (.ldx xd (BitVec.ofNat 8 (64 + ag.toNat))) }) s = .next t ∧ Stops s t a 0x1008))

/-- Table 4.3, R116, R120: a taken branch goes to PC + OFF, one not taken passes on, one whose target lies outside the bank faults.
    Table 4.3, R116: JAL links PC + LEN in XD and goes to PC + OFF, or faults where that lies outside the bank; JR goes to
    XA[11:0]. -/
def Obligations.Branches : Prop :=
  (∀ (s : State) (a : At) (xa xb : BitVec 5) (off : BitVec 13), ∀ r ∈ branchRows a xa xb off (getEng s a),
    Ready s a 2 →
    (r.2 → 0 ≤ (getEng s a).pc.toNat + off.toInt → (getEng s a).pc.toNat + off.toInt < 4096 →
      ∃ t, exec r.1 s = .next t ∧ Becomes s t a ((getEng s a).jump ((getEng s a).pc.toNat + off.toInt).toNat)) ∧
    (r.2 → ¬(0 ≤ (getEng s a).pc.toNat + off.toInt ∧ (getEng s a).pc.toNat + off.toInt < 4096) →
      ∃ t, exec r.1 s = .next t ∧ Stops s t a 0x1004) ∧
    (¬r.2 → (getEng s a).Falls 2 → ∃ t, exec r.1 s = .next t ∧ Becomes s t a ((getEng s a).fall 2))) ∧
  (∀ (s : State) (a : At) (xd xa : BitVec 5) (off : BitVec 13), Ready s a 2 →
    (0 ≤ (getEng s a).pc.toNat + off.toInt → (getEng s a).pc.toNat + off.toInt < 4096 →
      ∃ t, exec (.jal a xd off {}) s = .next t ∧
        Becomes s t a (((getEng s a).setX xd (BitVec.ofNat 64 ((getEng s a).pc.toNat + 2))).jump
          ((getEng s a).pc.toNat + off.toInt).toNat)) ∧
    (¬(0 ≤ (getEng s a).pc.toNat + off.toInt ∧ (getEng s a).pc.toNat + off.toInt < 4096) →
      ∃ t, exec (.jal a xd off {}) s = .next t ∧ Stops s t a 0x1004) ∧
    (∃ t, exec (.jr a xa {}) s = .next t ∧
      Becomes s t a ((getEng s a).jump (((getEng s a).xr xa).toNat % 4096))))

/-- R117, R121, R503: a loop that nests opens with its count latched, or with a count of 0 is passed over, its exit tested like the
    end of any bundle (the model's choice, log entry 137); one that does not nest faults. R119: LCSET writes the live counter,
    and the test at the end of its own bundle uses the written value. R118: control falls past a bundle at `p` of length `len`:
    on to p + len; back to the start of the innermost loop whose exit it reaches while more than one pass is left; out of it at
    the last pass, to the test of the next loop. -/
def Obligations.Loops : Prop :=
  ((∀ (s : State) (a : At) (xa : BitVec 5) (lc : BitVec 2) (exit : BitVec 12) (count : BitVec 32),
     ∀ r ∈ loopRows a xa lc exit count (getEng s a), Ready s a r.2.1 →
     let g := getEng s a
     let p := g.pc.toNat
     let nests := (∀ l ∈ g.loops, l.lc ≠ lc) ∧ r.2.1 < exit.toNat ∧
       (∀ l, g.loops.head? = some l → p + exit.toNat ≤ l.exit)
     (nests → p + exit.toNat ≤ 4096 → r.2.2 ≠ 0 →
       ∃ t, exec r.1 s = .next t ∧
         Becomes s t a { g with
           lc := tset 0 g.lc lc.toNat r.2.2, pc := BitVec.ofNat 12 (p + r.2.1)
           loops := ⟨lc, p + r.2.1, p + exit.toNat⟩ :: g.loops }) ∧
     (nests → p + exit.toNat ≤ 4096 → r.2.2 = 0 →
       let h := { g with lc := tset 0 g.lc lc.toNat 0 }
       h.Falls exit.toNat → ∃ t, exec r.1 s = .next t ∧ Becomes s t a (h.fall exit.toNat)) ∧
     (nests → 4096 < p + exit.toNat → ∃ t, exec r.1 s = .next t ∧ Stops s t a 0x1004) ∧
     (¬nests → p + exit.toNat ≤ 4096 → ∃ t, exec r.1 s = .next t ∧ Stops s t a 0x1009)) ∧
  (∀ (s : State) (a : At) (xa : BitVec 5) (lc : BitVec 2), Ready s a 2 →
     let g := { getEng s a with lc := tset 0 (getEng s a).lc lc.toNat (((getEng s a).xr xa).setWidth 32) }
     g.Falls 2 → ∃ t, exec (.lcset a xa lc {}) s = .next t ∧ Becomes s t a (g.fall 2))) ∧
  (∀ (g : Engine) (len : Nat) (l : Loop) (ls : List Loop), g.loops = l :: ls →
    (g.pc.toNat + len ≠ l.exit → g.fall len = { g with pc := BitVec.ofNat 12 (g.pc.toNat + len) }) ∧
    (g.pc.toNat + len = l.exit → 1 < (g.lcv l.lc).toNat →
      g.fall len = { g with pc := BitVec.ofNat 12 l.start, lc := tset 0 g.lc l.lc.toNat (g.lcv l.lc - 1) }) ∧
    (g.pc.toNat + len = l.exit → (g.lcv l.lc).toNat ≤ 1 →
      g.fall len = { g with loops := ls, lc := tset 0 g.lc l.lc.toNat 0 }.fall len))

/-- R82, R83: WAIT takes N from its semaphore at once where the semaphore holds N and no engine before this one is served first;
    else the bundle is held and nothing changes but the engine's state. R82: a held WAIT whose semaphore has come to hold N is
    granted, and the bundle passes on. Table 4.3, R81: SIGNAL adds N to a semaphore of its tile; a sum above 65,535 stays at
    65,535, sets the semaphore's SEMOVF bit and raises 0x1_041. Table 4.3, R85: SIGNALT sends a token to a tile of the module:
    the tile's semaphore rises by N. R81, R85, R87: a token adds its amount to a semaphore of a tile that takes tokens; one to a
    tile in reset, off or isolated is discarded with 0x1_042, and no semaphore changes. A write of TILE_SEMADD is such a token;
    one of TILE_SEM replaces the value. -/
def Obligations.TokensAndWaits : Prop :=
  ((∀ (s : State) (a : At) (sem : BitVec 4) (n : BitVec 8), Ready s a 2 →
     let x := getTile s a.tile.toNat
     (n.toNat ≤ x.semVal sem.toNat → earlierWait x a.eng.toNat sem.toNat = false → (getEng s a).Falls 2 →
       ∃ t, exec (.wait a sem n {}) s = .next t ∧
         SemBecomes s t a sem.toNat (x.semVal sem.toNat - n.toNat) ((getEng s a).fall 2)) ∧
     (x.semVal sem.toNat < n.toNat →
       ∃ t, exec (.wait a sem n {}) s = .next t ∧
         Becomes s t a { getEng s a with phase := .streamWait, held := some { ctl := some (.wait sem n) }, full := false })) ∧
  (∀ (s : State) (a : At) (sem : BitVec 4) (n : BitVec 8),
     let g := getEng s a
     let x := getTile s a.tile.toNat
     g.phase = .streamWait → g.held = some { ctl := some (.wait sem n) } → g.full = false → g.answer = none →
     g.plan = none → g.results = [] → g.pc.toNat + 2 ≤ 4096 → g.Falls 2 → tileRuns s a.tile.toNat = true →
     n.toNat ≤ x.semVal sem.toNat → earlierWait x a.eng.toNat sem.toNat = false →
     ∃ t, exec (.semaphoreWaitGrant a) s = .next t ∧
       SemBecomes s t a sem.toNat (x.semVal sem.toNat - n.toNat)
         ({ g with phase := .run, held := none }.fall 2))) ∧
  ((∀ (s : State) (a : At) (sem : BitVec 4) (n : BitVec 8), Ready s a 2 → (getEng s a).Falls 2 →
     let v := (getTile s a.tile.toNat).semVal sem.toNat + n.toNat
     (v ≤ 65535 → ∃ t, exec (.signal a sem n {}) s = .next t ∧ SemBecomes s t a sem.toNat v ((getEng s a).fall 2)) ∧
     (65535 < v → ∃ t, exec (.signal a sem n {}) s = .next t ∧
       (getTile t a.tile.toNat).semVal sem.toNat = 65535 ∧
       rbit t (aTileStatus a.tile.toNat) (32 + sem.toNat) = true ∧
       ∃ r, t.rep.raised = s.rep.raised ++ [r] ∧ r.code = 0x1041)) ∧
  (∀ (s : State) (a : At) (sem : BitVec 4) (n : BitVec 8) (u : TileId), Ready s a 3 → (getEng s a).Falls 3 →
     TakesTokens s u.toNat → u ≠ a.tile → (getTile s u.toNat).semVal sem.toNat + n.toNat ≤ 65535 →
     ∃ t, exec (.signalt a sem n u {}) s = .next t ∧ getEng t a = (getEng s a).fall 3 ∧
       t = { s with tile := t.tile } ∧
       (∀ k, k ≠ u.toNat → k ≠ a.tile.toNat → getTile t k = getTile s k) ∧
       getTile t u.toNat = { getTile s u.toNat with sem := (getTile t u.toNat).sem } ∧
       ∀ m, (getTile t u.toNat).semVal m =
         if m = sem.toNat then (getTile s u.toNat).semVal m + n.toNat else (getTile s u.toNat).semVal m)) ∧
  (∀ (s : State) (t : TileId) (sem : BitVec 4) (n : BitVec 8),
    let T := t.toNat
    let x := getTile s T
    let onlySem (u : State) (v : Nat) : Prop :=
      OnlyTile { s with reply := u.reply } u T ∧ getTile u T = { x with sem := (getTile u T).sem } ∧
      ∀ m, (getTile u T).semVal m = if m = sem.toNat then v else x.semVal m
    (TakesTokens s T → x.semVal sem.toNat + n.toNat ≤ 65535 →
      (∃ u, exec (.tokenArrival t sem n) s = .next u ∧ onlySem u (x.semVal sem.toNat + n.toNat)) ∧
      (HostServed s → ∃ u, exec (.tileSemaddWrite .host t (sem.setWidth 64 <<< 16 ||| n.setWidth 64)) s = .next u ∧
        u.reply.1 = 0 ∧ onlySem u (x.semVal sem.toNat + n.toNat))) ∧
    (tileDeaf s T = true → n ≠ 0 → ∃ u r, exec (.tokenArrival t sem n) s = .next u ∧
      u = { s with rep := u.rep, free := u.free } ∧ u.rep.raised = s.rep.raised ++ [r] ∧ r.code = 0x1042) ∧
    (∀ v : BitVec 16, HostServed s → Awake s T →
      ∃ u, exec (.tileSemWrite .host t sem (v.setWidth 64)) s = .next u ∧ u.reply.1 = 0 ∧ onlySem u v.toNat))

/-- Table 4.7, R122, R123: LDX reads 8 bytes, little-endian, at a tile-local address; STX writes them there and nowhere else. A
    generator of a MODE 1 operand steps. R122, R123, R140: an LDX or STX outside the regions open to its engine faults with
    0x2_020, and inside them at an address that is no multiple of 8 with 0x2_021; nothing else happens. R127: LDG and STG at the
    module's own fabric address read and write a tile store at once; off the board they fault with 0x4_010, and at an address
    that is no multiple of 8 with 0x2_021. -/
def Obligations.LoadsAndStores : Prop :=
  ((∀ (s : State) (a : At) (xr : BitVec 5) (o : BitVec 8), Ready s a 2 → operandBad o = false →
     let g := getEng s a
     let ad := operandAddr g o
     OpenTo a.eng ad 8 → ad % 8 = 0 → g.Settled a.tile.toNat ad.toNat 8 →
     let v : Word := BitVec.ofNat 64 (leNat ((List.range 8).map (fun i => localByte s a.tile.toNat (ad.toNat + i))))
     ((g.setX xr v).used o).Falls 2 → (g.used o).Falls 2 →
     (∃ t, exec (.ldx a xr o {}) s = .next t ∧
       Becomes s t a (((g.setX xr v).used o).fall 2)) ∧
     (a.eng ≠ 2 ∨ pairedEngine s a = none →
       ∃ t, exec (.stx a xr o {}) s = .next t ∧
         Becomes { s with mem := t.mem, hold := t.hold } t a ((g.used o).fall 2) ∧
         ∀ u b, u < 8192 → b < 0x50000 → localByte t u b =
           if u = a.tile.toNat ∧ ad.toNat ≤ b ∧ b < ad.toNat + 8 then
             BitVec.ofNat 8 ((g.xr xr).toNat / 256 ^ (b - ad.toNat))
           else localByte s u b)) ∧
  (∀ (s : State) (a : At) (xr : BitVec 5) (o : BitVec 8), Ready s a 2 → operandBad o = false →
     ∀ c ∈ [Instr.ldx a xr o {}, Instr.stx a xr o {}],
     (¬OpenTo a.eng (operandAddr (getEng s a) o) 8 → ∃ t, exec c s = .next t ∧ Stops s t a 0x2020) ∧
     (OpenTo a.eng (operandAddr (getEng s a) o) 8 → operandAddr (getEng s a) o % 8 ≠ 0 →
       ∃ t, exec c s = .next t ∧ Stops s t a 0x2021))) ∧
  (∀ (s : State) (a : At) (xa xr : BitVec 5) (u : TileId) (k : Nat), Ready s a 2 →
    let g := getEng s a
    let fa := g.xr xa
    let p := 0x020000000000 + u.toNat * 0x40000 + k * 8
    let v : Word := BitVec.ofNat 64 (rdLE s.mem p 8)
    (k < 0x8000 → fld fa 63 48 = moduleId s → fld fa 47 0 = p → Awake s u.toNat →
      ((g.setX xr v).Falls 2 → (∀ d ∈ g.writing, d.1 + d.2 ≤ p ∨ p + 8 ≤ d.1) →
        ∃ t, exec (.ldg a xr xa {}) s = .next t ∧ Becomes s t a ((g.setX xr v).fall 2)) ∧
      (g.Falls 2 → ∃ t, exec (.stg a xa xr {}) s = .next t ∧
        Becomes { s with mem := t.mem } t a (g.fall 2) ∧ MemBecomes s t p (wordLE (g.xr xr)))) ∧
    (fa.toNat % 8 ≠ 0 → ∀ c ∈ [Instr.ldg a xr xa {}, Instr.stg a xa xr {}], ∃ t, exec c s = .next t ∧ Stops s t a 0x2021) ∧
    (fa.toNat % 8 = 0 → fld fa 63 48 ≠ moduleId s → (∀ i < 4, rf s aFabBoard (16 * i + 15) (16 * i) ≠ fld fa 63 48) →
      ∀ c ∈ [Instr.ldg a xr xa {}, Instr.stg a xa xr {}], ∃ t, exec c s = .next t ∧ Stops s t a 0x4010))

/-- Table 4.8, R113, R128: a load from local memory joins the engine's outstanding transfers with its rows packed at DST; it reads
    its registers at issue and moves no byte yet. It and the transfers under way note each other's destinations, whose bytes are
    undefined to them. Table 4.9, R113: SDMA to local memory joins the S engine's outstanding transfers. That no byte moves
    before the transfer completes is the model's choice (log entry 5). R86, R113, R129: a transfer between tile stores
    completes: the bytes have moved, the token adds TCNT to sem(SEM) of the issuing tile, and the transfer is outstanding no
    longer. That its source is read and its bytes land then is the model's choice (log entry 5). -/
def Obligations.Transfers : Prop :=
  ((∀ (s : State) (t : TileId) (d ix : BitVec 8) (xa xn xr xs : BitVec 5) (sem : BitVec 4) (tcnt : BitVec 8),
     let a : At := ⟨t, 0⟩
     let g := getEng s a
     let n := (g.xr xn).toNat
     let ad := operandAddr g d
     let base := g.xr xa
     Ready s a 3 → operandBad d = false → g.xfers.length < 64 →
     let issued (k : Nat) (src : Nat → Nat) (h : Engine) : Engine :=
       let dst := [(localPhys t.toNat ad.toNat, k * n)]
       { h with
         nextX := g.nextX + 1
         xfers := g.xfers.map (fun y => { y with dirty := y.dirty ++ dst }) ++
           [{ id := g.nextX, kind := .load (packedRows src ad.toNat n k), sem := sem, tcnt := tcnt
              dst := dst, dirty := g.writing ++ dst }] }
     let lands (len : Nat) : Prop :=
       (0 ≤ ad ∧ ad < 0x40000 ∧ ad + len ≤ 0x40000) ∨ (0x80000 ≤ ad ∧ ad < 0x88000 ∧ ad + len ≤ 0x88000)
     (lands n → (g.used d).Falls 3 →
       ∃ u, exec (.ldma t d xa xn sem tcnt true {}) s = .next u ∧
         Becomes s u a (issued 1 (fun _ => fld base 47 0) ((g.used d).fall 3))) ∧
     (let k := (g.xr xr).toNat % 65536
      lands (k * n) → (g.used d).Falls 3 →
       ∃ u, exec (.ldma2 t d xa xn sem tcnt xr xs true {}) s = .next u ∧
         Becomes s u a (issued k (fun r => fld (base + BitVec.ofNat 64 r * g.xr xs) 47 0) ((g.used d).fall 3))) ∧
     (let k := (g.xr xr).toNat % 65536
      let ia := operandAddr g ix
      let idx (i : Nat) : Nat := leNat ((List.range 4).map (fun j => localByte s t.toNat (ia.toNat + 4 * i + j)))
      lands (k * n) → operandBad ix = false → 0 ≤ ia → ia + 4 * k ≤ 0x40000 →
      g.Settled t.toNat ia.toNat (4 * k) →
      ((g.used d).used ix).Falls 3 →
       ∃ u, exec (.lgath t d xa xn sem tcnt ix xr true {}) s = .next u ∧
         Becomes s u a
           (issued k (fun i => fld (base + BitVec.ofNat 64 (idx i * n)) 47 0) (((g.used d).used ix).fall 3)))) ∧
  (∀ (s : State) (t : TileId) (d : BitVec 8) (xa xn xt : BitVec 5) (sem rsem : BitVec 4) (tcnt rcnt : BitVec 8),
     let a : At := ⟨t, 3⟩
     let g := getEng s a
     let n := (g.xr xn).toNat
     let ad := operandAddr g d
     Ready s a 3 → operandBad d = false → g.xfers.length < 64 → pairedEngine s a = none →
     (0 ≤ ad ∧ ad < 0x40000 ∧ ad + n ≤ 0x40000 ∨ 0x80000 ≤ ad ∧ ad < 0x88000 ∧ ad + n ≤ 0x88000) → (g.used d).Falls 3 →
     ∃ u, exec (.sdma t d xa xn sem tcnt rcnt rsem xt true {}) s = .next u ∧
       let dst := [(fld (g.xr xa) 47 0, n)]
       Becomes { s with free := u.free } u a { (g.used d).fall 3 with
         nextX := g.nextX + 1
         xfers := g.xfers.map (fun y => { y with dirty := y.dirty ++ dst }) ++
           [{ id := g.nextX, sem := sem, tcnt := tcnt, dst := dst, dirty := g.writing ++ dst
              kind := .store ad.toNat (fld (g.xr xa) 47 0) n rcnt.toNat rsem.toNat
                (if rcnt = 0 then 0 else (g.xr xt).toNat % 8192) }] })) ∧
  (∀ (s : State) (a : At) (x : Xfer) (src dst n : Nat) (u : TileId) (k : Nat),
    let g := getEng s a
    let T := a.tile.toNat
    let there := 0x020000000000 + u.toNat * 0x40000 + k
    let v := (getTile s T).semVal x.sem.toNat + x.tcnt.toNat
    g.xfers = [x] → x.left = 0 → x.code = 0 → x.discard = false → g.held = none →
    0 < n → k + n ≤ 0x40000 → Awake s u.toNat → TakesTokens s T → v ≤ 65535 →
    let clean (p : Nat) : Prop := ∀ d ∈ x.dirty, d.1 + d.2 ≤ p ∨ p + n ≤ d.1
    (x.kind = .load [(there, dst, n)] → dst + n ≤ 0x40000 → clean there →
      ∃ t, exec (.transferComplete a x.id) s = .next t ∧
        SemBecomes { s with mem := t.mem } t a x.sem.toNat v { g with xfers := [] } ∧
        MemBecomes s t (0x020000000000 + T * 0x40000 + dst) (rdBytes s.mem there n)) ∧
    (x.kind = .store src there n 0 0 0 → src + n ≤ 0x40000 → clean (0x020000000000 + T * 0x40000 + src) →
      ∃ t, exec (.transferComplete a x.id) s = .next t ∧
        SemBecomes { s with mem := t.mem } t a x.sem.toNat v { g with xfers := [] } ∧
        MemBecomes s t there (rdBytes s.mem (0x020000000000 + T * 0x40000 + src) n)))

/-! ### Entries, pushes and semaphores (chapter 03) -/

/-- R74, R93: the entry at the head starts once its wait is granted, which takes WAIT_CNT: x1 to x4 are set, RUN sets the PC, the
    slot frees; every other register keeps its value. A head whose semaphore is short starts nothing. R79: as the slot of an
    entry with CRET = 1 frees, an event names the tile, the engine and TAG; with CRET = 2, sem[CR_SEM] of tile CR_TILE rises by
    1. Table 4.3, R74: END closes every live loop and the engine drains; the PC stays. Table 4.3: TRAP faults the engine with
    0x1_0F0, and the record carries CODE. R74 step 4: an ended entry with no transfer outstanding adds SIG_CNT to sem[SIG_SEM],
    and the engine is idle. -/
def Obligations.Entries : Prop :=
  ((∀ (s : State) (a : At) (x : Entry) (rest : List Entry), CanStart s a x rest → x.grp = none →
     let y := getTile s a.tile.toNat
     let sem := fld x.w0 59 56
     let n := fld x.w0 55 48
     (fld x.w0 35 34 = 0 → n ≤ y.semVal sem → earlierWait y a.eng.toNat sem = false →
       ∃ t, exec (.entryStart a) s = .next t ∧
         SemBecomes s t a sem (y.semVal sem - n) ((getEng s a).started x rest (groupWord s a.tile.toNat))) ∧
     (y.semVal sem < n → exec (.entryStart a) s = .next s)) ∧
  (∀ (s : State) (a : At) (x : Entry) (rest : List Entry), CanStart s a x rest → x.grp = none → fld x.w0 55 48 = 0 →
     (fld x.w0 35 34 = 1 → ∃ t r, exec (.entryStart a) s = .next t ∧ t.rep.raised = s.rep.raised ++ [r] ∧
       r.unit = 0x8000 + a.eng.toNat * 0x2000 + a.tile.toNat ∧ r.tag = fld x.w1 63 48) ∧
     (fld x.w0 35 34 = 2 → TakesTokens s (fld x.w0 29 17) →
       (getTile s (fld x.w0 29 17)).semVal (fld x.w0 33 30) < 65535 →
       ∃ t, exec (.entryStart a) s = .next t ∧ t.rep = s.rep ∧
         ∀ u m, (getTile t u).semVal m = (getTile s u).semVal m +
           (if u = fld x.w0 29 17 ∧ m = fld x.w0 33 30 then 1 else 0)))) ∧
  ((∀ (s : State) (a : At), Ready s a 2 →
     ∃ t, exec (.endOp a {}) s = .next t ∧ Becomes s t a { getEng s a with phase := .drain, loops := [] }) ∧
  (∀ (s : State) (a : At) (code : BitVec 16), Ready s a 2 →
     ∃ t, exec (.trap a code {}) s = .next t ∧ Stops s t a 0x10F0 ∧ (getEng t a).loops = [] ∧
       ∃ r, t.rep.raised = s.rep.raised ++ [r] ∧ r.a2 = code.setWidth 64)) ∧
  (∀ (s : State) (a : At) (x : Entry),
    let g := getEng s a
    let y := getTile s a.tile.toNat
    let v := y.semVal (fld x.w0 47 44) + fld x.w0 43 36
    g.phase = .drain → g.running = some x → g.xfers = [] → g.results = [] → tileRuns s a.tile.toNat = true →
    pairedEngine s a = none → v ≤ 65535 →
    ∃ t, exec (.entrySignal a) s = .next t ∧
      SemBecomes s t a (fld x.w0 47 44) v { g with running := none, phase := .idle })

/-- R75 to R77: a push answers the refusal that stands highest in Table 3.3 and then leaves every queue as it was, or is accepted:
    the entry joins its queue, stamped and numbered, behind those that wait. R75: a push by anyone but the host or an S engine
    completes with error, raises 0x2_0F0 and pushes nothing. Table 4.9, R130: LPUSH pushes the 32 bytes at SRC to a tile's push
    window of its module, and XD takes the status; an address that names no push window faults with 0x1_00B, and nothing is
    pushed. R91, Table 3.3: a group push to a group whose EN is 0 answers NOGROUP; where any member would refuse, no member
    accepts; and where every member accepts, each member's queue of the engine gains the entry and no other does. -/
def Obligations.Pushes : Prop :=
  ((∀ (s : State) (t : TileId) (e : BitVec 2) (w0 w1 w2 w3 : Word) (req : Req),
     (req = .host ∧ HostServed s ∨ ∃ u, req = .engine ⟨u, 3⟩) →
     let c := highestRefusal s t.toNat e.toNat w0
     (c ≠ 0 → ∃ u, exec (.launchPush t e w0 w1 w2 w3 req) s = .next u ∧ u.reply.1 = c ∧ u = { s with reply := u.reply }) ∧
     (c = 0 → (getTile s t.toNat).gated = false → (getCluster s (clusterOf t.toNat)).clk = .running →
       ∃ u st q, exec (.launchPush t e w0 w1 w2 w3 req) s = .next u ∧ u.reply.1 = 0 ∧
         Becomes { s with reply := u.reply, rep := u.rep, free := u.free } u ⟨t, e⟩ { getEng s ⟨t, e⟩ with
           queue := (getEng s ⟨t, e⟩).queue ++ [{ w0 := w0, w1 := w1, w2 := w2, w3 := w3, stamp := st, seq := q }] })) ∧
  (∀ (s : State) (t : TileId) (e : BitVec 2) (g : BitVec 6) (w0 w1 w2 w3 : Word) (req : Req), req ≠ .host →
     (∀ u, req ≠ .engine ⟨u, 3⟩) →
     ∀ c ∈ [Instr.launchPush t e w0 w1 w2 w3 req, Instr.groupPush g e w0 w1 w2 w3 req],
     ∃ u r, exec c s = .next u ∧ u.reply.1 = 0x20F0 ∧ u = { s with reply := u.reply, rep := u.rep, free := u.free } ∧
       u.rep.raised = s.rep.raised ++ [r] ∧ r.code = 0x20F0)) ∧
  (∀ (s : State) (t u : TileId) (e : BitVec 2) (o : BitVec 8) (xa xd : BitVec 5),
    let a : At := ⟨t, 3⟩
    let g := getEng s a
    let ad := operandAddr g o
    let w (i : Nat) : Word := BitVec.ofNat 64 (leNat ((List.range 8).map (fun j => localByte s t.toNat (ad.toNat + 8 * i + j))))
    let c := highestRefusal s u.toNat e.toNat (w 0)
    let queue (s : State) (k n : Nat) : List (Word × Word × Word × Word) :=
      ((getTile s k).engine n).queue.map (fun x => (x.w0, x.w1, x.w2, x.w3))
    Ready s a 2 → operandBad o = false → OpenTo 3 ad 32 → ad % 32 = 0 → g.Settled t.toNat ad.toNat 32 →
    pairedEngine s a = none →
    (g.xr xa = BitVec.ofNat 64 (0x030004000000 + u.toNat * 0x1000 + 0x800 + e.toNat * 0x20) →
      (getTile s u.toNat).gated = false → (getCluster s (clusterOf u.toNat)).clk = .running → c ≠ 6 →
      ((g.used o).setX xd c).Falls 2 →
      ∃ v, exec (.lpush t o xa xd {}) s = .next v ∧ v = { s with tile := v.tile, rep := v.rep, free := v.free } ∧
        (getEng v a).x = (g.setX xd c).x ∧ (getEng v a).ag = (g.used o).ag ∧ (getEng v a).pc = (g.fall 2).pc ∧
        ∀ k n, n < 4 → queue v k n = queue s k n ++ if c = 0 ∧ k = u.toNat ∧ n = e.toNat then [(w 0, w 1, w 2, w 3)] else []) ∧
    (fld (g.xr xa) 63 48 ≠ 0 ∨ fld (g.xr xa) 47 0 < 0x030000000000 →
      ∃ v, exec (.lpush t o xa xd {}) s = .next v ∧ Stops s v a 0x100B)) ∧
  (∀ (s : State) (g : BitVec 6) (e : BitVec 2) (w0 w1 w2 w3 : Word), HostServed s →
    let d := regGet s (aTileGrp g.toNat)
    let queue (s : State) (t : Nat) : List (Word × Word × Word × Word) :=
      ((getTile s t).engine e.toNat).queue.map (fun x => (x.w0, x.w1, x.w2, x.w3))
    (bit d 63 = false → ∃ u, exec (.groupPush g e w0 w1 w2 w3 .host) s = .next u ∧ u.reply.1 = 9 ∧
      u = { s with reply := u.reply }) ∧
    (bit d 63 = true → (∃ t ∈ grpMembers d, highestRefusal s t e.toNat w0 ≠ 0) →
      ∃ u, exec (.groupPush g e w0 w1 w2 w3 .host) s = .next u ∧ u.reply.1 ≠ 0 ∧ u = { s with reply := u.reply }) ∧
    (bit d 63 = true → (∀ t ∈ grpMembers d, highestRefusal s t e.toNat w0 = 0) →
      fld d 20 16 + fld d 29 24 ≤ 32 → fld d 4 0 + fld d 13 8 ≤ 32 →
      ∃ u, exec (.groupPush g e w0 w1 w2 w3 .host) s = .next u ∧ u.reply.1 = 0 ∧
        ∀ t, queue u t = queue s t ++ (if t ∈ grpMembers d then [(w0, w1, w2, w3)] else [])))

/-- R98: an abort discards what runs and what waits, without signal or credit, and changes no register, semaphore, accumulator or
    memory; the engine is ABORTING. R98: once the last transfer of an aborting engine has completed, the engine reads IDLE;
    before that nothing happens. That an engine with nothing outstanding too is ABORTING until ENGINE_ABORT_COMPLETE, and that
    its queue empties as R98 says though Table 16.3 keeps it, are the model's choice (log entries 119, 53). R99: a tile reset
    aborts the four engines and clears semaphores and accumulators; tile store, instruction memory, hold buffer and active bank
    stay; it ends as the last of its aborts does. That a tile with nothing outstanding stays in reset until then is the model's
    choice (log entry 119), as the PC of 0 is (log entry 53). -/
def Obligations.AbortsAndResets : Prop :=
  ((∀ (s : State) (t : TileId) (e : BitVec 2), HostServed s → Awake s t.toNat → pairOf s t.toNat = none →
     NoGbar s t.toNat e.toNat →
     ∃ u, exec (.engineAbort .host t (BitVec.ofNat 4 (2 ^ e.toNat))) s = .next u ∧ u.reply.1 = 0 ∧
       Becomes { s with reply := u.reply, chn := u.chn, grpCred := u.grpCred } u ⟨t, e⟩ (getEng s ⟨t, e⟩).aborted) ∧
  (∀ (s : State) (a : At), (getTile s a.tile.toNat).resetting = false → (getEng s a).phase = .aborting →
     ((getEng s a).xfers = [] →
       ∃ t, exec (.engineAbortComplete a) s = .next t ∧ Becomes s t a { getEng s a with phase := .idle }) ∧
     ((getEng s a).xfers ≠ [] → exec (.engineAbortComplete a) s = .next s))) ∧
  ((∀ (s : State) (t : TileId), HostServed s → Awake s t.toNat → pairOf s t.toNat = none → groupOf s t.toNat = none →
    ∃ u, exec (.tileReset .host t) s = .next u ∧ u.reply.1 = 0 ∧
      (getTile u t.toNat).sem = [] ∧ (getTile u t.toNat).acc = [] ∧ (getTile u t.toNat).resetting = true ∧
      (getTile u t.toNat).bank = (getTile s t.toNat).bank ∧ u.mem = s.mem ∧ u.hold = s.hold ∧
      (∀ e < 4, ((getTile u t.toNat).engine e).phase = .aborting ∧ ((getTile u t.toNat).engine e).queue = [] ∧
        ((getTile u t.toNat).engine e).running = none ∧
        ((getTile u t.toNat).engine e).x = ((getTile s t.toNat).engine e).x) ∧
      ∀ k, k ≠ t.toNat → getTile u k = getTile s k) ∧
  (∀ (s : State) (a : At), let x := getTile s a.tile.toNat
    x.resetting = true → x.chatter = false → (getEng s a).phase = .aborting → (getEng s a).xfers = [] →
    (∀ e < 4, e ≠ a.eng.toNat → (x.engine e).phase ≠ .aborting) →
    ∃ t, exec (.engineAbortComplete a) s = .next t ∧ OnlyTile s t a.tile.toNat ∧ getEng t a = { getEng s a with phase := .idle } ∧
      getTile t a.tile.toNat = { x with resetting := false, eng := (getTile t a.tile.toNat).eng } ∧
      ∀ e, e ≠ a.eng.toNat → (getTile t a.tile.toNat).engine e = x.engine e))

/-- R88 to R90: a write that enables a group takes effect where the rectangle is not empty, fits its die, shares no tile with an
    enabled group and covers only idle tiles, as the old one must; one that disables it, where the tiles of both idle; else the
    descriptor stays and 0x1_043 is raised. A barrier that the tiles still owe ends with the group (R92). The last is the
    model's choice (log entry 105). R92: once the engine of every member of an enabled group waits at GBAR, all members go on.
    Table 4.3, R92, R109, R135: DRAIN passes once no transfer is outstanding, GBAR at once on a tile of no enabled group; else
    they hold the bundle, and SWAPB always does. -/
def Obligations.Groups : Prop :=
  (∀ (s : State) (g : BitVec 6) (v : Word), HostServed s →
    let old := regGet s (aTileGrp g.toNat)
    let quiet (w : Word) : Prop := ∀ t ∈ grpTiles w, tileBusy s t = false ∧ gbarPending s t = false
    let good :=
      if bit v 63 = true then
        fld v 39 32 ≠ 0 ∧ fld v 29 24 ≠ 0 ∧ fld v 13 8 ≠ 0 ∧ FitsDies v ∧
        (∀ h < 64, h ≠ g.toNat → bit (regGet s (aTileGrp h)) 63 = true →
          ∀ t ∈ grpMembers v, grpHas (regGet s (aTileGrp h)) t = false) ∧ quiet old ∧ quiet v
      else bit old 63 = true → quiet old ∧ quiet v
    (good → ∃ u, exec (.tileGrpWrite .host g v) s = .next u ∧
      u = { s with reply := u.reply, regs := u.regs, tile := u.tile } ∧
      (∀ i ∈ [(63, 63), (39, 32), (29, 24), (20, 16), (13, 8), (4, 0)],
        fld (regGet u (aTileGrp g.toNat)) i.1 i.2 = fld v i.1 i.2) ∧
      ∀ t, (t ∉ grpTiles old ++ grpTiles v → getTile u t = getTile s t) ∧
        (t ∈ grpTiles old ++ grpTiles v → getTile u t = { getTile s t with eng := (getTile u t).eng } ∧
          ∀ e, (getTile u t).engine e = { (getTile s t).engine e with stuck := false })) ∧
    (¬good → ∃ u r, exec (.tileGrpWrite .host g v) s = .next u ∧
      u = { s with reply := u.reply, rep := u.rep, free := u.free } ∧ u.rep.raised = s.rep.raised ++ [r] ∧ r.code = 0x1043)) ∧
  (∀ (s : State) (g : BitVec 6) (e : BitVec 2),
    let d := regGet s (aTileGrp g.toNat)
    bit d 63 = true → FitsDies d →
    (∀ t ∈ grpMembers d, HoldsCtl ((getTile s t).engine e.toNat) .gbar .streamWait ∧
      ((getTile s t).engine e.toNat).stuck = false ∧ ((getTile s t).engine e.toNat).Falls 2) →
    ∃ u, exec (.gbarRelease g e) s = .next u ∧ u = { s with tile := u.tile } ∧
      ∀ t, (getTile u t).engine e.toNat =
        if t ∈ grpMembers d then ({ (getTile s t).engine e.toNat with phase := .run, held := none }).fall 2
        else (getTile s t).engine e.toNat) ∧
  (∀ (s : State) (a : At) (target : BitVec 12), Ready s a 2 →
    let g := getEng s a
    let waits (c : Ctl) (ph : Phase) : Engine := { g with phase := ph, held := some { ctl := some c }, full := false }
    (g.xfers = [] → g.Falls 2 → ∃ t, exec (.drain a {}) s = .next t ∧ Becomes s t a (g.fall 2)) ∧
    (g.xfers ≠ [] → ∃ t, exec (.drain a {}) s = .next t ∧ Becomes s t a (waits .drain .streamWait)) ∧
    (groupOf s a.tile.toNat = none → g.Falls 2 → ∃ t, exec (.gbar a {}) s = .next t ∧ Becomes s t a (g.fall 2)) ∧
    (groupOf s a.tile.toNat ≠ none → ∃ t, exec (.gbar a {}) s = .next t ∧ Becomes s t a (waits .gbar .streamWait)) ∧
    (∃ t, exec (.swapb a target {}) s = .next t ∧ Becomes s t a (waits (.swapb target) .swapbWait)))

/-- R135: once all four engines wait at SWAPB, the banks swap, and each engine goes on at its own TARGET. R136: the host swaps the
    banks of a tile whose engines are IDLE with empty queues; else the banks stay and 0x1_0A1 is raised. R94, R427: an idle tile
    gates its clock and keeps all its state; its activation is admitted while fewer than 16 of its cluster have been in the
    window and Bellows holds none. R95, R426: a cluster whose tiles are all gated stops its clock; its gate holds what arrives,
    and once it runs again all of that is delivered in the order of arrival: tokens and semaphore writes. Which accesses a
    stopped cluster holds, and that a held one starts it, is the model's choice (log entry 20). -/
def Obligations.BanksAndClocks : Prop :=
  ((∀ (s : State) (t : TileId) (target : Nat → BitVec 12), tileRuns s t.toNat = true →
     (∀ e < 4, HoldsCtl ((getTile s t.toNat).engine e) (.swapb (target e)) .swapbWait) →
     ∃ u, exec (.bankSwap t) s = .next u ∧ OnlyTile s u t.toNat ∧
       getTile u t.toNat = { getTile s t.toNat with bank := !(getTile s t.toNat).bank, eng := (getTile u t.toNat).eng } ∧
       ∀ e < 4, (getTile u t.toNat).engine e =
         { (getTile s t.toNat).engine e with phase := .run, held := none, pc := target e }) ∧
  (∀ (s : State) (t : TileId), HostServed s → Awake s t.toNat →
     let idle := ∀ e < 4, ((getTile s t.toNat).engine e).phase = .idle ∧
       ((getTile s t.toNat).engine e).queue = [] ∧ ((getTile s t.toNat).engine e).running = none
     (idle → ∃ u, exec (.hostBankSwap .host t) s = .next u ∧ (getTile u t.toNat).bank = !(getTile s t.toNat).bank ∧
       u.rep = s.rep ∧ u.mem = s.mem ∧ ∀ k, k ≠ t.toNat → getTile u k = getTile s k) ∧
     (¬idle → ∃ u r, exec (.hostBankSwap .host t) s = .next u ∧ u.reply.1 = 0x10A1 ∧ u.tile = s.tile ∧ u.regs = s.regs ∧
       u.rep.raised = s.rep.raised ++ [r] ∧ r.code = 0x10A1))) ∧
  ((∀ (s : State) (t : TileId),
     let x := getTile s t.toNat
     let c := clusterOf t.toNat
     (x.idle = true → x.chatter = false → tileRuns s t.toNat = true →
       ∃ u, exec (.tileClockGate t) s = .next u ∧ OnlyTile s u t.toNat ∧ getTile u t.toNat = { x with gated := true }) ∧
     (x.waking = true → (getCluster s c).clk = .running → (getCluster s c).acts.length < 16 → s.thm.hold = false →
       ∃ u, exec (.tileActivation t) s = .next u ∧
         getTile u t.toNat = { x with gated := false, waking := false } ∧
         (getCluster u c).acts = 0 :: (getCluster s c).acts ∧
         (∀ k, k ≠ t.toNat → getTile u k = getTile s k) ∧ u = { s with tile := u.tile, cluster := u.cluster })) ∧
  (∀ (s : State) (c : BitVec 6),
     ((getCluster s c.toNat).clk = .running → rf s aPwrCtrl 31 16 ≠ 0 → domOn s (domOfCluster c.toNat) = true →
       (∀ i < 128, (getTile s (c.toNat * 128 + i)).gated = true ∧ (getTile s (c.toNat * 128 + i)).waking = false) →
       ∃ u, exec (.clusterClockStop c) s = .next u ∧ u = { s with cluster := u.cluster } ∧
         getCluster u c.toNat = { getCluster s c.toNat with clk := .stopped }) ∧
     (∀ d : Delivery, clusterOf d.tile.toNat = c.toNat → (getCluster s c.toNat).clk ≠ .running → d.set = false → d.n ≠ 0 →
       tileDeaf s d.tile.toNat = false →
       ∃ u, exec (.tokenArrival d.tile d.sem d.n) s = .next u ∧ u.waits = s.waits ++ [d.held] ∧
         (getCluster u c.toNat).clk = .starting ∧ u.rep = s.rep ∧ ∀ t m, (getTile u t).semVal m = (getTile s t).semVal m) ∧
     (∀ ds : List Delivery, (getCluster s c.toNat).clk = .starting → s.waits = ds.map Delivery.held →
       (∀ d ∈ ds, clusterOf d.tile.toNat = c.toNat ∧ tileDeaf s d.tile.toNat = false ∧ tileCode s d.tile.toNat = 0 ∧
         (d.set = false → d.n ≠ 0)) → HostServed s → s.closing = [] →
       (getCluster s c.toNat).acts.length < 16 → s.thm.hold = false → rf s (levelReg c.toNat) 59 56 = wantedLevel s c.toNat →
       ∃ u, exec (.clusterClockStart c) s = .next u ∧ (getCluster u c.toNat).clk = .running ∧ u.waits = [] ∧
         ∀ t m, (getTile u t).semVal m = ds.foldl (Delivery.on t m) ((getTile s t).semVal m))))

/-! ### V and C engines (chapters 05 to 07) -/

/-- R201, R204, R207, Tables 7.2 and 7.3: the integer and the type-blind rows of the V engine, lane by lane. Table 7.2: ADDS and
    SUBS saturate and set OVF where a lane does; DOT4 and DOT4A add four products of INT8 lanes into each INT32 lane. -/
def Obligations.VectorArithmetic : Prop :=
  (∀ (s : State) (t : TileId) (vd va vb vc xa : BitVec 5),
    let x := getTile s t.toNat
    let g := getEng s ⟨t, 2⟩
    let runs (w : Nat) (r : Instr × Nat × (Nat → BitVec w)) : Prop :=
      Ready s ⟨t, 2⟩ r.2.1 → g.Falls r.2.1 →
      VecRuns s r.1 t vd r.2.1 0 (fun v => ∀ k < 2048 / w, lane w v k = r.2.2 k)
    (∀ r ∈ bitVecRows t vd va vb vc xa 0 32 x g ++ bitVecRows t vd va vb vc xa 3 32 x g, runs 32 r) ∧
    (∀ r ∈ bitVecRows t vd va vb vc xa 1 16 x g ++ bitVecRows t vd va vb vc xa 2 16 x g, runs 16 r) ∧
    (∀ r ∈ bitVecRows t vd va vb vc xa 4 8 x g, runs 8 r) ∧
    (∀ r ∈ intVecRows t vd va vb vc 3 32 x, runs 32 r) ∧ (∀ r ∈ intVecRows t vd va vb vc 4 8 x, runs 8 r)) ∧
  (∀ (s : State) (t : TileId) (vd va vb : BitVec 5),
    let x := getTile s t.toNat
    let g := getEng s ⟨t, 2⟩
    Ready s ⟨t, 2⟩ 2 → g.Falls 2 →
    (∀ w ty, (w, ty) ∈ [(32, (3 : BitVec 3)), (8, 4)] → ∀ fn sum, (fn, sum) ∈ [((7 : BitVec 6), (fun x y : Int => x + y)), (8, fun x y => x - y)] →
      let r (k : Nat) : Int := sum (lane w (x.vr va) k).toInt (lane w (x.vr vb) k).toInt
      let hi : Int := 2 ^ (w - 1) - 1
      let past (k : Nat) : Prop := r k < -hi - 1 ∨ hi < r k
      let ok (v : BitVec 2048) : Prop := ∀ k < 2048 / w, (lane w v k).toInt = max (-hi - 1) (min hi (r k))
      ((∃ k < 2048 / w, past k) → VecRuns s (.valu t vd va vb ty fn {}) t vd 2 4 ok) ∧
      ((∀ k < 2048 / w, ¬past k) → VecRuns s (.valu t vd va vb ty fn {}) t vd 2 0 ok)) ∧
    (let dot (k : Nat) : Int := ((List.range 4).map (fun j =>
        (lane 8 (x.vr va) (4 * k + j)).toInt * (lane 8 (x.vr vb) (4 * k + j)).toInt)).sum
     VecRuns s (.valu t vd va vb 4 12 {}) t vd 2 0 (fun v => ∀ k < 64, lane 32 v k = BitVec.ofInt 32 (dot k)) ∧
     VecRuns s (.valu t vd va vb 4 13 {}) t vd 2 0
       (fun v => ∀ k < 64, lane 32 v k = lane 32 (x.vr vd) k + BitVec.ofInt 32 (dot k))))

/-- R203, R206, R221: the float rows round each lane's exact value once and set the flags that arise; MIN and MAX take one of the
    two, with −0 below +0; ABS and NEG touch only the sign, of a NaN that of the canonical one, and every NaN that results is
    the canonical one. R210 to R215, Table 7.5: each function's special inputs give what the table says, and every lane is the
    FP32 result rounded once to the type. R208, R209, R221: VCVT from every type to every type, in both roundings and every
    part: the lanes that it converts, those of VD that it keeps, and the flags that its elements set. -/
def Obligations.VectorFloats : Prop :=
  (∀ (s : State) (t : TileId) (vd va vb vc : BitVec 5) (ty : BitVec 3) (f : Fmt), (ty, f) ∈ [(0, fp32), (1, bf16), (2, fp16)] →
    let x := getTile s t.toNat
    let w := 1 + f.ebits + f.mbits
    let a := fltLane f (x.vr va)
    let b := fltLane f (x.vr vb)
    let ok (r : Nat → FNum) (v : BitVec 2048) : Prop := ∀ k < 2048 / w, lane w v k = BitVec.ofNat w (toBits f (r k))
    let nan : BitVec w := BitVec.ofNat w (toBits f .nan)
    (∀ r ∈ fltVecRows t vd va vb vc ty f x, Ready s ⟨t, 2⟩ r.2.1 → (getEng s ⟨t, 2⟩).Falls r.2.1 →
      ∃ m, lanesSet f (2048 / w) r.2.2.1 r.2.2.2 m ∧ VecRuns s r.1 t vd r.2.1 m (ok r.2.2.2)) ∧
    (Ready s ⟨t, 2⟩ 2 → (getEng s ⟨t, 2⟩).Falls 2 →
      VecRuns s (.valu t vd va vb ty 3 {}) t vd 2 0 (ok (fun k => fmin (a k) (b k))) ∧
      VecRuns s (.valu t vd va vb ty 4 {}) t vd 2 0 (ok (fun k => fmax (a k) (b k))) ∧
      VecRuns s (.valu t vd va 0 ty 5 {}) t vd 2 0 (fun v => ∀ k < 2048 / w, lane w v k =
        if isNan (a k) then nan else lane w (x.vr va) k &&& ~~~BitVec.intMin w) ∧
      VecRuns s (.valu t vd va 0 ty 6 {}) t vd 2 0 (fun v => ∀ k < 2048 / w, lane w v k =
        if isNan (a k) then nan ||| (~~~lane w (x.vr va) k &&& BitVec.intMin w) else lane w (x.vr va) k ^^^ BitVec.intMin w) ∧
      ∀ fn, fn < 9 → fn ≠ 6 → fn ≠ 7 → VecRuns s (.vcmp t vd va vb ty fn {}) t vd 2 0 (fun v => ∀ k < 2048 / w,
        ∀ c, (fn, c) ∈ fltCmpRows (a k) (b k) → lane w v k = maskLane w c))) ∧
  (∀ (s : State) (t : TileId) (vd va : BitVec 5) (ty : BitVec 3) (f : Fmt), (ty, f) ∈ [(0, fp32), (1, bf16), (2, fp16)] →
    ∀ r ∈ vfnRows t vd va ty, Ready s ⟨t, 2⟩ 2 → (getEng s ⟨t, 2⟩).Falls 2 →
    ∃ m, m.toNat < 8 ∧ VecRuns s r.1 t vd 2 m (fun v => ∀ k < 2048 / (1 + f.ebits + f.mbits),
      let a := fltLane f ((getTile s t.toNat).vr va) k
      lane (1 + f.ebits + f.mbits) v k = BitVec.ofNat _ (toBits f (vfnEval r.2.1 a)) ∧
      ∀ i o, (i, o) ∈ r.2.2 → a = i → lane (1 + f.ebits + f.mbits) v k = BitVec.ofNat _ (toBits f o))) ∧
  (∀ (s : State) (t : TileId) (vd va : BitVec 5) (ty dst part : Nat) (zero : Bool), ty < 5 → dst < 5 →
    let x := getTile s t.toNat
    let from_ := tyBits ty
    let to_ := tyBits dst
    let n := 2048 / max from_ to_
    let fn := dst * 8 + (if zero then 4 else 0) + part
    let one (k : Nat) : Nat × Word := cvtElem ty dst zero (lane from_ (x.vr va) k).toNat
    let src (k : Nat) : Nat := if from_ < to_ then part * n + k else k
    part * min from_ to_ < max from_ to_ → Ready s ⟨t, 2⟩ 2 → (getEng s ⟨t, 2⟩).Falls 2 →
    ∃ m, m.toNat < 16 ∧ (∀ i < 4, bit m i = true ↔ ∃ k < n, bit (one (src k)).2 i = true) ∧
      VecRuns s (.vcvt t vd va (BitVec.ofNat 3 ty) (BitVec.ofNat 6 fn) {}) t vd 2 m (fun v => ∀ k < 2048 / to_,
        lane to_ v k =
          if to_ < from_ then
            (if part * n ≤ k ∧ k < part * n + n then BitVec.ofNat to_ (one (k - part * n)).1 else lane to_ (x.vr vd) k)
          else BitVec.ofNat to_ (one (src k)).1))

/-- R216, R217: VRED joins the lanes in a pairwise tree, each FP32 addition rounded, and writes XD; an integer sum is exact,
    sign-extended. R218, R122, R123: VLD and VST move 256 bytes between a register and the tile store or the hold buffer; one
    outside them or misaligned faults. -/
def Obligations.VectorStoresAndReductions : Prop :=
  (∀ (s : State) (t : TileId) (xd va : BitVec 5),
    let x := getTile s t.toNat
    let g := getEng s ⟨t, 2⟩
    let runs (c : Instr) (v : Word) : Prop :=
      ∃ u w p m, m.toNat < 8 ∧ exec c s = .next u ∧ Becomes s u ⟨t, 2⟩ { g.fall 2 with results := [p] } ∧
        exec (.resultReady ⟨t, 2⟩) u = .next w ∧ Result s w ⟨t, 2⟩ ((g.fall 2).setX xd v) (aVecStatus t.toNat) m ∧
        (getTile w t.toNat).v = x.v ∧ (getTile w t.toNat).acc = x.acc ∧ (getTile w t.toNat).cexp = x.cexp
    Ready s ⟨t, 2⟩ 2 → g.Falls 2 →
    (∀ ty f n, (ty, f, n) ∈ [((0 : BitVec 3), fp32, 6), (1, bf16, 7), (2, fp16, 7)] →
      let a := fltLane f (x.vr va)
      let sums (op : FNum → FNum → FNum) (y : Nat → FNum) : Word := BitVec.ofNat 64 (toBits fp32 (pairTree op n y 0))
      runs (.vred t xd va ty 0 {}) (sums add32 a) ∧ runs (.vred t xd va ty 1 {}) (sums fmax a) ∧
      runs (.vred t xd va ty 2 {}) (sums fmin a) ∧ runs (.vred t xd va ty 3 {}) (sums fmax (fun k => fabs (a k)))) ∧
    (∀ ty w, (ty, w) ∈ [((3 : BitVec 3), 32), (4, 8)] →
      let a (k : Nat) : Int := (lane w (x.vr va) k).toInt
      let fold (op : Int → Int → Int) (y : Nat → Int) : Word :=
        BitVec.ofInt 64 ((List.range (2048 / w)).foldl (fun v k => if k = 0 then y 0 else op v (y k)) 0)
      runs (.vred t xd va ty 0 {}) (fold (fun p q => p + q) a) ∧ runs (.vred t xd va ty 1 {}) (fold max a) ∧
      runs (.vred t xd va ty 2 {}) (fold min a) ∧ runs (.vred t xd va ty 3 {}) (fold max (fun k => ((a k).natAbs : Int))))) ∧
  (∀ (s : State) (t : TileId) (vr : BitVec 5) (o : BitVec 8), operandBad o = false →
    let a : At := ⟨t, 2⟩
    let g := getEng s a
    let ad := operandAddr g o
    Ready s a 2 →
    (OpenTo 2 ad 256 → ad % 64 = 0 → (g.used o).Falls 2 →
      (VldSettled s t.toNat ad.toNat 256 → ∃ u v p, exec (.vld t vr o {}) s = .next u ∧
        Becomes { s with free := u.free } u a { g.fall 2 with results := [p] } ∧ exec (.resultReady a) u = .next v ∧
        Result { s with free := u.free } v a ((g.used o).fall 2) (aVecStatus t.toNat) 0 ∧
        (∀ k < 256, lane 8 ((getTile v t.toNat).vr vr) k = localByte s t.toNat (ad.toNat + k)) ∧
        ∀ r, r ≠ vr → (getTile v t.toNat).vr r = (getTile s t.toNat).vr r) ∧
      (pairedEngine s a = none →
        (∀ p ∈ (getEng s ⟨t, 1⟩).results, ∀ r ∈ p.reads, r.1 + r.2 ≤ ad.toNat ∨ ad.toNat + 256 ≤ r.1) →
        StoresRun s (.vst t vr o {}) a 2 true (aVecStatus t.toNat) 0 o ad.toNat 256 (lane 8 ((getTile s t.toNat).vr vr)))) ∧
    ∀ c ∈ [Instr.vld t vr o {}, .vst t vr o {}],
      (¬OpenTo 2 ad 256 → ∃ u, exec c s = .next u ∧ Stops s u a 0x2020) ∧
      (OpenTo 2 ad 256 → ad % 64 ≠ 0 → ∃ u, exec c s = .next u ∧ Stops s u a 0x2021))

/-- Table 5.3, R146 to R149, R158, R161 to R166, R177 to R180: CMMA in every format, with or without a descriptor: each element
    takes its KSTEPS steps in order, from 0 where CLR is 1, from operands that stand in step slices or 8 x 8 blocks, under their
    block scales, gathered, requantized or under carried row scales; MODE, ANCHOR and CEXP as the tables say; 0x1_020 where its
    check of the accumulator fails, 0x1_033 where CEXP differs. The model's choices: an element of -0 after a step sum of zero (log
    entry 127), the order in which special products of a step meet (log entry 128), a step's sum exact before its range (log entry
    24), and a row table's base that R122 does not test (log entry 156). -/
def Obligations.CubeMultiplies : Prop :=
  ∀ (s : State) (t : TileId) (oa ob : BitVec 8) (acc : BitVec 3) (clr exact : Bool) (fmt fd : BitVec 4) (ks : BitVec 16),
    let a : At := ⟨t, 1⟩
    let T := t.toNat
    let g := getEng s a
    let x := (getTile s T).accOf acc
    let d := descOf s T fd.toNat
    let c := fmt.toNat
    let K := stepK c
    let tk := ks.toNat * K
    let A := operandAddr g oa
    let B := operandAddr g ob
    let S := (g.gen d.pag).addr
    let src := if d.pmode = 2 then d.heldFmt exact else c
    let str (k : Nat) : Nat := (localByte s T (S.toNat + k)).toNat
    let row (r : Nat) : Int := A + (leNat ((List.range 4).map (fun k => localByte s T (S.toNat + 4 * r + k))) * d.gstride : Nat)
    let c0 := Instr.cmma t oa ob acc clr fmt exact fd ks {}
    let carried := d.pmode = 2 ∨ d.pmode = 3
    let aElem (r k : Nat) : FNum :=
      if carried ∧ str r = 255 then .nan
      else if d.pmode = 1 then decodeElem c (storeBits s T (row r).toNat (elemBits c * k) (elemBits c))
      else if d.pmode = 2 then decodeElem c (quant (spanElem s T A.toNat src K d.tra r k) (str r) c)
      else spanElem s T A.toNat c K d.tra r k
    let bElem : Nat → Nat → FNum := spanElem s T B.toNat c K d.trb
    let ce (r : Nat) : Nat := if carried then (str r + 129) % 256 else 0
    let meets (ad : Int) (n : Nat) : Prop := OpenTo 1 ad n ∧ g.Settled T ad.toNat n
    let fixed : Int := match c with | 0 => -18 | 1 => -32 | 2 => -6 | 3 => -8 | 4 => -2 | _ => 0
    let checks := (exact = false ∧ (clr = true ∨ x.vl = false)) ∨
      (exact = true ∧ c < 7 ∧ (clr = true ∨ x.vl = true ∧ x.anchor.toInt = fixed)) ∨ (exact = true ∧ 7 ≤ c ∧ x.vl = true)
    let agrees := clr = true ∨ ∀ r < 8, ((getTile s T).cexpOf acc).toNat / 256 ^ r % 256 = ce r
    let end_ := if d.pmode = 0 then (g.used oa).used ob else ((g.used oa).used ob).used (BitVec.ofNat 8 (64 + d.pag))
    c < 15 → operandBad oa = false → operandBad ob = false → Ready s a 3 → (fd ≠ 0 → descCodes s T fd.toNat .prologue c = []) →
    (d.pmode ≠ 0 → d.pag ∉ operandSteps oa ++ operandSteps ob) → (isMX c = true → tk % 32 = 0) →
    (d.tra = true ∨ d.trb = true → tk % 8 = 0) → A % 64 = 0 → B % 64 = 0 → meets B (spanLen c tk) →
    (d.pmode ≠ 1 → meets A (spanLen src tk)) → (d.pmode = 1 → ∀ r < 8, meets (row r) ((tk * elemBits c + 7) / 8)) →
    (d.pmode ≠ 0 → S % 8 = 0 ∧ meets S (if d.pmode = 1 then 32 else 8)) →
    (checks → agrees → end_.Falls 3 →
      ∃ m, m &&& ~~~cubBits acc = 0 ∧
      CubeRuns s c0 t acc 3 (decide (ks = 0)) end_ m (fun y e =>
        let anchor := if exact = true ∧ c < 7 then fixed else x.anchor.toInt
        (∀ r < 8, e.toNat / 256 ^ r % 256 = ce r) ∧ y.vl = exact ∧ (exact = true → y.anchor.toInt = anchor) ∧ ∀ i < 8, ∀ j < 8,
          let start := if clr = true then 0 else x.at (8 * i + j)
          (ks = 0 → y.at (8 * i + j) = start) ∧
          (ks ≠ 0 → exact = false → y.at (8 * i + j) =
            BitVec.ofNat 128 (encodeFloat fp32
              ((List.range ks.toNat).foldl (cubeStep32 K (aElem i) (bElem j)) (f32 (start.toNat % 2 ^ 32))))) ∧
          (ks ≠ 0 → exact = true → y.at (8 * i + j) =
            vword ((List.range ks.toNat).foldl (cubeStepVl K anchor (aElem i) (bElem j)) (vclass start))))) ∧
    (¬checks → ∃ u, exec c0 s = .next u ∧ Stops s u a 0x1020) ∧
    (checks → ¬agrees → ∃ u, exec c0 s = .next u ∧ Stops s u a 0x1033)

/-- Table 5.3, R152, R159, R160: CZERO, CANCH, CANCHS, CLDA and CSTA. That CLDA sets no flag is the model's choice (log entry 129).
    R167, Table 5.8: CCVT without a descriptor converts the 64 elements of an accumulator, row by row, to a plain format and
    packs them at DST; an FP32 element goes to FP32 unchanged. R173, R181 to R189, Tables 6.5 and 6.7: CCVT with a descriptor:
    each element of its group of accumulators goes through the stages of the epilogue, and is converted, or quantized under its
    row's scale byte, into its place at DST; the scale bytes and the row maxima are written where they are asked for. The
    model's choices: the activation table as it stood at issue (log entry 130), a NaN under a scale byte other than 0xFF (log
    entry 131), KEEPWIDE of a mixed group (log entry 132), and activations of a NaN (log entries 107, 157). R105, R107, R108: a
    bundle of a header word alone passes control to the next word; a header with a reserved bit set faults with 0x1_002, one of
    another engine with 0x1_003. -/
def Obligations.Accumulators : Prop :=
  (∀ (s : State) (t : TileId) (o : BitVec 8) (acc : BitVec 3) (n : BitVec 9),
    let a : At := ⟨t, 1⟩
    let g := getEng s a
    let x := (getTile s t.toNat).accOf acc
    let ad := operandAddr g o
    let w := if x.vl then 16 else 4
    let byte (k : Nat) : Nat := (localByte s t.toNat (ad.toNat + k)).toNat
    let anchor : Int := (byte 0 : Int) - 127 + ((byte 1 : Int) - 127) + (localByte s t.toNat (ad.toNat + 2)).toInt
    Ready s a 2 →
    (g.Falls 2 →
      CubeRuns s (.czero t acc {}) t acc 2 true g 0
        (fun y e => e = 0 ∧ y.vl = x.vl ∧ y.anchor = x.anchor ∧ ∀ k, y.at k = 0) ∧
      CubeRuns s (.canch t n acc {}) t acc 2 true g 0
        (fun y e => e = 0 ∧ y.vl = true ∧ y.anchor = n ∧ ∀ k, y.at k = 0)) ∧
    (operandBad o = false → ad % 64 = 0 → (g.used o).Falls 2 →
      (OpenTo 1 ad 64 → g.Settled t.toNat ad.toNat 64 →
        (byte 0 ≠ 255 → byte 1 ≠ 255 → -256 ≤ anchor → anchor ≤ 255 →
          CubeRuns s (.canchs t o acc {}) t acc 2 true (g.used o) 0
            (fun y e => e = 0 ∧ y.vl = true ∧ y.anchor.toInt = anchor ∧ ∀ k, y.at k = 0)) ∧
        (byte 0 = 255 ∨ byte 1 = 255 →
          CubeRuns s (.canchs t o acc {}) t acc 2 true (g.used o) (0x10000 <<< acc.toNat)
            (fun y e => e = 0 ∧ y.vl = true ∧ y.anchor = 0 ∧ ∀ k < 64, vclass (y.at k) = .nan)) ∧
        (byte 0 ≠ 255 → byte 1 ≠ 255 → ¬(-256 ≤ anchor ∧ anchor ≤ 255) →
          ∃ u, exec (.canchs t o acc {}) s = .next u ∧ Stops { s with free := u.free } u a 0x1021)) ∧
      (OpenTo 1 ad (64 * w) →
        (g.Settled t.toNat ad.toNat (64 * w) →
          CubeRuns s (.clda t o acc {}) t acc 2 true (g.used o) 0 (fun y e => e = 0 ∧ y.vl = x.vl ∧ y.anchor = x.anchor ∧
            ∀ k < 64, y.at k = BitVec.ofNat 128 (leNat ((List.range w).map (fun i => localByte s t.toNat (ad.toNat + k * w + i)))))) ∧
        (pairedEngine s a = none →
          StoresRun s (.csta t o acc {}) a 2 true (aCubStatus t.toNat) 0 o ad.toNat (64 * w)
            (fun k => BitVec.ofNat 8 ((x.at (k / w)).toNat / 256 ^ (k % w))))))) ∧
  (∀ (s : State) (t : TileId) (o : BitVec 8) (acc : BitVec 3) (fmt : BitVec 4),
    let a : At := ⟨t, 1⟩
    let g := getEng s a
    let x := (getTile s t.toNat).accOf acc
    let ad := operandAddr g o
    let w := elemBits fmt.toNat
    isMX fmt.toNat = false → operandBad o = false → Ready s a 3 → pairedEngine s a = none →
    OpenTo 1 ad (8 * w) → ad % 64 = 0 → (g.used o).Falls 3 →
    ∃ m, m &&& ~~~((0x1000000#64) <<< acc.toNat) = 0 ∧ ∃ out : Nat → Nat,
      (∀ k < 64, out k < 2 ^ w ∧ (fmt = 15 → x.vl = false → out k = (x.at k).toNat % 2 ^ 32) ∧
        (¬(fmt = 15 ∧ x.vl = false) → out k = (convOut fmt.toNat
          (if x.vl then vvalue (x.at k) x.anchor.toInt else .num (f32 ((x.at k).toNat % 2 ^ 32)))).1)) ∧
      StoresRun s (.ccvt t o acc fmt 0 {}) a 3 false (aCubStatus t.toNat) m o ad.toNat (8 * w)
        (fun k => BitVec.ofNat 8 (((List.range 64).map (fun i => out i * 2 ^ (w * i))).sum / 256 ^ k))) ∧
  (∀ (s : State) (t : TileId) (o : BitVec 8) (acc : BitVec 3) (fmt fd : BitVec 4),
    let a : At := ⟨t, 1⟩
    let T := t.toNat
    let g := getEng s a
    let x := getTile s T
    let d := descOf s T fd.toNat
    let c := fmt.toNat
    let mx := isMX c = true
    let n := if mx then 4 else if d.slicek = 2 then 2 else 1
    let from_ (k : Nat) : Acc := x.accOf (acc + BitVec.ofNat 3 k)
    let dst := operandAddr g o
    let held := d.keepwide = true ∧ (∀ k < n, (from_ k).vl = false) ∧ c = d.storedFmt ∧ 0x40000 ≤ dst ∧ dst < 0x50000
    let oc := if held then 15 else c
    let w := elemBits oc
    let at_ (ag : Nat) : Int := (g.gen ag).addr
    let val (c ag i : Nat) : FNum := decodeElem c (storeBits s T (at_ ag).toNat (elemBits c * i) (elemBits c))
    let streamFmt (f : Nat) : Nat := if f = 1 then 7 else if f = 2 then 8 else 15
    let v (i j : Nat) : FNum := epiValue s T d
      (if d.keepwide = true ∧ (from_ (j / 8)).vl = false then fp32 else if d.sfmt = 0 then bf16 else if d.sfmt = 1 then fp16 else fp32)
      (BitVec.ofNat 8 ((x.cexpOf (acc + BitVec.ofNat 3 (j / 8))).toNat / 256 ^ i)).toInt
      (val 15 d.sag (if d.scax then j else i)) (val (streamFmt d.bfmt) d.bag (if d.bax then j else i))
      (val (streamFmt d.rfmt) d.rag (i * (8 * n) + j)) ((from_ (j / 8)).out (8 * i + j % 8))
    let most (start : FNum) (i : Nat) : FNum := (List.range (8 * n)).foldl (fun m j => fmax m (fabs (v i j))) start
    let scale (i : Nat) : Nat := scaleByte (most (.zero false) i) c
    let top (i : Nat) : Nat := encodeFloat fp32
      (most (if d.rmx = 2 then .zero false else fmax (.zero false) (fabs (f32 (tget 0 x.rmax i).toNat))) i)
    let place (i j : Nat) : Nat :=
      if mx ∧ stepK c = 8 then 64 * (j / 8) + 8 * i + j % 8
      else if mx ∨ d.slicek = 2 then 128 * (j / 16) + 16 * i + j % 16
      else if d.slicek = 1 then 16 * (j / 2) + 2 * i + j % 2
      else 8 * i + j
    let rmw := d.rmx ≠ 0 ∧ d.rmw = true
    let outs : List (Int × Nat) := [(dst, 8 * n * w)] ++ (if rmw then [(at_ d.mag, 32)] else []) ++ (if mx then [(at_ d.qag, 8)] else [])
    let meets (p : Prop) (ag len : Nat) : Prop := p → OpenTo 1 (at_ ag) len ∧ at_ ag % 8 = 0
    let end_ := (d.streams .epilogue c).foldl (fun h q => h.used (BitVec.ofNat 8 (64 + q))) (g.used o)
    fd ≠ 0 → descCodes s T fd.toNat .epilogue c = [] → acc.toNat % n = 0 → operandBad o = false → Ready s a 3 →
    pairedEngine s a = none → g.xfers = [] → (operandSteps o ++ d.streams .epilogue c).Nodup →
    meets (2 ≤ d.scen) d.sag (4 * if d.scax then 8 * n else 8) →
    meets (d.ben = true) d.bag ((if d.bax then 8 * n else 8) * elemBits (streamFmt d.bfmt) / 8) →
    meets (d.ren = true) d.rag (64 * n * elemBits (streamFmt d.rfmt) / 8) → meets rmw d.mag 32 → meets mx d.qag 8 →
    OpenTo 1 dst (8 * n * w) → dst % 64 = 0 → outs.Pairwise (fun p q => p.1 + (p.2 : Int) ≤ q.1 ∨ q.1 + (q.2 : Int) ≤ p.1) → end_.Falls 3 →
    ∃ u z, exec (.ccvt t o acc fmt fd {}) s = .next u ∧ exec (.resultReady a) u = .next z ∧
      getEng z a = end_.fall 3 ∧ OnlyTile { s with mem := z.mem, hold := z.hold, regs := z.regs } z T ∧
      getTile z T = { x with eng := (getTile z T).eng, rmax := (getTile z T).rmax } ∧
      (∀ e, e ≠ 1 → (getTile z T).engine e = x.engine e) ∧
      (∀ r, r ≠ aCubStatus T → r ≠ aCubFstat T → regGet z r = regGet s r) ∧
      (∀ i < 8, ∀ j < 8 * n, storeBits z T dst.toNat (w * place i j) w =
        if mx then quant (v i j) (scale i) c else (convOut oc (.num (v i j))).1) ∧
      (mx → ∀ i < 8, localByte z T ((at_ d.qag).toNat + i) = BitVec.ofNat 8 (scale i)) ∧
      (∀ i < 8, tget 0 (getTile z T).rmax i = if d.rmx = 0 then tget 0 x.rmax i else BitVec.ofNat 32 (top i)) ∧
      (rmw → ∀ i < 8, storeBits z T (at_ d.mag).toNat (32 * i) 32 = top i) ∧
      ∀ k y, k < 8192 → y < 0x50000 → localByte z k y ≠ localByte s k y →
        k = T ∧ ∃ p ∈ outs, p.1 ≤ (y : Int) ∧ (y : Int) < p.1 + (p.2 : Int)) ∧
  (∀ (s : State) (a : At), Ready s a 1 →
    let g := getEng s a
    let h := bankWord s a.tile.toNat g.pc.toNat
    (h = a.eng ++ (1#4 : BitVec 4) ++ (0 : BitVec 26) → g.Falls 1 →
      ∃ t, exec (.emptyBundle a) s = .next t ∧ Becomes s t a (g.fall 1)) ∧
    (h = a.eng ++ (1#4 : BitVec 4) ++ (1 : BitVec 26) → ∃ t, exec (.emptyBundle a) s = .next t ∧ Stops s t a 0x1002) ∧
    (h = (a.eng + 1) ++ (1#4 : BitVec 4) ++ (0 : BitVec 26) → ∃ t, exec (.emptyBundle a) s = .next t ∧ Stops s t a 0x1003))

/-- R191, R188: CFIN with a valid descriptor quantizes ROWS rows of FLEN held values: each row's scale byte follows its
    largest magnitude, and goes to QAG; each element goes to its step slice at DST. -/
def Obligations.FinishQuantizes : Prop :=
  ∀ (s : State) (t : TileId) (o : BitVec 8) (fd : BitVec 4) (rows : BitVec 16),
    let a : At := ⟨t, 1⟩
    let g := getEng s a
    let d := descOf s t.toNat fd.toNat
    let wide : Nat := if d.keepwide then 15 else if d.sfmt = 0 then 7 else if d.sfmt = 1 then 8 else 15
    let b := elemBits wide / 8
    let w := elemBits d.fofmt
    let K := stepK d.fofmt
    let ad := operandAddr g o
    let aQ := (g.gen d.qag).addr
    let n := rows.toNat * d.flen * w / 8
    let held (r k : Nat) : FNum := decodeElem wide (leNat ((List.range b).map (fun i => localByte s t.toNat
      (0x40000 + d.fsrc + ((r / 8 * (d.flen / 8) + k / 8) * 64 + r % 8 * 8 + k % 8) * b + i))))
    let scale (r : Nat) : Nat := scaleByte (((List.range d.flen).map (held r)).foldl (fun m v => fmax m (fabs v)) (.zero false)) d.fofmt
    fd ≠ 0 → d.en = true → d.link = 0 → d.nEpi ≤ 2 → d.reserved = false → (d.pmode = 1 → d.tra = false ∧ d.gstride % 64 = 0) → d.fofmt ≤ 6 → rows.toNat % 8 = 0 → rows ≠ 0 →
    d.flen ≠ 0 → d.flen % 32 = 0 → d.fsrc % 64 = 0 → d.fsrc + rows.toNat * d.flen * b ≤ 65536 →
    operandBad o = false → operandSteps o ≠ [d.qag] → Ready s a 3 → pairedEngine s a = none → g.xfers = [] →
    OpenTo 1 ad n → ad % 64 = 0 → OpenTo 1 aQ rows.toNat → aQ % 8 = 0 →
    (ad + n ≤ aQ ∨ aQ + rows.toNat ≤ ad) → ((g.used o).used (BitVec.ofNat 8 (64 + d.qag))).Falls 3 →
    ∃ u v, exec (.cfin t o fd rows {}) s = .next u ∧ exec (.resultReady a) u = .next v ∧
      getEng v a = ((g.used o).used (BitVec.ofNat 8 (64 + d.qag))).fall 3 ∧
      (getTile v t.toNat).acc = (getTile s t.toNat).acc ∧ (getTile v t.toNat).v = (getTile s t.toNat).v ∧
      (∀ r < rows.toNat, localByte v t.toNat (aQ.toNat + r) = BitVec.ofNat 8 (scale r) ∧
        ∀ k < d.flen, storeBits v t.toNat ad.toNat (w * (r / 8 * (8 * d.flen) + k / K * (8 * K) + r % 8 * K + k % K)) w =
          quant (held r k) (scale r) d.fofmt) ∧
      ∀ k y, k < 8192 → y < 0x50000 → localByte v k y ≠ localByte s k y →
        k = t.toNat ∧ (ad ≤ y ∧ y < ad + n ∨ aQ ≤ y ∧ y < aQ + rows.toNat)

/-! ### Reeds (chapter 08) -/

/-- R225, R226, R238: writes of REED_RING and REED_TAIL take effect only as the rules say, else they complete with error and change
    nothing; ABORT empties the ring, sends no token and lets deliveries finish. That a Reed with nothing outstanding too stays
    ABORTING to the end of the reference cycle is the model's choice (log entry 36). R228, R233: the oldest block lands in its
    tile store, one delivery less is owed by the oldest command that owes one; a token whose blocks have landed adds its amount
    to its semaphore, and a Reed with nothing left waiting, running or on its way is IDLE. -/
def Obligations.ReedControl : Prop :=
  (∀ (s : State) (n : BitVec 9) (v : Word), HostServed s → reedOn s n.toNat = true →
    let N := n.toNat
    let st := reedState s N
    let size := 2 ^ rf s (aReedRing N) 51 48
    let new := fld v 15 0
    let ring := st = 0 ∧ reedHead s N = reedTail s N ∧ 4 ≤ fld v 51 48 ∧ fld v 51 48 ≤ 12
    let tail := st ≠ 3 ∧ st ≠ 4 ∧ st ≠ 5 ∧ rf s (aReedRing N) 51 48 ≠ 0 ∧ (new + 65536 - reedHead s N) % 65536 ≤ size ∧
      (new + 65536 - reedTail s N) % 65536 ≤ size
    Cases s
      [(.reedRingWrite .host n v, ring, fun t => Written s t [aReedRing N] ∧
          FieldsAre (regGet t (aReedRing N)) v [(51, 48), (47, 6)]),
       (.reedRingWrite .host n v, ¬ring, fun t => Refused s t 0x2043 (0x1000 + N)),
       (.reedTailWrite .host n v, tail, fun t => Written s t [aReedTail N, aReedStatus N] ∧ reedTail t N = new ∧
          reedState t N = (if st = 0 ∧ reedHead s N ≠ new then (if chState s N = 1 then 2 else 1) else st) ∧ reedHead t N = reedHead s N),
       (.reedTailWrite .host n v, st ≠ 5 ∧ ¬tail, fun t => Refused s t 0x2043 (0x1000 + N)),
       (.reedTailWrite .host n v, st = 5, fun t => Refused s t 0x2047 (0x1000 + N)),
       (.reedAbort .host n, st ≠ 5, fun t => t = { s with reply := t.reply, regs := t.regs, reed := t.reed } ∧
          t.reply.1 = 0 ∧ OnlyRegs s t [aReedStatus N] ∧ reedHead t N = reedTail s N ∧
          rbit t (aReedStatus N) 19 = false ∧ reedState t N = 4 ∧
          getReed t N = { getReed s N with toks := [], held := none, bad := none } ∧
          ∀ m, m ≠ N → getReed t m = getReed s m)]) ∧
  (∀ (s : State) (n : BitVec 9) (b : RBlock) (bs : List RBlock) (x : RTok) (xs : List RTok) (u : TileId) (o : Nat),
    let r := getReed s n.toNat
    reedOn s n.toNat = true → reedState s n.toNat = 1 → Awake s u.toNat →
    (r.blocks = b :: bs → r.toks = x :: xs → x.left ≠ 0 → b.data.length = 1024 → o + 1024 ≤ 0x40000 →
      b.addr = 0x020000000000 + u.toNat * 0x40000 + o →
      ∃ t, exec (.reedBlockDelivery n) s = .next t ∧ t = { s with mem := t.mem, reed := t.reed } ∧
        MemBecomes s t b.addr b.data ∧ getReed t n.toNat = { r with blocks := bs, toks := { x with left := x.left - 1 } :: xs } ∧
        ∀ m, m ≠ n.toNat → getReed t m = getReed s m) ∧
    (r.toks = x :: xs → x.left = 0 → x.tile = u.toNat → TakesTokens s u.toNat →
      (getTile s u.toNat).semVal x.sem + x.n ≤ 65535 →
      let last := xs = [] ∧ r.blocks = [] ∧ r.bad = none ∧ reedHead s n.toNat = reedTail s n.toNat
      ∃ t, exec (.reedToken n) s = .next t ∧ t = { s with tile := t.tile, reed := t.reed, regs := t.regs } ∧
        OnlyRegs s t [aReedStatus n.toNat] ∧ (¬last → t.regs = s.regs) ∧
        (last → reedState t n.toNat = 0 ∧ rf t (aReedStatus n.toNat) 59 44 = 0 ∧ reedHead t n.toNat = reedHead s n.toNat ∧
          fld (regGet t (aReedStatus n.toNat)) 43 16 = fld (regGet s (aReedStatus n.toNat)) 43 16) ∧
        getReed t n.toNat = { r with toks := xs } ∧
        (∀ m, (getTile t u.toNat).semVal m = (getTile s u.toNat).semVal m + if m = x.sem then x.n else 0) ∧
        ∀ k, k ≠ u.toNat → getTile t k = getTile s k))

/-- R227, R228, R231, R239: a Reed takes the entry at HEAD. SIGNAL owes only its token; VLOAD copies LEN bytes of HBM or of one tile
    store to its vector store; a reserved operation faults with 0x2_040 and STATE FAULTED. R229 to R233, Table 8.4: an MV of
    plain formats with a fixed anchor and ACCM 0 owes one block for each eight rows; a block holds the exact dot product of row
    r and vector v at element (v, r mod 8), and 0 beyond the rows and the vectors. -/
def Obligations.ReedArithmetic : Prop :=
  (∀ (s y z : State) (n : BitVec 9) (k : RCmd), ReedHas s y n.toNat k →
    let r := getReed s n.toNat
    let took := reedTake y n.toNat (fld k.w0 15 0)
    let src := fld k.w1 47 0
    let len := fld k.w2 49 32
    let doff := fld k.w2 16 0
    (ReedW0 k.w0 3 → ∃ t, exec (.reedSignal n) s = .next t ∧ ReedTook s y t n.toNat k (r.owes k.w0 0)) ∧
    (∀ bs, ReedW0 k.w0 1 → fld k.w1 63 48 = 0 → fld k.w2 63 50 = 0 → fld k.w2 31 17 = 0 → k.w3 = 0 → doff % 64 = 0 →
      doff + len ≤ 131072 → len ≠ 0 → (src + len ≤ 0x9000000000 ∨
        ∃ u < 8192, 0x020000000000 + u * 0x40000 ≤ src ∧ src + len ≤ 0x020000000000 + (u + 1) * 0x40000) →
      heldBack s (memSpan src len) = false →
      memRead took (.reed n) src len = (bs, 0, z) → z.regs = took.regs → bs.length = len →
      ∃ t u, exec (.vload n) s = .next t ∧ ReedTook s z t n.toNat k ({ r with store := u }.owes k.w0 0) ∧
        ∀ i, tget 0 u i = if doff ≤ i ∧ i < doff + len then bs.getD (i - doff) 0 else tget 0 r.store i) ∧
    (fld k.w0 63 60 = 0 ∨ 3 < fld k.w0 63 60 → ∀ c ∈ [Instr.vload n, .mv n, .reedSignal n],
      ∃ t, exec c s = .next t ∧ Says y t 0x2040 (0x1000 + n.toNat) ∧ reedState t n.toNat = 3 ∧
        rf t (aReedStatus n.toNat) 43 28 = 0x2040 ∧ rf t (aReedStatus n.toNat) 59 44 = fld k.w0 15 0)) ∧
  (∀ (s y : State) (n : BitVec 9) (k : RCmd) (row : Nat → List Byte) (z : Nat → State), ReedHas s y n.toNat k → ReedW0 k.w0 2 →
    let r := getReed s n.toNat
    let took := reedTake y n.toNat (fld k.w0 15 0)
    let rows := fld k.w1 63 48
    let wf := fld k.w2 63 60
    let xf := fld k.w2 59 56
    let nv := fld k.w2 55 53 + 1
    let kk := fld k.w2 39 25
    let step := fld k.w2 15 0 * 64
    let rb := (kk * elemBits wf + 511) / 512 * 64
    let part (f : Nat) : Int := match f with | 0 => -9 | 1 => -16 | 2 => -3 | 3 => -4 | 4 => -1 | _ => 0
    let at_ (v : Nat) : Nat := (fld k.w3 38 28 + v * fld k.w3 27 17) * 64
    let w (i e : Nat) : FNum := decodeElem wf (leNat (row i) / 2 ^ (elemBits wf * e) % 2 ^ elemBits wf)
    let x (v e : Nat) : FNum := decodeElem xf (tget 0 r.store (at_ v + e)).toNat
    let word (i v : Nat) : BitVec 128 := reedDot (part wf + part xf) kk (w i) (x v)
    wf ≤ 6 → xf ∈ [0, 1, 5] → fld k.w2 52 51 = 0 → fld k.w2 50 49 = 0 → fld k.w2 24 16 = 0 → fld k.w3 16 0 = 0 →
    0 < kk → kk ≤ 16384 → fld k.w1 47 0 % 64 = 0 → rb ≤ step →
    (∀ i < rows, ∀ j < rb / 64, ∃ g p, place took (fld k.w1 47 0 + i * step + 64 * j) = some (g, p) ∧
      rgnAffine took g = true ∧ p.chan = n.toNat) →
    z 0 = took → (∀ i < rows, hbmRead (z i) (fld k.w1 47 0 + i * step) rb false 1 = (row i, 0, z (i + 1))) → (z rows).regs = took.regs →
    (∀ v < nv, at_ v + kk ≤ 131072) → fld k.w3 50 39 * 64 + (rows + 7) / 8 * 1024 ≤ 0x40000 →
    ∃ t bs, exec (.mv n) s = .next t ∧
      ReedTook s (z rows) t n.toNat k ({ r with held := none, blocks := r.blocks ++ bs }.owes k.w0 ((rows + 7) / 8)) ∧
      bs.length = (rows + 7) / 8 ∧ ∀ b < bs.length, ∀ d, bs[b]? = some d →
        d.addr = 0x020000000000 + fld k.w3 63 51 * 0x40000 + fld k.w3 50 39 * 64 + b * 1024 ∧ d.data.length = 1024 ∧
        ∀ v < 8, ∀ j < 8, ∀ y < 16, d.data[(8 * v + j) * 16 + y]? =
          some (if v < nv ∧ 8 * b + j < rows then BitVec.ofNat 8 ((word (8 * b + j) v).toNat / 256 ^ y) else 0))

/-! ### HBM (chapter 09) -/

/-- R244, R245: a region never places two of its bytes on one device byte, whatever channels are excluded. -/
def Obligations.PlacementInjective : Prop :=
  ∀ (s : State) (dbase blk stk nstk o p : Nat),
    (fineSpot s dbase o = fineSpot s dbase p → o = p) ∧
    (0 < blk → 0 < nstk → stk + nstk ≤ 16 →
      affineSpot (affineList s stk nstk) blk dbase o = affineSpot (affineList s stk nstk) blk dbase p → o = p)

/-- R249, R252, R254: a write within one granule completes, and a read of the same bytes then returns them, wherever the cache, the
    write-combining entry or the device holds them; an address in no enabled region fails with 0x2_050. R268: a request to a
    channel that retrains waits. R253, R255 to R259, R268: a write-combining entry drains onto the device under its mask, or
    stays while its channel retrains; a record at the MEM site of a granule that neither the cache nor an entry holds changes
    its target as Table 9.3 says, and not another byte of the device. -/
def Obligations.MemoryAccess : Prop :=
  (∀ (s : State) (a : BitVec 48) (bs : List Byte) (n : Nat) (p : Spot), HostServed s →
    (Served s (a.toNat / 64) n p → s.closing = [] → 0 < bs.length → a.toNat % 64 + bs.length ≤ 64 → a.toNat + bs.length ≤ 0x9000000000 →
      ∃ t u, exec (.hbmWrite .host a bs) s = .next t ∧ t.reply.1 = 0 ∧
        t = { s with reply := t.reply, arb := t.arb, cache := t.cache, chan := t.chan, dev := t.dev, bad := t.bad
                     regs := t.regs, rep := t.rep, free := t.free } ∧
        exec (.hbmRead .host a (BitVec.ofNat 16 bs.length) 0) t = .next u ∧ u.reply = (0, bs)) ∧
    (place s (a.toNat / 64 * 64) = some (n, p) → chState s p.chan = 1 → dieIsolated s (homeDie p.chan) = false →
      0 < bs.length → a.toNat % 64 + bs.length ≤ 64 → a.toNat + bs.length ≤ 0x9000000000 →
      exec (.hbmWrite .host a bs) s =
        .next { s with waits := s.waits ++ [{ spans := [(a.toNat, bs.length)]
                                              work := .access { req := .host, addr := a.toNat, len := bs.length, data := some bs } }] }) ∧
    (place s (a.toNat / 64 * 64) = none → 0 < bs.length → a.toNat % 64 + bs.length ≤ 64 → a.toNat + bs.length ≤ 0x9000000000 →
      ∀ c ∈ [Instr.hbmWrite .host a bs, Instr.hbmRead .host a (BitVec.ofNat 16 bs.length) 0],
      ∃ t, exec c s = .next t ∧ t.reply.1 = 0x2050 ∧ t.dev = s.dev ∧ t.cache = s.cache ∧ t.chan = s.chan ∧
        Says s t 0x2050 (0x7000 + 8))) ∧
  (∀ (s : State) (c : BitVec 9) (g : BitVec 34) (e : WcEntry) (p : Spot) (n : Nat) (w0 w1 w2 : Word), HostServed s →
    let a := fld w0 47 0
    let ty := fld w0 59 56
    let size := if ty = 5 then 16 else if ty = 1 ∨ ty = 3 then 8 else 4
    (findWc s c.toNat g.toNat = some e → e.gran = g.toNat → placeHeld s (g.toNat * 64) = some p → p.key ∉ s.bad →
      chState s c.toNat ≠ 1 → chState s p.chan ≠ 2 →
      ∃ t, exec (.wcDrain c g) s = .next t ∧ t = { s with arb := t.arb, chan := t.chan, dev := t.dev, bad := t.bad } ∧
        findWc t c.toNat g.toNat = none ∧ ∀ k, tget (devDefault s k) t.dev k =
          if p.key ≤ k ∧ k < p.key + 64 ∧ e.mask.getLsbD (k - p.key) = true then byteOf e.data (k - p.key)
          else tget (devDefault s k) s.dev k) ∧
    (chState s c.toNat = 1 → dieIsolated s (homeDie c.toNat) = false → exec (.wcDrain c g) s = .next s) ∧
    (place s a = some (n, p) → chanCode s p.chan = 0 → chState s p.chan ≠ 1 → Unwaited s (a / 64) → p.key - a % 64 ∉ s.bad → a % 64 ≤ p.key → rgnCacheSite s n = false →
      findLine s (homeDie p.chan) (a / 64) = none → findWc s p.chan (a / 64) = none → a < 0x9000000000 →
      1 ≤ fld w0 63 60 → fld w0 63 60 ≤ 3 → ty ≤ 5 → (ty = 5 → fld w0 63 60 = 1) → fld w0 55 48 = 0 → a % size = 0 →
      ∃ t m, exec (.atomicRecord .host w0 w1 w2 0) s = .next t ∧ t.reply.1 = 0 ∧
        t = { s with reply := t.reply, arb := t.arb, dev := t.dev, bad := t.bad, regs := t.regs } ∧
        regGet t (aHbmChAtom p.chan) = regGet s (aHbmChAtom p.chan) ||| m ∧ m.toNat < 8 ∧ (ty < 4 → m = 0) ∧
        OnlyRegs s t [aHbmChAtom p.chan] ∧
        let old := leNat ((List.range size).map (devByte s p.key))
        let arg := if ty = 5 then w1.toNat + 2 ^ 64 * w2.toNat else w1.toNat % 2 ^ (8 * size)
        ∀ k, tget (devDefault s k) t.dev k =
          if p.key ≤ k ∧ k < p.key + size then BitVec.ofNat 8 (atomResult (fld w0 63 60) ty old arg / 256 ^ (k - p.key))
          else tget (devDefault s k) s.dev k) ∧
    (fld w0 63 60 = 0 ∨ 3 < fld w0 63 60 → ∃ t, exec (.atomicRecord .host w0 w1 w2 0) s = .next t ∧
      t.reply.1 = 0x2052 ∧ t.dev = s.dev ∧ t.cache = s.cache ∧ t.chan = s.chan))

/-- R260 to R262: REFRESH takes the grant first; else, with no grant in progress, the ready head that beats every other wins, leaves
    its queue, and each ready head that lost gains a step of priority up to 15. R265, R268: the last THR of every 4 slots (log
    entry 125) and the time of a retraining see no ordinary grant. A refresh that comes due in a retraining raises none. R265 to
    R271: temperature readings, error windows, channel policies, retraining, exclusion and flushing. -/
def Obligations.Channels : Prop :=
  (∀ (s : State) (pc : BitVec 10) (ready : BitVec 5) (c : Nat) (x : ArbReq) (xs : List ArbReq),
    let a := getArb s pc.toNat
    let lost (r : ArbReq) : ArbReq := { r with prio := min 15 (r.prio + 1), lost := r.lost + 1 }
    let thr := rf s (aHbmChStatus (pc.toNat / 2)) 51 50
    let stops := chState s (pc.toNat / 2) = 1
    (a.refresh ≠ 0 → ∃ t, exec (.arbiterRound pc ready) s = .next t ∧ t = { s with arb := t.arb } ∧
      (getArb t pc.toNat).grants = (5, 2) :: a.grants ∧ (getArb t pc.toNat).refresh = a.refresh - 1 ∧
      ∀ k, k ≠ pc.toNat → getArb t k = getArb s k) ∧
    (a.refresh = 0 → a.debug = 0 → stops ∨ (a.cur = none ∧ 4 ≤ a.slot + thr) →
      ∃ t, exec (.arbiterRound pc ready) s = .next t ∧ t = { s with arb := t.arb } ∧
        (getArb t pc.toNat).grants = a.grants ∧ (∀ d, (getArb t pc.toNat).of d = a.of d) ∧
        ∀ k, k ≠ pc.toNat → getArb t k = getArb s k) ∧
    (a.refresh = 0 → a.debug = 0 → a.cur = none → ¬stops → a.slot + thr < 4 → c < 5 → a.of c = x :: xs → ready.getLsbD c = true →
      (∀ d y, d < 5 → d ≠ c → ready.getLsbD d = true → (a.of d).head? = some y → Beats c x d y) →
      ∃ t, exec (.arbiterRound pc ready) s = .next t ∧ t = { s with arb := t.arb } ∧
        (getArb t pc.toNat).grants = (c, x.bursts) :: a.grants ∧
        (∀ d < 5, (getArb t pc.toNat).of d =
          if d = c then xs
          else if ready.getLsbD d = true then (match a.of d with | y :: ys => lost y :: ys | [] => []) else a.of d) ∧
        ∀ k, k ≠ pc.toNat → getArb t k = getArb s k) ∧
    (∃ t, exec (.refreshDue pc) s = .next t ∧ t = { s with arb := t.arb } ∧
      getArb t pc.toNat = (if chState s (pc.toNat / 2) = 1 then a else { a with refresh := a.refresh + 1 }) ∧
      ∀ k, k ≠ pc.toNat → getArb t k = getArb s k)) ∧
  (∀ (s : State) (c : BitVec 9) (stack : BitVec 4) (temp : BitVec 8) (die : BitVec 3) (v : Word) (us : BitVec 16),
    HostServed s → (∀ d < 8, dieIsolated s d = false) →
    let C := c.toNat
    let st := aHbmChStatus C
    let x := getChan s C
    let hot := ((List.range 32).filter (fun k => C / 32 * 32 + k ≠ C ∧ rbit s (aHbmChCtrl (C / 32 * 32 + k)) 1 = true)).length
    let others := ∀ k < 32, chState s (C / 32 * 32 + k) ≠ 1
    let S := stack.toNat
    let X := S * 32 + fld v 4 0
    let used := ∃ n < 16, (rgnEn s n = true ∨ isClosing s n = true) ∧ ctrlUsesStack (regGet s (aHbmRgnCtrl n)) S = true
    let ready := x.wait = true ∧ others ∧ (chState s C = 0 ∨ chState s C = 2)
    Cases s
      [(.stackTemperatureReading stack temp, ∀ k, (getChan s k).step ≤ 3, fun t =>
          t = { s with regs := t.regs, chan := t.chan, rep := t.rep, free := t.free } ∧
          OnlyRegs s t ((List.range 32).map (fun k => aHbmChStatus (S * 32 + k))) ∧
          ∀ k < 32, rf t (aHbmChStatus (S * 32 + k)) 59 52 = temp.toNat ∧
            ∀ r, coolOrHot temp.toInt = some r → chState s (S * 32 + k) ≠ 3 →
              rf t (aHbmChStatus (S * 32 + k)) 51 50 = (if rbit s (aHbmChCtrl (S * 32 + k)) 1 = true then 0 else r.1) ∧
              rf t (aHbmChStatus (S * 32 + k)) 49 48 = r.2),
       (.ceWindowStart, s.drone.tick.toNat % 25000 ≠ 0, fun t => t = s),
       (.ceWindowStart, s.drone.tick.toNat % 25000 = 0, fun t => t = { s with chan := t.chan } ∧
          ∀ k, getChan t k = { getChan s k with ceWin := 0 }),
       (.channelPolicyWrite .host c v, (bit v 1 = false ∨ hot < 4) ∧ bit v 2 = false, fun t =>
          Written s t [aHbmChCtrl C] ∧ FieldsAre (regGet t (aHbmChCtrl C)) v [(1, 1), (23, 8)]),
       (.channelPolicyWrite .host c v, bit v 1 = true ∧ 4 ≤ hot, fun t => Refused s t 0x2055 0),
       (.retrain .host c, chState s C = 0 ∨ chState s C = 2, fun t =>
          t = { s with reply := t.reply, chan := t.chan } ∧ getChan t C = { x with wait := true } ∧
          ∀ k, k ≠ C → getChan t k = getChan s k),
       (.retrain .host c, chState s C = 1 ∨ chState s C = 3, fun t => Written s t []),
       (.retrainingStart c, ready, fun t => chState t C = 1 ∧ getChan t C = { x with wait := false } ∧
          Says s t 0x2062 (0x2000 + C) ∧ OnlyRegs s t [st, aReedStatus C] ∧ t.dev = s.dev ∧ t.cache = s.cache ∧
          reedState t C = if reedState s C ≤ 1 then 2 else reedState s C),
       (.retrainingStart c, ¬ready, fun t => t = s),
       (.retrainingEnd c us, chState s C = 1 ∧ s.waits = [], fun t => chState t C = 0 ∧ Says s t 0x2063 (0x2000 + C) ∧
          OnlyRegs s t [st, aReedStatus C] ∧ t.dev = s.dev ∧ t.cache = s.cache),
       (.retrainingFailure c, chState s C = 1 ∧ s.waits = [], fun t => chState t C = 2 ∧ Says s t 0x2064 (0x2000 + C) ∧
          OnlyRegs s t [st, aReedStatus C] ∧ t.dev = s.dev ∧ t.cache = s.cache ∧ ∀ d, (getArb t (2 * C)).of d = [] ∧
          (getArb t (2 * C + 1)).of d = []),
       (.hbmExclWrite .host stack v, bit v 5 = true ∧ rbit s (aHbmExcl S) 5 = false ∧ ¬used, fun t =>
          FieldsAre (regGet t (aHbmExcl S)) v [(5, 0)] ∧ chState t X = 3 ∧ reedState t X = 5 ∧
          reedHead t X = reedTail s X ∧ Says s t 0x2066 (0x2000 + X) ∧
          (1152 ≤ rf s aHbmCap 19 0 → rf t aHbmCap 19 0 = rf s aHbmCap 19 0 - 1152) ∧
          OnlyRegs s t [aHbmExcl S, aHbmChStatus X, aReedStatus X, aHbmCap] ∧ t.dev = s.dev),
       (.hbmExclWrite .host stack v, rbit s (aHbmExcl S) 5 = true ∨ (bit v 5 = true ∧ used), fun t => Refused s t 0x2054 0),
       (.flush .host die, True, fun t => Written s t [aHbmScStatus die.toNat] ∧ rbit t (aHbmScStatus die.toNat) 63 = true),
       (.flushComplete die, rbit s (aHbmScStatus die.toNat) 63 = true ∧ (∀ l ∈ linesOf s die.toNat, l.dirty = true →
          ∀ p, placeHeld s (l.gran * 64) = some p → chState s p.chan = 0 ∨ chState s p.chan = 3), fun t =>
          t = { s with regs := t.regs, cache := t.cache, dev := t.dev, bad := t.bad, arb := t.arb } ∧
          OnlyRegs s t [aHbmScStatus die.toNat] ∧ rbit t (aHbmScStatus die.toNat) 63 = false ∧
          linesOf t die.toNat = (linesOf s die.toNat).map (fun l => { l with dirty := false }) ∧
          ∀ d, d ≠ die.toNat → linesOf t d = linesOf s d)])

/-- R246, R247: enabling a FINE or an AFFINE region alone in the map, disabling one and completing its close; and what refuses an
    enable. -/
def Obligations.RegionMap : Prop :=
  ∀ (s : State) (n : BitVec 4) (v : Word), HostServed s →
    let N := n.toNat
    let size := rf s (aHbmRgnSize N) 39 6 * 64
    let base := rf s (aHbmRgnBase N) 39 6 * 64
    let en (m : Nat) : Bool := rbit s (aHbmRgnCtrl m) 63
    let idle := isClosing s N = false
    let alone := ∀ m < 16, m ≠ N → en m = false ∧ isClosing s m = false
    let fits := rf s (aHbmRgnDev N) 21 0 * 256 + 256 * ((size + 8192 * 31 - 1) / (8192 * 31)) ≤ 0x24000000
    let nch := ((List.range (fld v 52 48)).map (fun k => if rbit s (aHbmExcl (fld v 47 44 + k)) 5 = true then 31 else 32)).sum
    let affine := fld v 23 0 ≠ 0 ∧ fld v 52 48 ≠ 0 ∧ fld v 47 44 + fld v 52 48 ≤ 16 ∧ size % (fld v 23 0 * 64 * nch) = 0
    Cases s
      [(.regionEnable .host n v, idle ∧ alone ∧ en N = false ∧ bit v 62 = false ∧ fld v 60 59 ≠ 3 ∧ size ≠ 0 ∧
          base + size ≤ 0x9000000000 ∧ size % 0x40000 = 0 ∧ fits,
        fun t => Written s t [aHbmRgnCtrl N] ∧ rbit t (aHbmRgnCtrl N) 63 = true ∧
          FieldsAre (regGet t (aHbmRgnCtrl N)) v [(62, 62), (61, 61), (60, 59), (52, 48), (47, 44), (23, 0)]),
       (.regionEnable .host n v, idle ∧ alone ∧ en N = false ∧ bit v 62 = true ∧ fld v 60 59 ≠ 3 ∧ size ≠ 0 ∧
          base + size ≤ 0x9000000000 ∧ affine ∧
          rf s (aHbmRgnDev N) 21 0 * 256 + 256 * ((size + nch * 512 - 1) / (nch * 512)) ≤ 0x24000000,
        fun t => Written s t [aHbmRgnCtrl N] ∧ rbit t (aHbmRgnCtrl N) 63 = true ∧
          FieldsAre (regGet t (aHbmRgnCtrl N)) v [(62, 62), (61, 61), (60, 59), (52, 48), (47, 44), (23, 0)]),
       (.regionEnable .host n v, isClosing s N = true ∨ en N = true ∨ fld v 60 59 = 3 ∨ size = 0 ∨
          0x9000000000 < base + size ∨ (bit v 62 = false ∧ size % 0x40000 ≠ 0) ∨ (bit v 62 = true ∧ ¬affine) ∨
          (∃ m < 16, m ≠ N ∧ en m = true ∧ base < rf s (aHbmRgnBase m) 39 6 * 64 + rf s (aHbmRgnSize m) 39 6 * 64 ∧
            rf s (aHbmRgnBase m) 39 6 * 64 < base + size),
        fun t => Refused s t 0x2051 0),
       (.regionDisable .host n v, idle ∧ en N = true, fun t =>
          t = { s with reply := t.reply, regs := t.regs, closing := t.closing } ∧ OnlyRegs s t [aHbmRgnCtrl N] ∧
          rbit t (aHbmRgnCtrl N) 63 = false ∧ isClosing t N = true),
       (.regionDisable .host n v, isClosing s N = true, fun t => Refused s t 0x2051 0),
       (.regionCloseComplete n, isClosing s N = true ∧ twf {} s.chan = true ∧
          (∀ c < 512, chState s c ≠ 1) ∧ en N = false ∧
          (∀ w ∈ s.waits, ∀ x ∈ w.spans, x.1 + x.2 ≤ base ∨ base + size ≤ x.1),
        fun t => isClosing t N = false ∧ t.mem = s.mem ∧ t.tile = s.tile ∧
          (∀ c, ∀ e ∈ (getChan t c).wc, inRgn t N e.gran = false) ∧ ∀ d < 8, ∀ l ∈ linesOf t d, inRgn t N l.gran = false)]

/-! ### Tenon (chapter 10) -/

/-- R278, Table 10.4: what each message does at its destination die; one with a LEN above 576 is discarded with 0x3_011. R293: `z` is the state in which the
    message is under way no longer; the last one under way on a changed route lets the route go, with what is held for it. -/
def Obligations.TenonMessages : Prop :=
  ∀ (s u : State) (m q n : TMsg) (x y : Nat) (bs : List Byte) (v : Word) (tile : TileId) (e : BitVec 2) (o : Nat),
    let a := tmAddr m
    let store := 0x020000000000 + tile.toNat * 0x40000 + o
    let z := landed s m
    let record := performRecord z (wordAt bs 0) (wordAt bs 8) (wordAt bs 16) (wordAt bs 24)
    let sem := tmFld m 50 47
    let window := a = 0x030004000000 + tile.toNat * 0x1000 + 0x800 + e.toNat * 0x20 ∧ m.body = bs ∧ bs.length = 32
    let refusal := highestRefusal z tile.toNat e.toNat (wordAt bs 0)
    let open_ := z.ten.open_
    Cases s
      [(.tenonRd m, TakesMessage s m 1 ∧ a = store ∧ 0 < tmLen m ∧ o + tmLen m ≤ 0x40000 ∧ Awake z tile.toNat,
          fun t => t = tmReply z m 0 (rdBytes z.mem a (tmLen m))),
       (.tenonWr m, TakesMessage s m 2 ∧ a = store ∧ m.body = bs ∧ 0 < bs.length ∧ o + bs.length ≤ 0x40000 ∧ Awake z tile.toNat,
          fun t => ∃ x, MemBecomes z x a bs ∧ x = { z with mem := x.mem } ∧ t = tmReply x m 0 []),
       (.tenonAtom m, TakesMessage s m 3 ∧ mayAtomic (tmReq z m) = true ∧ m.body = bs ∧ bs.length = 32 ∧ a % 32 = 0 ∧ record.1 = 0 ∧
            heldBack z (recordSpans bs) = false, fun t => t = tmReply record.2 m 0 []),
       (.tenonAtom m, TakesMessage s m 3 ∧ mayAtomic (tmReq z m) = true ∧ m.body.length % 32 ≠ 0 ∧ heldBack z (recordSpans m.body) = false,
          fun t => ∃ x, x = { z with rep := x.rep, free := x.free } ∧ t = tmReply x m 0x2052 []),
       (.tenonAtom m, TakesMessage s m 3 ∧ mayAtomic (tmReq z m) = false ∧ heldBack z (recordSpans m.body) = false,
          fun t => ∃ x, x = { z with rep := x.rep, free := x.free } ∧ Says z x 0x9021 0 ∧ t = tmReply x m 0x9021 []),
       (.tenonPush m, TakesMessage s m 4 ∧ window ∧ mayPush (tmReq z m) = true ∧ refusal = 0 ∧ (getTile z tile.toNat).gated = false ∧
            (getCluster z (clusterOf tile.toNat)).clk = .running,
          fun t => ∃ w st k, t = tmReply w m 0 [] ∧ Becomes { z with rep := w.rep, free := w.free } w ⟨tile, e⟩
            { getEng z ⟨tile, e⟩ with queue := (getEng z ⟨tile, e⟩).queue ++
              [{ w0 := wordAt bs 0, w1 := wordAt bs 8, w2 := wordAt bs 16, w3 := wordAt bs 24, stamp := st, seq := k }] }),
       (.tenonPush m, TakesMessage s m 4 ∧ window ∧ mayPush (tmReq z m) = true ∧ refusal ≠ 0,
          fun t => t = tmReply z m (if refusal = 6 then 0x3010 else refusal) []),
       (.tenonPush m, TakesMessage s m 4 ∧ window ∧ mayPush (tmReq z m) = false, fun t => ∃ x,
          x = { z with rep := x.rep, free := x.free } ∧ t = tmReply x m 0x20F0 []),
       (.tenonPush m, TakesMessage s m 4 ∧ areaOf a 32 = none, fun t => ∃ x,
          x = { z with rep := x.rep, free := x.free } ∧ t = tmReply x m 0x2001 []),
       (.tenonToken m, TakesMessage s m 5 ∧ tmFld m 63 51 = tile.toNat ∧ TakesTokens z tile.toNat ∧
            (getTile z tile.toNat).semVal sem + tmFld m 46 39 ≤ 65535,
          fun t => OnlyTile z t tile.toNat ∧ ∀ k, (getTile t tile.toNat).semVal k =
            (getTile z tile.toNat).semVal k + if k = sem then tmFld m 46 39 else 0),
       (.tenonRdrsp m, TakesMessage s m 0x11 ∧ open_ = [q] ∧ tmSdie q = tmDdie m ∧ tmDdie q = tmSdie m ∧ tmTag q = tmTag m ∧
            (tmOpc q = 1 ∨ tmOpc q = 0x40),
          fun t => t = { z with ten := { z.ten with open_ := [], got := m :: z.ten.got } }),
       (.tenonWrack m, TakesMessage s m 0x12 ∧ open_ = [q] ∧ tmSdie q = tmDdie m ∧ tmDdie q = tmSdie m ∧ tmTag q = tmTag m ∧
            tmOpc q ∈ [2, 3, 4, 0x41],
          fun t => t = { z with ten := { z.ten with open_ := [], got := m :: z.ten.got } }),
       (.tenonRdrsp m, TakesMessage s m 0x11 ∧ open_ = [], fun t => t = z),
       (.tenonCol m, TakesMessage s m 0x20 ∧ pkOpc (tmPacket m) = 0x20, fun t => t = takeCol z (tmPacket m) none),
       (.tenonFabin m, TakesMessage s m 0x30 ∧ tmDdie m < 8, fun t => t = takeIn z (tmPacket m) (6 + tmDdie m)),
       (.tenonFabout m, TakesMessage s m 0x31 ∧ 8 ≤ tmDdie m ∧ tmSdie m < 8, fun t => t = takeIn z (tmPacket m) (6 + tmSdie m)),
       (.tenonCrd m, TakesMessage s m 0x40 ∧ heldBack z (memSpan a 8) = false ∧ areaOf a 8 = some .ctl ∧ ctlRead z (tmReq z m) a = (v, 0, u),
          fun t => t = tmReply u m 0 (wordLE v)),
       (.tenonCwr m, TakesMessage s m 0x41 ∧ heldBack z (memSpan a 8) = false ∧ areaOf a 8 = some .ctl ∧ m.body = wordLE v ∧ ctlWrite z (tmReq z m) a v = (0, u),
          fun t => t = tmReply u m 0 []),
       (.tenonWrack m, TakesMessage s m 0x12 ∧ s.ten.open_ = [] ∧ s.ten.moved = [routeKey m] ∧ s.ten.under = [(m, x), (n, y)] ∧
            routeKey n = routeKey m, fun t => t = { s with ten := { s.ten with under := [(n, y)] } }),
       (.tenonWrack m, TakesMessage s m 0x12 ∧ s.ten.open_ = [] ∧ s.ten.moved = [routeKey m] ∧ s.ten.under = [(m, x)] ∧
            s.ten.stay = [], fun t => t = { s with ten := { s.ten with under := [], moved := [] } }),
       (.tenonWrack m, TakesMessage s m 0x12 ∧ s.ten.open_ = [] ∧ s.ten.moved = [routeKey m] ∧ s.ten.under = [(m, x)] ∧
            s.ten.stay = [n] ∧ routeKey n = routeKey m,
          fun t => t = takeMessage (issueMsg { s with ten := { s.ten with under := [], moved := [], stay := [] } } (tmSdie n) n) m)] ∧
    (tmOpc m = 2 → tmDdie m < 12 → dieIsolated s (tmDdie m) = false → 576 < tmLen m →
      ∃ t, exec (.tenonWr m) s = .next t ∧ t = { s with rep := t.rep, free := t.free } ∧
        Says s t 0x3011 (0x6000 + tmDdie m * 8 + arrivalPort s m))

/-- R278 to R283: a message that finds credits goes out at once on its lane, HEAD first, each flit with the lane's next SEQ and kept
    for replay; a flit whose CRC fails is discarded and NAKed; a good one in order is taken and acknowledges; a NAK leaves the
    flits after its ACK for the replay. R289: the fourth NAK of a lane within 1 µs and the eighth replay of one flit start a
    retest. R276, R283, R289, R290, R293, Table 10.7: retests and retraining, the loss of a clock, and routes coming into force.
    R292, R293: a die holds a new message while its route crosses a FENCED link or has changed with older messages under way,
    and as its new routes come into force it holds those that have changed so. That a report about a link carries the unit of
    its end A is the model's choice (log entry 100). -/
def Obligations.TenonLinks : Prop :=
  (∀ (s : State) (e : LinkEnd) (m : TMsg) (lane : BitVec 4) (f : BitVec 256) (ack : BitVec 8) (link : Nat),
    let d := e.die.toNat
    let p := e.port.toNat
    let x := getEnd s (d * 4 + p)
    let k := fullLane m
    let y := laneOf s d p k
    let n := 1 + (tmBodyLen m + 23) / 24
    let vc := (opcVc (tmOpc m)).getD 0
    let z := laneOf s d p lane.toNat
    let good := crc16 (f.toNat % 2 ^ 240) = f.toNat / 2 ^ 240
    let inUse := linkUp s link = true ∧ (linkInUse s link).testBit lane.toNat = true ∧ z.retest = false
    linkAt d p = some link →
    (linkState s link = 3 → linkInUse s link = 0xFFFF → mayMessage s d m = true →
      tget 0 s.route (tmSdie m * 256 + tmDdie m * 16 + d) = p + 1 → (s.ten.old.contains d = true ∨ routePath s (tmSdie m) (tmDdie m) ≠ none) → routeHeld s d m = false →
      (∀ i < 16, (laneOf s d p i).queue = []) → x.wait = [] → x.owe = [] → tget 0 x.used vc + n ≤ vcFlits vc →
      y.replay.length + n ≤ 64 → y.retest = false →
      ∃ t, exec (.tenonMessageSend e m) s = .next t ∧ t = { s with ten := t.ten } ∧
        t.ten.open_ = (if tmAsks m = true then s.ten.open_ ++ [m] else s.ten.open_) ∧ t.ten.under = s.ten.under ++ [(m, link)] ∧
        laneOf t d p k = { y with txSeq := y.txSeq + BitVec.ofNat 8 n
                                  replay := y.replay ++ flitsFrom (y.txSeq.toNat + 1) y.rxSeq (msgFlits m) } ∧
        (∀ i, i ≠ k → laneOf t d p i = laneOf s d p i) ∧ (getEnd t (d * 4 + p)).wait = [] ∧
        tget 0 (getEnd t (d * 4 + p)).used vc = tget 0 x.used vc + n) ∧
    (mayMessage s d m = true → tget 0 s.route (tmSdie m * 256 + tmDdie m * 16 + d) = p + 1 → routeHeld s d m = true →
      exec (.tenonMessageSend e m) s = .next { s with ten := { s.ten with
        open_ := (if tmAsks m = true then s.ten.open_ ++ [m] else s.ten.open_), stay := s.ten.stay ++ [m] } }) ∧
    (inUse → ¬good → 3 ≤ z.naks.length → retesting s link lane.toNat = false →
      ∃ t, exec (.tenonFlitReceive e lane f) s = .next t ∧ (laneOf t d p lane.toNat).retest = true ∧
        rf t (aTenLinkCnt link) 47 32 = min 65535 (rf s (aTenLinkCnt link) 47 32 + 1)) ∧
    (inUse → ¬good → z.naks.length < 3 → ∃ t, exec (.tenonFlitReceive e lane f) s = .next t ∧ t = { s with ten := t.ten, regs := t.regs } ∧
      OnlyRegs s t [aTenLinkCnt link] ∧ (laneOf t d p lane.toNat).rxSeq = z.rxSeq ∧ (laneOf t d p lane.toNat).nak = true ∧
      (laneOf t d p lane.toNat).part = z.part) ∧
    (inUse → good → flitKind f = 2 → f.getLsbD 218 = false → z.part ≠ [] → flitSeq f = (z.rxSeq + 1).toNat →
      ∃ t, exec (.tenonFlitReceive e lane f) s = .next t ∧ t = { s with ten := t.ten } ∧
        (laneOf t d p lane.toNat).rxSeq = z.rxSeq + 1 ∧ (laneOf t d p lane.toNat).nak = false ∧
        (laneOf t d p lane.toNat).part = z.part ++ [f]) ∧
    (linkUp s link = true → (linkInUse s link).testBit lane.toNat = true → retesting s link lane.toNat = false →
      (∃ g ∈ z.replay, 128 ≤ (ack.toNat + 256 - flitSeq g) % 256 ∧ 7 ≤ tget 0 z.redo (flitSeq g)) →
      ∃ t, exec (.tenonNak e lane ack) s = .next t ∧ (laneOf t d p lane.toNat).retest = true) ∧
    (linkUp s link = true → (linkInUse s link).testBit lane.toNat = true → x.wait = [] → x.owe = [] → z.queue = [] →
      (∀ g ∈ z.replay, tget 0 z.redo (flitSeq g) < 7) →
      ∃ t, exec (.tenonNak e lane ack) s = .next t ∧ t = { s with ten := t.ten, regs := t.regs } ∧
        OnlyRegs s t [aTenLinkCnt link] ∧
        (laneOf t d p lane.toNat).replay = z.replay.filter (fun g => decide (128 ≤ (ack.toNat + 256 - flitSeq g) % 256)))) ∧
  (∀ (s : State) (link lane d : BitVec 4),
    let l := link.toNat
    let D := d.toNat
    let ends := endsOf l
    let may := linkLive s l = true ∧ (linkInUse s l).testBit lane.toNat = true ∧ retesting s l lane.toNat = false
    let both (t : State) (v : Bool) : Prop :=
      (laneOf t ends.1 ends.2.1 lane.toNat).retest = v ∧ (laneOf t ends.2.2.1 ends.2.2.2 lane.toNat).retest = v
    Cases s
      [(.laneRetest link lane, may, fun t =>
          t = { s with ten := t.ten, regs := t.regs } ∧ OnlyRegs s t [aTenLinkCnt l] ∧ both t true ∧
          rf t (aTenLinkCnt l) 47 32 = min 65535 (rf s (aTenLinkCnt l) 47 32 + 1)),
       (.laneRetest link lane, ¬may, fun t => t = s),
       (.laneRetestComplete link lane [], linkUp s l = true ∧ retesting s l lane.toNat = true ∧ twf [] s.ten.bad = true,
        fun t => both t false ∧ t.rep = s.rep ∧ rf t (aTenLinkStatus l) 63 60 = linkState s l ∧ t.mem = s.mem),
       (.linkRetrainComplete link, linkState s l = 5 ∧ 8 ≤ (wholeLanes s l).length, fun t => rf t (aTenLinkStatus l) 63 60 = 4 ∧
          rf t (aTenLinkStatus l) 43 28 = laneMask ((wholeLanes s l).take 8) ∧ Says s t 0x3003 (unitOfLink l) ∧
          OnlyRegs s t [aTenLinkStatus l] ∧ t.mem = s.mem),
       (.clockLoss d, D ≠ 8 ∧ D < 12 ∧ dieIsolated s D = false, fun t => rf t (aTenDieStatus D) 63 60 = 1 ∧
          rf t (aTenDieStatus D) 59 56 = 2 ∧ (∀ x ∈ linksOf D, rf t (aTenLinkStatus x.1) 63 60 = 6) ∧
          SaysAmong s t 0x3006 (0x6000 + D * 8 + 7)),
       (.clockLoss d, D = 8, fun t => rf t aTenModstat 63 60 = 3 ∧ t.mem = [] ∧ t.dev = [] ∧
          ∃ r ∈ t.rep.raised, r.code = 0x3030),
       (.routesInForce d, D < 12 ∧ dieIsolated s D = false, fun t => D ∉ t.ten.old ∧ t.mem = s.mem ∧
          (fencedWaits s D = [] → s.ten.stay = [] → s.ten.moved = [] → t.ten.under = s.ten.under ∧
            ∀ b < 12, D * 16 + b ∈ t.ten.moved ↔ (onWay s (D * 16 + b) = true ∧ routeMoved s D b = true)) ∧
          ∀ a < 12, ∀ b < 12, routePath s a b ≠ none →
            tget 0 t.route (a * 256 + b * 16 + D) = (match hopAt s a b D with | some p => p + 1 | none => 0))])

/-- R294, Table 10.10: each re-admission write takes its step in the STATE that the step requires, on a die that runs none: the
    effect of DRESET 1 and the start of every other step. R294, Table 10.10: the step that a die runs ends and moves STATE on:
    BOOTED, TESTED, TRAINED with the die's links FULL or HALF, or ACTIVE with event 0x3_007 and its HBM channels trained. -/
def Obligations.ReadmissionControl : Prop :=
  (∀ (s : State) (d : BitVec 4), HostServed s → d.toNat < 12 → d.toNat ≠ 8 → rbit s (aTenDieStatus d.toNat) 52 = false →
    let D := d.toNat
    let st := rf s (aTenDieStatus D) 63 60
    let reset := rbit s (aTenDieCtrl D) 0
    (reset = false → st = 1 → ∃ t, exec (.dresetSet .host d) s = .next t ∧ t.reply.1 = 0 ∧ t.rep = s.rep ∧ t.mem = s.mem ∧
      OnlyRegs s t [aTenDieCtrl D, aTenDieStatus D] ∧ rbit t (aTenDieCtrl D) 0 = true ∧ rf t (aTenDieStatus D) 63 60 = 2) ∧
    (reset = false → st = 0 → ∃ t, exec (.dresetSet .host d) s = .next t ∧ rbit t (aTenDieCtrl D) 0 = true ∧
      rf t (aTenDieStatus D) 63 60 = 2 ∧ rf t (aTenDieStatus D) 59 56 = 3 ∧ SaysAmong s t 0x3006 (0x6000 + D * 8 + 7)) ∧
    (reset = true → st = 2 → ∃ t, exec (.dresetClear .host d) s = .next t ∧ StepRuns s t D 2 ∧ rbit t (aTenDieCtrl D) 0 = false) ∧
    (st = 3 → ∃ t, exec (.test .host d) s = .next t ∧ StepRuns s t D 3 ∧ ∀ l ∈ openLinks s D, rf t (aTenLinkStatus l) 63 60 = 1) ∧
    (st = 4 → ∃ t, exec (.train .host d) s = .next t ∧ StepRuns s t D 4 ∧ ∀ l ∈ openLinks s D,
      linkState s l = 1 → rf t (aTenLinkStatus l) 63 60 = 2) ∧
    (st = 5 → ∃ t, exec (.admitOp .host d) s = .next t ∧ StepRuns s t D 5)) ∧
  (∀ (s : State) (d : BitVec 4) (noTrain : List (BitVec 9)) (bad : List BadWire), d.toNat < 12 →
    let D := d.toNat
    let step := tget 0 s.ten.step D
    let moved (t : State) (v : Nat) : Prop := rf t (aTenDieStatus D) 63 60 = v ∧ rbit t (aTenDieStatus D) 52 = false ∧
      tget 0 t.ten.step D = 0
    (step = 2 → ∃ t, exec (.dieBooted d true) s = .next t ∧ moved t 3 ∧ t.rep = s.rep ∧ t.mem = s.mem) ∧
    (step = 3 → ∃ t, exec (.dieTested d true bad) s = .next t ∧ moved t 4 ∧ t.mem = s.mem) ∧
    (step = 4 → (∃ l ∈ openLinks s D, linkState s l = 2 ∧ 8 ≤ (wholeLanes s l).length) →
      ∃ t, exec (.dieTrained d) s = .next t ∧ moved t 5 ∧ t.mem = s.mem ∧
        ∀ l ∈ openLinks s D, linkState s l = 2 → rf t (aTenLinkStatus l) 63 60 =
          (if (wholeLanes s l).length < 8 then 7 else if (wholeLanes s l).length = 16 then 3 else 4)) ∧
    (step = 5 → ∃ t, exec (.dieAdmitted d true noTrain) s = .next t ∧ moved t 0 ∧ rf t (aTenDieStatus D) 59 56 = 0 ∧
      SaysAmong s t 0x3007 (0x6000 + D * 8 + 7) ∧
      (D < 8 → ∀ c < 64, chState s (D * 64 + c) = 4 → chState t (D * 64 + c) =
        if BitVec.ofNat 9 (D * 64 + c) ∈ noTrain then 2 else 0)))

/-- R294: what a re-admission write may not do: it is refused in any other STATE and while a step runs, and P0 refuses every
    write; one that leaves DRESET as it is does nothing. A step that fails takes the die back to RESET with DRESET 1 and 0x3_020. -/
def Obligations.Readmission : Prop :=
  ∀ (s : State) (d : BitVec 4) (noTrain : List (BitVec 9)) (bad : List BadWire), HostServed s → d.toNat < 12 →
    let D := d.toNat
    let st := rf s (aTenDieStatus D) 63 60
    let reset := rbit s (aTenDieCtrl D) 0
    let free := D ≠ 8 ∧ rbit s (aTenDieStatus D) 52 = false
    let step := tget 0 s.ten.step D
    let failed (t : State) : Prop := rf t (aTenDieStatus D) 63 60 = 2 ∧ rbit t (aTenDieCtrl D) 0 = true ∧
      rf t (aTenDieStatus D) 15 0 = 0x3020 ∧ rbit t (aTenDieStatus D) 52 = false ∧ Says s t 0x3020 (0x6000 + D * 8 + 7)
    Cases s
      [(.dresetSet .host d, free ∧ reset = true, fun t => Written s t []),
       (.dresetClear .host d, free ∧ reset = false, fun t => Written s t []),
       (.dresetSet .host d, ¬free ∨ (reset = false ∧ 1 < st), fun t => StepRefused s t D),
       (.dresetClear .host d, ¬free ∨ (reset = true ∧ st ≠ 2), fun t => StepRefused s t D),
       (.test .host d, ¬free ∨ st ≠ 3, fun t => StepRefused s t D),
       (.train .host d, ¬free ∨ st ≠ 4, fun t => StepRefused s t D),
       (.admitOp .host d, ¬free ∨ st ≠ 5, fun t => StepRefused s t D),
       (.dieBooted d false, step = 2, failed), (.dieTested d false bad, step = 3, failed), (.dieAdmitted d false noTrain, step = 5, failed),
       (.dieTrained d, step = 4 ∧ ∀ l ∈ openLinks s D, linkState s l = 2 → (wholeLanes s l).length < 8, failed)]

/-! ### The fabric (chapter 11) -/

/-- R300, R303, R310, R314, R319: what the router does with a packet that is not for this module. It leaves by the UP port of its
    entry's minimal set with most credit; without a route, past 127 hops or in transit in the switched configuration it is
    discarded with 0x4_013; a bad CRC, a malformed packet and a missing identity discard it too. A multicast packet leaves by
    each UP optical port of its group but the one it came by, and is dropped where the group is off. R304, R322, R324, R326,
    R327: a flow's next packet goes out with the next SEQ and is kept until a FACK covers it; a FACK carries EXP and the map; a
    packet whose GAPTO expires goes out again with its stamp, and after RETRY or more retransmissions its operation ends with
    0x4_022 and the flow is BROKEN; an issuer without any answer ends its operation too. The model's choices: FLOW of a FACK is
    the index of the receive context that sends it (log entry 34), its stamp is that of unit port 14 (log entry 106), and REMOTE
    follows the port of the operation's last packet (log entry 152). -/
def Obligations.RoutesAndFlows : Prop :=
  (∀ (s : State) (port : BitVec 4) (p : Packet) (o : Nat),
    let a := port.toNat
    let x := freeCells s p a
    let out : Packet := { p with w0 := leavingW0 s p a o }
    let mask := rf s (aFabMc (pkMgrp p)) 14 0
    Cases s
      [(.routerForward port p, TakenIn s a p ∧ pkMc p = false ∧ pkDst p ≠ moduleId s ∧ (a < 6 → rbit s aFabCfg 63 = true) ∧
            Chosen s p o ∧ PortFree s o out,
          fun t => t = { x with fab := t.fab, regs := t.regs } ∧ Leaves x t o out p a none),
       (.routerForward port p, TakenIn s a p ∧ pkMc p = false ∧ pkDst p ≠ moduleId s ∧ ((a < 6 ∧ rbit s aFabCfg 63 = false) ∨
            bit (regGet s (if pkEpoch p = true then aFabRouteB (pkDst p) else aFabRouteA (pkDst p))) 63 = false ∨ pkHops p = 127),
          fun t => t = { x with regs := t.regs, rep := t.rep, free := t.free } ∧ Dropped x t a 31 16 1 ∧ Says x t 0x4013 (0x4000 + a)),
       (.routerForward port p, s.fab.held.any (isLocal p) = false ∧ a < 15 ∧ (a < 6 → portUp s a = true) ∧ p.crcOk = false ∧ pkMc p = false,
          fun t => t = { s with regs := t.regs } ∧ Dropped s t a 63 32 1),
       (.routerForward port p, s.fab.held.any (isLocal p) = false ∧ a < 15 ∧ (a < 6 → portUp s a = true) ∧ p.crcOk = true ∧ pkMc p = false ∧
            idValid s = false, fun t => t = { x with regs := t.regs } ∧ Dropped x t a 31 16 1),
       (.routerForward port p, s.fab.held.any (isLocal p) = false ∧ a < 15 ∧ (a < 6 → portUp s a = true) ∧ p.crcOk = true ∧ pkMc p = false ∧
            idValid s = true ∧ (512 < pkLen p ∨ pkVc p / 2 ≠ pkCls p ∨ fld p.w0 10 7 ≠ 0),
          fun t => t = { x with rep := t.rep, free := t.free } ∧ Says x t 0x4014 (0x4000 + a)),
       (.multicastPacket port p, TakenIn s a p ∧ pkMc p = true ∧ bit (regGet s (aFabMc (pkMgrp p))) 63 = true ∧ mask = 2 ^ o ∧ o < 6 ∧
            o ≠ a ∧ portUp s o = true ∧ pkHops p ≠ 127 ∧ pkDet p = false ∧ PortFree s o out,
          fun t => t = { x with fab := t.fab, regs := t.regs } ∧ Leaves x t o out p a none),
       (.multicastPacket port p, TakenIn s a p ∧ pkMc p = true ∧ bit (regGet s (aFabMc (pkMgrp p))) 63 = true ∧ mask = 2 ^ o ∧ o < 6 ∧
            o ≠ a ∧ portUp s o = false, fun t => t = { x with regs := t.regs } ∧ Dropped x t o 15 0 1),
       (.multicastPacket port p, TakenIn s a p ∧ pkMc p = true ∧ bit (regGet s (aFabMc (pkMgrp p))) 63 = false ∧ mask = 2 ^ o ∧ o < 15 ∧
            o ≠ a, fun t => t = { x with regs := t.regs } ∧ Dropped x t o 15 0 1)]) ∧
  (∀ (s : State) (n seq : BitVec 16) (op : FOp) (u : Unacked) (opid opc port : Nat) (w3 : Word) (bs : List Byte) (e : At) (xid : Nat),
    let N := n.toNat
    let f := flowOf s N
    let a := entryPort op.owner
    let out (q : Packet) : Packet := { q with w0 := leavingW0 s q a port }
    let fresh (st : Word) := flowPacket s N f.nextSeq opid opc (op.sent + 1 = partsOf op.kind) st w3 bs
    let again := flowPacket s N seq.toNat opid opc (u.idx + 1 = partsOf u.kind) u.stamp w3 bs
    let sends (q : Packet) : Prop := flowPeer s N ≠ moduleId s ∧ Chosen s q port ∧ PortFree s port (out q)
    let fackMapOf := (List.range 256).foldl (fun m i => if (f.exp + i) % 65536 ∈ f.map then m + 2 ^ i else m) 0
    let fack (st : Word) : Packet :=
      { w0 := BitVec.ofNat 64 (flowPeer s N * 2 ^ 48 + moduleId s * 2 ^ 32 + 2 ^ 30 + 2 ^ 28 +
                (if rbit s aFabEpoch 63 = true then 2 ^ 26 else 0))
        w1 := BitVec.ofNat 64 (N * 2 ^ 48 + 32 * 2 ^ 22 + 0x15 * 2 ^ 16), w2 := st, w3 := BitVec.ofNat 64 f.exp
        payload := natLE 32 fackMapOf }
    let failed (w : Bool) (t : State) : Prop := (flowOf t N).ops = [] ∧ getEng t e = (getEng s e).heard xid 0x4022 (flowPeer s N, w) ∧
      OnlyEngine { s with fab := t.fab, regs := t.regs, rep := t.rep, free := t.free } t e
    Cases s
      [(.packetSend n, idValid s = true ∧ flowEn s N = true ∧ flowRecv s N = false ∧ inFlight f < flowWin s N ∧ f.ops = [op] ∧
            op.opid = some opid ∧ op.sent < partsOf op.kind ∧ Lives s op.owner ∧ CarriesPart s op.kind op.sent opc w3 bs ∧ Steady s op.owner op.kind op.sent bs ∧
            opid < 65536 ∧ f.nextSeq < 65536 ∧ (∀ v ∈ f.unacked, v.seq ≠ f.nextSeq) ∧ ∀ st, sends (fresh st),
          fun t => ∃ st, t = { s with fab := t.fab, regs := t.regs, free := t.free, rep := t.rep } ∧
            Leaves s t port (out (fresh st)) (fresh st) a (some (N, op.uid)) ∧ t.rep.raised = s.rep.raised ∧
            flowOf t N = { f with
              nextSeq := (f.nextSeq + 1) % 65536, ops := [{ op with sent := op.sent + 1, port := port }]
              unacked := f.unacked ++ [{ seq := f.nextSeq, uid := op.uid, idx := op.sent, opid := opid, kind := op.kind
                                         owner := op.owner, stamp := st, port := port }] } ∧
            ∀ m, m ≠ N → flowOf t m = flowOf s m),
       (.packetSend n, flowEn s N = false ∨ flowWin s N ≤ inFlight f ∨ idValid s = false, fun t => t = s),
       (.fackSend n, flowEn s N = true ∧ flowRecv s N = true ∧ f.ackDue = true ∧ idValid s = true ∧ port < 6 ∧
            flowPeer s N ≠ moduleId s ∧ ∀ st, Chosen s (fack st) port ∧ PortFree s port { fack st with w0 := leavingW0 s (fack st) 14 port },
          fun t => ∃ st, t = { s with fab := t.fab, regs := t.regs, free := t.free, rep := t.rep } ∧
            Leaves (setFlow s N { f with ackDue := false }) t port { fack st with w0 := leavingW0 s (fack st) 14 port } (fack st) 14 none ∧
            flowOf t N = { f with ackDue := false } ∧ t.rep.raised = s.rep.raised),
       (.fackSend n, f.ackDue = false, fun t => t = s),
       (.retransmit n seq, f.unacked = [u] ∧ u.seq = seq.toNat ∧ u.tries < rf s aFabTimer 1 0 ∧ idValid s = true ∧ Lives s u.owner ∧
            op.owner = u.owner ∧ portUp s u.port = false ∧ u.opid = opid ∧ opid < 65536 ∧ CarriesPart s u.kind u.idx opc w3 bs ∧
            Steady s u.owner u.kind u.idx bs ∧ sends again ∧
            f.ops = [],
          fun t => t = { s with fab := t.fab, regs := t.regs, free := t.free, rep := t.rep } ∧
            Leaves s t port (out again) again a (some (N, u.uid)) ∧ Says s t 0x4021 (0x4000 + u.port) ∧
            flowOf t N = { f with unacked := [{ u with tries := u.tries + 1, port := port }] }),
       (.retransmit n seq, f.unacked = [u] ∧ u.seq = seq.toNat ∧ rf s aFabTimer 1 0 ≤ u.tries ∧ portUp s u.port = false ∧ f.ops = [op] ∧
            op.uid = u.uid ∧ op.owner = .xfer e xid,
          fun t => failed (op.opid.isSome && portUp s op.port) t ∧ rbit t (aFabFlowCfg N) 59 = true ∧ OnlyRegs s t [aFabFlowCfg N] ∧ Says s t 0x4022 (0x4000 + u.port)),
       (.retransmit n seq, ∀ v ∈ f.unacked, v.seq ≠ seq.toNat, fun t => t = s),
       (.answerTimeout n seq, flowClass s N ≠ 1 ∧ f.ops = [op] ∧ op.opid = some seq.toNat ∧ op.owner = .xfer e xid ∧
            portUp s op.port = false,
          fun t => failed false t ∧ OnlyRegs s t [] ∧ Says s t 0x4022 (0x4000 + op.port)),
       (.answerTimeout n seq, ∀ o ∈ f.ops, o.opid ≠ some seq.toNat, fun t => t = s)])

/-- R305, R306, R323, R325, Table 11.2: what each operation does at its target as its packet is accepted: the bytes land, a slot
    counts data packets, and the answer opens in the RSP context toward the sender once LAST's COUNT has been reached. PKTS of the
    internal port through which a packet is delivered counts it (Table 11.12). Which packets an internal port counts so is the
    model's choice (log entry 51). -/
def Obligations.OperationsAtTarget : Prop :=
  ∀ (s : State) (port : BitVec 4) (p : Packet) (bs : List Byte) (tile : TileId) (o m : Nat) (v : Word),
    let y := accepted s port.toNat p
    let n := pkFlow p
    let x := rxSlot s n (pkOpid p)
    let a := fld p.w3 47 0
    let here := 6 + tile.toNat / 1024
    let store := 0x020000000000 + tile.toNat * 0x40000 + o
    let q := fld p.w3 15 0
    let slot := rf s (aFabMqRing q) 47 6 * 64 + rf s (aFabMqPtr q) 31 16 % 2 ^ rf s (aFabMqRing q) 51 48 * 576
    let count := (rf s (aFabMqPtr q) 31 16 + 65536 - rf s (aFabMqPtr q) 15 0) % 65536
    let lands (z : State) : Prop := MemBecomes y z store bs ∧ z = { y with mem := z.mem }
    let fits := p.payload = bs ∧ 0 < bs.length ∧ o + bs.length ≤ 0x40000 ∧ a = store ∧ Awake s tile.toNat
    let counted (z : State) : State := setRxSlot z n (pkOpid p) { x with count := x.count + 1 }
    let done := x.count % 2 ^ 20 = fld p.w3 63 44 ∧ x.status = 0
    Cases s
      [(.put port p, Accepts s port.toNat p 0x01 ∧ fits ∧ x.last = none, fun t => ∃ z, lands z ∧ t = countSent (counted z) here),
       (.getdata port p, Accepts s port.toNat p 0x11 ∧ fits ∧ x.last = none, fun t => ∃ z, lands z ∧ t = countSent (counted z) here),
       (.putend port p, Accepts s port.toNat p 0x02 ∧ x.count % 2 ^ 20 ≠ fld p.w3 63 44,
          fun t => t = setRxSlot y n (pkOpid p) { x with last := some (fld p.w3 63 44, p.w3) }),
       (.getend port p, Accepts s port.toNat p 0x12 ∧ x.count % 2 ^ 20 ≠ fld p.w3 63 44,
          fun t => t = setRxSlot y n (pkOpid p) { x with last := some (fld p.w3 63 44, p.w3) }),
       (.putend port p, Accepts s port.toNat p 0x02 ∧ done ∧ fld p.w3 26 19 = 0 ∧ Sends y (pkSrc p) 1 m,
          fun t => Opens (setRxSlot y n (pkOpid p) {}) t m (.opack (pkOpid p) 0) (.answer port.toNat)),
       (.putend port p, Accepts s port.toNat p 0x02 ∧ done ∧ 0 < fld p.w3 26 19 ∧ fld p.w3 43 31 = tile.toNat ∧ TakesTokens s tile.toNat ∧
            (getTile s tile.toNat).semVal (fld p.w3 30 27) + fld p.w3 26 19 ≤ 65535 ∧ Sends y (pkSrc p) 1 m,
          fun t => ∃ z, OnlyTile (setRxSlot y n (pkOpid p) {}) z tile.toNat ∧
            (∀ k, (getTile z tile.toNat).semVal k = (getTile s tile.toNat).semVal k + if k = fld p.w3 30 27 then fld p.w3 26 19 else 0) ∧
            Opens z t m (.opack (pkOpid p) 0) (.answer port.toNat)),
       (.get port p, Accepts s port.toNat p 0x03 ∧ a = store ∧ 0 < leNat ((p.payload.drop 8).take 4) ∧
            o + leNat ((p.payload.drop 8).take 4) ≤ 0x40000 ∧ Awake s tile.toNat ∧ Sends y (pkSrc p) 1 m,
          fun t => ∃ w, t = countSent w here ∧
            Opens y w m (.getData (leNat (p.payload.take 6)) (rdBytes s.mem store (leNat ((p.payload.drop 8).take 4))) (pkOpid p) 0)
              (.answer here)),
       (.ld port p, Accepts s port.toNat p 0x04 ∧ a = store ∧ o % 8 = 0 ∧ o < 0x40000 ∧ Awake s tile.toNat ∧ Sends y (pkSrc p) 1 m,
          fun t => ∃ w, t = countSent w here ∧ Opens y w m (.ldrsp (pkOpid p) 0 (BitVec.ofNat 64 (rdLE s.mem store 8))) (.answer here)),
       (.ld port p, Accepts s port.toNat p 0x04 ∧ areaOf a 8 = some .ctl ∧ a % 8 = 0 ∧ heldBack y (memSpan a 8) = false ∧
            ctlRead y (.remote (BitVec.ofNat 16 (pkSrc p)) port) a = (v, 0, y) ∧ Sends y (pkSrc p) 1 m,
          fun t => Opens y t m (.ldrsp (pkOpid p) 0 v) (.answer port.toNat)),
       (.st port p, Accepts s port.toNat p 0x05 ∧ fits ∧ bs.length = 8 ∧ o % 8 = 0 ∧ Sends y (pkSrc p) 1 m,
          fun t => ∃ z w, lands z ∧ t = countSent w here ∧ Opens z w m (.opack (pkOpid p) 0) (.answer here)),
       (.st port p, Accepts s port.toNat p 0x05 ∧ areaOf a 8 = some .ctl ∧ inWindow a 8 = false ∧ a % 8 = 0 ∧
            heldBack y (memSpan a 8) = false ∧ Sends y (pkSrc p) 1 m,
          fun t => Opens y t m (.opack (pkOpid p) 0x4024) (.answer port.toNat)),
       (.msgPacket port p, Accepts s port.toNat p 0x30 ∧ q < 256 ∧ rbit s (aFabMqRing q) 63 = true ∧ count ≠ 2 ^ rf s (aFabMqRing q) 51 48 ∧
            slot = store ∧ o + 576 ≤ 0x40000 ∧ p.payload.length ≤ 512 ∧ Awake s tile.toNat ∧ rf s (aFabMqNote q) 63 62 = 0 ∧
            Sends y (pkSrc p) 1 m,
          fun t => ∃ z w, t = countSent w here ∧ MemBecomes y z store (wordsLE [p.w0, p.w1, p.w2, p.w3] ++ p.payload ++ List.replicate (544 - p.payload.length) 0) ∧
            z = { y with mem := z.mem, regs := z.regs } ∧ OnlyRegs y z [aFabMqPtr q] ∧
            rf z (aFabMqPtr q) 31 16 = (rf s (aFabMqPtr q) 31 16 + 1) % 65536 ∧ rf z (aFabMqPtr q) 15 0 = rf s (aFabMqPtr q) 15 0 ∧
            Opens z w m (.opack (pkOpid p) 0) (.answer here)),
       (.msgPacket port p, Accepts s port.toNat p 0x30 ∧ q < 256 ∧ rbit s (aFabMqRing q) 63 = true ∧ count = 2 ^ rf s (aFabMqRing q) 51 48 ∧
            Sends y (pkSrc p) 1 m,
          fun t => Opens (rsetb y (aFabMqNote q) 0 true) t m (.opack (pkOpid p) 0x4023) (.answer port.toNat)),
       (.msgPacket port p, Accepts s port.toNat p 0x30 ∧ (255 < q ∨ rbit s (aFabMqRing q) 63 = false) ∧ Sends y (pkSrc p) 1 m,
          fun t => Opens y t m (.opack (pkOpid p) 0x4023) (.answer port.toNat)),
       (.colPacket port p, TakenIn s port.toNat p ∧ pkMc p = false ∧ pkDst p = moduleId s ∧ pkOpc p = 0x20,
          fun t => t = takeCol (freeCells s p port.toNat) p none)]

/-- R302, R321 to R325, Table 11.2: the issuer's side. MSG opens its operation with the transfer that waits for it; the bundle of an
    LDG or STG takes effect with its answer, and has none where that is an error, its WAIT's count given back; GETEND, OPACK and
    LDRSP end the operation that their OPID names; a FACK frees what it marks. A SEQ outside the window, or for no context, is
    discarded with 0x4_012. That an operation without a context starts and ends with that code, and that the bundle's WAIT gives its
    count back, are the model's choices (log entry 85). -/
def Obligations.OperationsAtIssuer : Prop :=
  (∀ (s : State) (port : BitVec 4) (p : Packet) (n : Nat) (o : FOp) (e : At) (xid : Nat) (xd xa xb : BitVec 5) (b : Bundle) (sem : BitVec 4)
      (k : BitVec 8),
    let a := port.toNat
    let y := accepted s a p
    let f := flowOf s n
    let x := rxSlot s (pkFlow p) (pkOpid p)
    let opid := fld p.w3 15 0
    let status := fld p.w3 31 16
    let named (cls : Nat) : Prop := sendFlow s (pkSrc p) cls = some n ∧ f.ops = [o] ∧ o.opid = some opid ∧ n ≠ pkFlow p
    let xferOf := o.owner = .xfer e xid
    let heard (t : State) : Prop := t = { y with fab := t.fab, tile := t.tile } ∧
      OnlyEngine { y with fab := t.fab } t e ∧
      ∃ w, getEng t e = (getEng s e).heard xid status w ∧ (status ≠ 0x4022 → w = (0, false))
    let waits (r : BitVec 5) (q : Bundle) : Prop := (getEng s e).answer = some (r, o.uid) ∧ (getEng s e).held = some q ∧
      (getEng s e).plan = none
    let goesOn (g : Engine) (t : State) : Prop := t = { y with fab := t.fab, tile := t.tile } ∧ Closes y t n ∧
      OnlyEngine { y with fab := t.fab } t e ∧
      getEng t e = { g.fall 2 with phase := .run, held := none, full := false, answer := none }
    let marked (u : Unacked) : Bool :=
      decide (1 ≤ (fld p.w3 15 0 + 65536 - u.seq) % 65536 ∧ (fld p.w3 15 0 + 65536 - u.seq) % 65536 ≤ 32768 ∨
        (u.seq + 65536 - fld p.w3 15 0) % 65536 < 256 ∧ (leNat (p.payload.take 32)).testBit ((u.seq + 65536 - fld p.w3 15 0) % 65536) = true)
    Cases s
      [(.getend port p, Accepts s a p 0x12 ∧ x.count % 2 ^ 20 = fld p.w3 63 44 ∧ x.status = 0 ∧ named 0 ∧ xferOf ∧
            (∃ src dst len, o.kind = .get src dst len),
          fun t => heard t ∧ Closes (setRxSlot y (pkFlow p) (pkOpid p) {}) t n),
       (.opack port p, Accepts s a p 0x13 ∧ named 0 ∧ xferOf ∧ (∃ t src dst len c m u, o.kind = .put t src dst len c m u) ∧
            openOp s (pkSrc p) 3 opid FKind.acked = none, fun t => heard t ∧ Closes y t n),
       (.opack port p, Accepts s a p 0x13 ∧ named 3 ∧ xferOf ∧ (∃ t src q len, o.kind = .msg t src q len) ∧
            openOp s (pkSrc p) 0 opid FKind.acked = none, fun t => heard t ∧ Closes y t n),
       (.ldrsp port p, Accepts s a p 0x14 ∧ named 0 ∧ o.owner = .scalar e ∧ (∃ c, o.kind = .ld c) ∧ status = 0 ∧
            waits xd { scl := some (.ldg xd xa) } ∧ (getEng s e).Falls 2,
          goesOn ((getEng s e).setX xd (BitVec.ofNat 64 (leNat (p.payload.take 8))))),
       (.opack port p, Accepts s a p 0x13 ∧ named 0 ∧ o.owner = .scalar e ∧ (∃ c v, o.kind = .st c v) ∧ status = 0 ∧
            openOp s (pkSrc p) 3 opid FKind.acked = none ∧ waits 0 { scl := some (.stg xa xb) } ∧ (getEng s e).Falls 2,
          goesOn (getEng s e)),
       (.ldrsp port p, Accepts s a p 0x14 ∧ named 0 ∧ o.owner = .scalar e ∧ (∃ c, o.kind = .ld c) ∧ status ≠ 0 ∧ status ≠ 0x4022 ∧
            waits xd b ∧ (b.ctl = none ∧ k = 0 ∨ b.ctl = some (.wait sem k)) ∧
            (getTile s e.tile.toNat).semVal sem.toNat + k.toNat ≤ 65535,
          fun t => Closes y t n ∧ (getEng t e).phase = .faulted ∧ (getEng t e).fault = BitVec.ofNat 16 status ∧
            (getTile t e.tile.toNat).semVal sem.toNat = (getTile s e.tile.toNat).semVal sem.toNat + k.toNat ∧
            Says s t status (0x8000 + e.eng.toNat * 0x2000 + e.tile.toNat)),
       (.fack port p, TakenIn s a p ∧ pkMc p = false ∧ pkDst p = moduleId s ∧ pkOpc p = 0x15 ∧ fackFlow s (pkSrc p) (pkFlow p) = some n ∧
            flowClass s n ≠ 1 ∧ (∀ q ∈ f.ops, q.opid ≠ none),
          fun t => t = setFlow (freeCells s p a) n { f with unacked := f.unacked.filter (fun u => !marked u) }),
       (.routerForward port p, TakenIn s a p ∧ pkMc p = false ∧ pkDst p = moduleId s ∧ pkOpc p ≠ 0x15 ∧ pkOpc p ≠ 0x20 ∧
            (flowEn s (pkFlow p) = false ∨ flowRecv s (pkFlow p) = false ∨ flowPeer s (pkFlow p) ≠ pkSrc p ∨ flowClass s (pkFlow p) ≠ pkCls p ∨
              (pkSeq p ∉ (flowOf s (pkFlow p)).map ∧ 256 ≤ (pkSeq p + 65536 - (flowOf s (pkFlow p)).exp) % 65536 ∧
                (pkSeq p + 65536 - (flowOf s (pkFlow p)).exp) % 65536 < 65280)),
          fun t => t = { freeCells s p a with rep := t.rep, free := t.free } ∧ Says s t 0x4012 (0x4000 + a))]) ∧
  (∀ (s : State) (t : TileId) (src : BitVec 8) (xa xn : BitVec 5) (sem : BitVec 4) (tcnt : BitVec 8) (n : Nat),
    let a : At := ⟨t, 3⟩
    let g := getEng s a
    let len := (g.xr xn).toNat
    let ad := operandAddr g src
    let joins (g' : Engine) (k : XKind) (left code : Nat) : Engine := { g' with
      nextX := g.nextX + 1
      xfers := g.xfers ++
        [{ id := g.nextX, kind := k, sem := sem, tcnt := tcnt, dirty := g.writing, left := left, code := BitVec.ofNat 16 code }] }
    Ready s a 3 → operandBad src = false → g.xfers.length < 64 → pairedEngine s a = none → len ≤ 512 →
    0 ≤ ad → ad < 0x40000 → ad + len ≤ 0x40000 → (g.used src).Falls 3 →
    (Sends s (fld (g.xr xa) 63 48) 3 n →
      ∃ u x, exec (.msg t src xa xn sem tcnt {}) s = .next u ∧
        Opens s x n (.msg t.toNat ad.toNat (fld (g.xr xa) 15 0) len) (.xfer a g.nextX) ∧
        Becomes { x with free := u.free } u a (joins ((g.used src).fall 3) .remote 1 0)) ∧
    (idValid s = true → sendFlow s (fld (g.xr xa) 63 48) 3 = none →
      ∃ u, exec (.msg t src xa xn sem tcnt {}) s = .next u ∧
        Becomes { s with free := u.free } u a (joins ((g.used src).fall 3) .failed 0 0x4011)))

/-- R316, R317, R320, R321, R328, R329, R333, R411: a port that goes DOWN loses what is on its fibre, and a queued packet
    without a candidate port ends its operation with 0x4_030; the fabric's registers take a write, or refuse it with the
    code of its rule; a requester that may not write them completes with error 0x9_023. -/
def Obligations.FabricRegisters : Prop :=
  (∀ (s : State) (port : BitVec 4) (h : RHeld) (n uid : Nat) (op : FOp) (e : At) (xid : Nat),
    let P := port.toNat
    let entry := regGet s (if pkEpoch h.orig = true then aFabRouteB (pkDst h.orig) else aFabRouteA (pkDst h.orig))
    let queued := s.fab.held.filter (fun x => x.port = P && x.last = 0)
    let gone (t : State) : Prop := t.fab.held = s.fab.held.filter (fun x => x.port ≠ P) ∧ rf t (aFabPortStatus P) 63 60 = 0
    Cases s
      [(.portDown port, P < 6 ∧ portUp s P = true ∧ queued = [],
          fun t => t = { s with fab := t.fab, regs := t.regs } ∧ gone t ∧ OnlyRegs s t [aFabPortStatus P] ∧
            t.fab = { s.fab with held := t.fab.held }),
       (.portDown port, P < 6 ∧ portUp s P = true ∧ queued = [h] ∧ pkMc h.orig = false ∧ h.own = some (n, uid) ∧ pkDst h.orig ≠ moduleId s ∧
            (h.from_ < 6 → rbit s aFabCfg 63 = true) ∧ bit entry 63 = true ∧ pkHops h.orig ≠ 127 ∧
            (∀ q < 6, q ≠ P → portUp s q = false) ∧ (flowOf s n).ops = [op] ∧ op.uid = uid ∧ op.owner = .xfer e xid,
          fun t => gone t ∧ Dropped { s with regs := (rset s (aFabPortStatus P) 63 60 0).regs } t h.from_ 31 16 1 ∧
            (flowOf t n).ops = [] ∧ getEng t e = (getEng s e).heard xid 0x4030 (0, false) ∧
            OnlyEngine { s with fab := t.fab, regs := t.regs } t e),
       (.portDown port, 6 ≤ P ∨ portUp s P = false, fun t => t = s)]) ∧
  (∀ (s : State) (r : Req) (v : Word) (d n : BitVec 16) (g : BitVec 12) (q : BitVec 8) (b inj : Bool) (op : FOp) (e : At) (xid : Nat),
    HostServed s →
    let N := n.toNat
    let f := flowOf s N
    let a := if b = true then aFabRouteB d.toNat else aFabRouteA d.toNat
    let live := b = rbit s aFabEpoch 63 ∨ ∃ h ∈ s.fab.held, pkEpoch h.pkt ≠ rbit s aFabEpoch 63
    let head := rf s (aFabMqPtr q.toNat) 15 0
    let fits := (fld v 15 0 + 65536 - head) % 65536 ≤ (rf s (aFabMqPtr q.toNat) 31 16 + 65536 - head) % 65536
    let flowOk := 1 ≤ fld v 56 48 ∧ fld v 56 48 ≤ 256 ∧ fld v 61 60 ≠ 2 ∧
      ∀ m < 65536, m ≠ N → flowEn s m = true → flowPeer s m = fld v 15 0 → flowClass s m = fld v 61 60 → flowRecv s m ≠ bit v 62
    let same := ∀ x ∈ [(63, 63), (47, 36), (15, 0)], fld v x.1 x.2 = rf s aFabCfg x.1 x.2
    let bell := ∃ i < 6, rbit s (aBelCtrl i) 63 = true
    let cleared (t : State) : Prop := rbit t (aFabFlowCfg N) 59 = false ∧ OnlyRegs s t [aFabFlowCfg N] ∧ t.reply.1 = 0 ∧
      flowOf t N = { f with nextSeq := 0, nextOpid := 0, exp := 0, map := [], unacked := [], slots := [], ackDue := false, ops := [] }
    Cases s
      [(.routeEntryWrite .host b d v, ¬live, fun t => Written s t [a] ∧ FieldsAre (regGet t a) v [(63, 63), (13, 8), (5, 0)]),
       (.routeEntryWrite .host b d v, live, fun t => Refused s t 0x4031 (openUnit 0x4031)),
       (.injWrite .host inj, True, fun t => Written s t [aFabEpoch] ∧ rbit t aFabEpoch 63 = inj ∧
          FieldsAre (regGet t aFabEpoch) (regGet s aFabEpoch) [(62, 0)]),
       (.multicastEntryWrite .host g v, bit v 63 = false ∨ fld v 14 0 ≠ 0, fun t => Written s t [aFabMc g.toNat] ∧
          FieldsAre (regGet t (aFabMc g.toNat)) v [(63, 63), (14, 0)]),
       (.multicastEntryWrite .host g v, bit v 63 = true ∧ fld v 14 0 = 0, fun t => Refused s t 0x4031 (openUnit 0x4031)),
       (.flowEnable .host n v, flowOk, fun t => Written s t [aFabFlowCfg N] ∧ flowEn t N = true ∧
          FieldsAre (regGet t (aFabFlowCfg N)) v [(62, 60), (56, 48), (31, 16), (15, 0)] ∧ flowBroken t N = flowBroken s N),
       (.flowEnable .host n v, fld v 56 48 = 0 ∨ 256 < fld v 56 48 ∨ fld v 61 60 = 2, fun t => Refused s t 0x4032 (openUnit 0x4032)),
       (.flowRst .host n, f.ops = [], fun t => t = { s with reply := t.reply, regs := t.regs, fab := t.fab } ∧ cleared t),
       (.flowRst .host n, f.ops = [op] ∧ op.opid ≠ none ∧ op.owner = .xfer e xid,
          fun t => cleared t ∧ getEng t e = (getEng s e).heard xid 0x4022 (flowPeer s N, portUp s op.port) ∧
            OnlyEngine { s with reply := t.reply, regs := t.regs, fab := t.fab } t e),
       (.mqHeadWrite .host q v, fits, fun t => Written s t [aFabMqPtr q.toNat] ∧ rf t (aFabMqPtr q.toNat) 15 0 = fld v 15 0 ∧
          rf t (aFabMqPtr q.toNat) 31 16 = rf s (aFabMqPtr q.toNat) 31 16),
       (.mqHeadWrite (.engine e) q v, fits, fun t => Written s t [aFabMqPtr q.toNat] ∧ rf t (aFabMqPtr q.toNat) 15 0 = fld v 15 0),
       (.mqHeadWrite .host q v, ¬fits, fun t => Refused s t 0x4032 (openUnit 0x4032)),
       (.fabCfgWrite .host v, same ∨ ¬bell, fun t => Written s t [aFabCfg] ∧
          FieldsAre (regGet t aFabCfg) v [(63, 62), (55, 50), (47, 36), (15, 0)]),
       (.fabCfgWrite .host v, ¬same ∧ bell, fun t => Refused s t 0xA030 1)] ∧
    (isHost r = false → ∀ c ∈ [Instr.routeEntryWrite r b d v, .injWrite r inj, .multicastEntryWrite r g v, .flowEnable r n v,
        .flowRst r n, .fabCfgWrite r v], ∃ t, exec c s = .next t ∧ Refused s t 0x9023 0))

/-! ### Bells (chapter 12) -/

/-- R337, R339, R351, R352, R359, Tables 12.6 and 12.15: laser ports, and how a link leaves OFF, trains, meets its peer and fails. -/
def Obligations.BellTraining : Prop :=
  ∀ (s : State) (b : BitVec 3) (v : Word) (p : BitVec 2) (w : BitVec 3) (uw : List Nat) (m : Stat), b.toNat < 7 → HostServed s →
    (∀ d ∈ [8, 9, 10, 11], dieIsolated s d = false) →
    let B := b.toNat
    let P := p.toNat
    let unit := 0x5000 + B
    let st := belState s B
    let x := getBell s B
    let off := ∀ i < 7, belState s i = 0
    let unlit := ∀ i < 7, ∀ l ∈ lanesOf i, txState s i l ≠ 5
    let lost := tget 0 s.lpLost P
    let seen := ((List.range 8).filter (fun i => decide (25119 ≤ uw.getD i 0) && !lost.testBit i)).foldl (fun k i => k + 2 ^ i) 0
    let was := rf s (aBelLp P) 47 40
    let gone := was &&& (255 ^^^ seen)
    let high := ∃ u ∈ uw, 100000 < u
    let measured (t : State) : Prop := rf t (aBelLp P) 47 40 = seen ∧
      rf t (aBelLp P) 15 0 = Nat.min 65535 (uw.foldl (· + ·) 0 / 10) ∧
      (high → rf t (aBelLp P) 63 60 = 3) ∧ (¬high → rf t (aBelLp P) 63 60 = if seen = 0 then 0 else if seen = 255 then 2 else 1) ∧
      tget 0 t.lpLost P = lost ||| ((List.range 8).filter (fun i => decide (uw.getD i 0 < 25119))).foldl (fun k i => k + 2 ^ i) 0
    let mayEnable := 6 ≤ B ∨ (rbit s (aBelPeer B) 63 = true ∧ idValid s = true)
    let met := if B = 6 then m.port = 6 else m.modId.toNat = rf s (aBelPeer B) 15 0 ∧ m.port.toNat = rf s (aBelPeer B) 50 48
    let heard : State := setBell s B { getBell s B with rxok := m.rxok, steq := m.steq, peer := m.state.toNat }
    let observed (t : State) : Prop := rf t (aBelStatus B) 31 16 = m.modId.toNat ∧ rf t (aBelStatus B) 50 48 = m.port.toNat % 8 ∧
      rf t (aBelStatus B) 47 40 = m.arith.toNat
    let plain := m.arith.toNat = rf s aParamId 31 24 ∧ m.dis = 0
    let ready := (lanesOf B).filter (laneMeets heard B)
    Cases s
      [(.laserMeasurement p uw, off ∧ unlit ∧ gone = 0 ∧ ¬high, fun t => t = { s with regs := t.regs, lpLost := t.lpLost } ∧
          OnlyRegs s t [aBelLp P] ∧ measured t),
       (.laserMeasurement p uw, off ∧ unlit ∧ gone ≠ 0 ∧ ¬high ∧ rbit s aMgtSite (56 + P) = true,
          fun t => t = { s with regs := t.regs, lpLost := t.lpLost, rep := t.rep, free := t.free } ∧ OnlyRegs s t [aBelLp P] ∧
            measured t ∧ Says s t 0x5001 0),
       (.laserMeasurement p uw, off ∧ unlit ∧ gone = 0 ∧ high ∧ rf s (aBelLp P) 63 60 ≠ 3 ∧
            rbit s aMgtSite (56 + P) = true,
          fun t => t = { s with regs := t.regs, lpLost := t.lpLost, rep := t.rep, free := t.free } ∧ OnlyRegs s t [aBelLp P] ∧
            measured t ∧ Says s t 0x5003 0),
       (.laserMeasurement p uw, off, fun t => measured t ∧ ∀ i < 7, ∀ l ∈ lanesOf i, l / 8 = P →
            (seen &&& (255 ^^^ was)).testBit (l % 8) = true → txState s i l = 5 → txState t i l = 1),
       (.laserMeasurement p uw, st = 5 ∧ B < 6 ∧ (∀ i < 7, i ≠ B → belState s i = 0) ∧ rf s (aBelLanes B) 63 32 = 2 ^ 32 - 1 ∧
            rf s (aBelStatus B) 59 54 = 32 ∧ rf s (aBelCtrl B) 31 0 = 0,
          fun t => measured t ∧ ∀ l < 32, l / 8 = P → gone.testBit (l % 8) = true →
            inServ t B l = false ∧ txState t B l = 5 ∧ (getBell t B).left.getLsbD l = true),
       (.laserLineReturn p w, off ∧ lost.testBit w.toNat = true ∧ rbit s aMgtSite (56 + P) = true ∧
            ∀ i < 7, txState s i (P * 8 + w.toNat) ≠ 5,
          fun t => t = { s with regs := t.regs, lpLost := t.lpLost, rep := t.rep, free := t.free } ∧ OnlyRegs s t [aBelLp P] ∧
            rf t (aBelLp P) 47 40 = was ||| 2 ^ w.toNat ∧ Says s t 0x5002 0 ∧ (tget 0 t.lpLost P).testBit w.toNat = false),
       (.laserLineReturn p w, lost.testBit w.toNat = false, fun t => t = s),
       (.bellEnable .host b v, ¬mayEnable, fun t => Refused s t 0x5040 unit),
       (.bellEnable .host b v, mayEnable ∧ belEn s B = false ∧ st ≠ 5,
          fun t => t = { s with reply := t.reply, regs := t.regs, bell := t.bell } ∧ t.reply.1 = 0 ∧ Trains s t B x ∧ belEn t B = true ∧
            rf t (aBelCtrl B) 31 0 = fld v 31 0 ∧ OnlyRegs s t (aBelCtrl B :: bellRegs B)),
       (.bellRetrain .host b, mayEnable ∧ belEn s B = true ∧ st ≠ 5,
          fun t => t = { s with reply := t.reply, regs := t.regs, bell := t.bell } ∧ t.reply.1 = 0 ∧ Trains s t B x ∧
            OnlyRegs s t (bellRegs B)),
       (.bellRetrain .host b, mayEnable ∧ belEn s B = true ∧ st = 5 ∧ B < 6 ∧ portUp s B = true,
          fun t => Trains s t B x ∧ portUp t B = false),
       (.bellDisable .host b v, belEn s B = true ∧ st ≠ 5,
          fun t => t = { s with reply := t.reply, regs := t.regs, bell := t.bell } ∧ t.reply.1 = 0 ∧ belState t B = 0 ∧ belEn t B = false ∧
            Dark t B (fun _ => 0) ∧ rf t (aBelLanes B) 63 32 = 0 ∧ rf t (aBelLanes B) 31 0 = rf s (aBelLanes B) 31 0 ∧
            rf t (aBelStatus B) 59 54 = 0 ∧ getBell t B = { left := x.left, causes := x.causes, los := x.los, out := x.out } ∧
            OnlyRegs s t (aBelCtrl B :: bellRegs B)),
       (.bellDisable .host b v, belEn s B = true ∧ st = 5 ∧ B < 6 ∧ portUp s B = true,
          fun t => belState t B = 0 ∧ Dark t B (fun _ => 0) ∧ portUp t B = false),
       (.trainingTimeout b, 1 ≤ st ∧ st ≤ 4, fun t => t = { s with regs := t.regs, rep := t.rep, free := t.free } ∧
          OnlyRegs s t [aBelStatus B] ∧ belState t B = 7 ∧ Says s t 0x5013 unit),
       (.trainingTimeout b, st = 0 ∨ 4 < st, fun t => t = s),
       (.failedRetry b, st = 7, fun t => t = { s with regs := t.regs, bell := t.bell } ∧ Trains s t B x ∧ OnlyRegs s t (bellRegs B)),
       (.failedRetry b, st ≠ 7, fun t => t = s),
       (.stat b m, st = 0 ∨ st = 6 ∨ st = 7, fun t => t = s),
       (.stat b m, st = 4 ∧ plain ∧ ¬met, fun t => ∃ z, z = { heard with regs := z.regs, rep := z.rep, free := z.free } ∧
          OnlyRegs s z [aBelStatus B] ∧ belState z B = 6 ∧ rbit z (aBelStatus B) 53 = true ∧ observed z ∧ Spoke z t B ∧ Says s t 0x5020 unit),
       (.stat b m, st = 4 ∧ plain ∧ met ∧ minLanes B ≤ canServe s B ∧ (getBell s B).matched + 1 < 16,
          fun t => ∃ z, z = { s with regs := z.regs, bell := z.bell } ∧ OnlyRegs s z [aBelStatus B] ∧ belState z B = 4 ∧ observed z ∧
            getBell z B = { getBell heard B with matched := (getBell s B).matched + 1 } ∧ (∀ c, c ≠ B → getBell z c = getBell s c) ∧
            Spoke z t B),
       (.stat b m, st = 4 ∧ plain ∧ met ∧ minLanes B ≤ canServe s B ∧ (getBell s B).matched = 15 ∧ B < 6 ∧
            minLanes B ≤ ready.length ∧ rf s (aBelLanes B) 63 32 = 0,
          fun t => t = { s with regs := t.regs, bell := t.bell, rep := t.rep, free := t.free, fab := t.fab } ∧ belState t B = 5 ∧
            portUp t B = true ∧ Says s t 0x5010 unit ∧ rf t (aBelStatus B) 59 54 = ready.length ∧
            OnlyRegs s t [aBelStatus B, aBelLanes B, aFabPortStatus B] ∧ (∀ l < 32, inServ t B l = true ↔ l ∈ ready) ∧
            ∀ vc < 8, freeCredit t B vc = 4096)]

/-- R343, R345 to R350, R352, R353, R355 to R357: the lock loop, rings that lock and step, lanes that leave service, and what a lane block and a CREDIT
    message bring. -/
def Obligations.BellLanes : Prop :=
  ∀ (s : State) (b : BitVec 3) (l : BitVec 5) (h : BitVec 10) (ix : Option (BitVec 3)) (row : BitVec 2) (c : LeaveCause) (e : BitVec 5)
    (ds : List Int) (cs : List (BitVec 32)) (k : LaneBlock) (m : List Byte), b.toNat < 7 →
    let B := b.toNat
    let L := l.toNat
    let unit := 0x5000 + B
    let st := belState s B
    let x := getBell s B
    let T := aBelRingT B L
    let R := aBelRingR B L
    let lane := L ∈ lanesOf B
    let bitL : BitVec 32 := BitVec.ofNat 32 (2 ^ L)
    let locked : State := rset (rset s T 63 60 2) T 57 48 h.toNat
    let failed : State := rset s T 57 48 1023
    let ended : State := setBell (rset (rset s T 63 60 (if laneLit s L = true then 2 else 5)) T 57 48 h.toNat) B
      { x with txFail := x.txFail &&& ~~~bitL }
    let found : State := setBell (rset (rset (rset (rsetb s R 20 true) R 23 21 (L % 8)) R 57 48 h.toNat) R 63 60 2) B
      { x with rxFail := x.rxFail &&& ~~~bitL }
    let missed : State := rset (match ix with | some i => rset (rsetb s R 20 true) R 23 21 i.toNat | none => rsetb s R 20 false) R 57 48 1023
    let lost : State := setBell missed B
      { x with rxFail := x.rxFail ||| bitL, relocks := tset 0 x.relocks L (tget 0 x.relocks L + 1) }
    let turn := ∀ i ∈ lanesOf B, i / 8 = L / 8 → i < L → txState s B i ≠ 1 ∨ x.txFail.getLsbD i = true
    let rturn := ∀ i ∈ lanesOf B, i / 8 = L / 8 → i < L → rxState s B i ≠ 1 ∨ x.rxFail.getLsbD i = true
    let idle (i : Nat) : Prop := x.steq.getLsbD i = false ∨ laneDisabled s B i = true
    let right := if rbit s (aBelLockmap B) L = true then rf s T 57 48 ≤ h.toNat else h.toNat ≤ rf s T 57 48
    let away : Bell := { x with left := x.left ||| bitL, causes := x.causes ||| BitVec.ofNat 5 (2 ^ causeBit c) }
    let stepped := L ∈ lanesOf B ∧ L / 8 = row.toNat ∧ x.steq.getLsbD L = true ∧ laneDisabled s B L = false ∧
      (∀ i ∈ lanesOf B, i / 8 = row.toNat → i < L → idle i) ∧
      (txState s B L = 2 ∨ txState s B L = 5 ∨ (txState s B L = 1 ∧ x.txFail.getLsbD L = true)) ∧
      (∀ i ∈ lanesOf B, i / 8 = row.toNat → txState s B i ≠ 3) ∧ st ≠ 0
    let rings := (lanesOf B).map (fun i => (i, ds.getD i 0)) ++ (lanesOf B).map (fun i => (32 + i, ds.getD (32 + i) 0))
    let leaves (t : State) : Prop := inServ t B L = false ∧ txState t B L = (if laneLit s L = true then 1 else 5) ∧ rxState t B L = 1 ∧
      (getBell t B).left = x.left ||| bitL
    let bad := wrongWords k 16
    let corrected (t : State) : Prop := t = { s with regs := t.regs, bell := t.bell } ∧ OnlyRegs s t [aBelFec B] ∧
      rf t (aBelFec B) 63 32 = Nat.min (2 ^ 32 - 1) (rf s (aBelFec B) 63 32 + (wrongWords k 1 - bad)) ∧
      rf t (aBelFec B) 31 0 = Nat.min (2 ^ 32 - 1) (rf s (aBelFec B) 31 0 + bad)
    let bytes := (k.cells.getD 0 []).take 36
    let freed (vc : Nat) : Nat := tget 0 s.fab.sent (B * 8 + vc) -
      (tget 0 s.fab.sent (B * 8 + vc) + 2 ^ 32 - (cs.getD vc 0).toNat) % 2 ^ 32
    Cases s
      [(.lockIteration b ds, st = 0, fun t => t = s),
       (.lockIteration b ds, st ≠ 0 ∧ Rests s B ∧ ∀ r < 64, tget 0 x.pinned r < 9, fun t =>
          t = { s with regs := t.regs, bell := t.bell } ∧
          (∀ r ∈ rings, (ringHeat t B r.1 : Int) =
            if rf s (ringAddr B r.1) 63 60 = 2 then iclamp 0 1023 (ringHeat s B r.1 + iclamp (-4) 4 r.2) else ringHeat s B r.1) ∧
          (B < 6 → ∀ m < 8, ∀ i < 8, (rf t (ringAddr B (m * 8 + i)) 9 0 : Int) = iclamp 0 1023 (((List.range 8).foldl
            (fun (a : Int) j => a + xtEntry s B m i j * (ringHeat t B (m * 8 + j) : Int)) 0 + 8192) / 16384)) ∧
          (∀ r < 64, ∀ f ∈ [(63, 58), (47, 10)], rf t (ringAddr B r) f.1 f.2 = rf s (ringAddr B r) f.1 f.2) ∧
          OnlyRegs s t ((List.range 64).map (ringAddr B))),
       (.txRingLock b l h true, lane ∧ txState s B L = 1 ∧ x.txFail.getLsbD L = false ∧ turn ∧ Rests locked B, fun t => Spoke locked t B),
       (.txRingLock b l h false, lane ∧ txState s B L = 1 ∧ x.txFail.getLsbD L = false ∧ turn ∧ st ≠ 5 ∧
            Rests (setBell failed B { x with txFail := x.txFail ||| bitL }) B,
          fun t => Spoke (setBell failed B { x with txFail := x.txFail ||| bitL }) t B),
       (.txRingLock b l h false, lane ∧ txState s B L = 1 ∧ x.txFail.getLsbD L = false ∧ turn ∧ st = 5 ∧ tget 0 x.relocks L = 2 ∧
            laneDisabled s B L = false ∧ inServ s B L = false ∧ Rests s B,
          fun t => laneDisabled t B L = true ∧ txState t B L = 4 ∧ rxState t B L = 4 ∧ Says s t 0x5012 unit),
       (.txRingLock b l h true, ¬lane ∨ txState s B L ≠ 1, fun t => t = s),
       (.rxRingScan b l h true ix, lane ∧ rxState s B L = 1 ∧ 3 ≤ st ∧ rturn ∧ Rests found B, fun t => Spoke found t B),
       (.rxRingScan b l h false ix, lane ∧ rxState s B L = 1 ∧ 3 ≤ st ∧ st ≠ 5 ∧ rturn ∧
            Rests (setBell missed B { x with rxFail := x.rxFail ||| bitL }) B,
          fun t => Spoke (setBell missed B { x with rxFail := x.rxFail ||| bitL }) t B),
       (.rxRingScan b l h false ix, lane ∧ rxState s B L = 1 ∧ st = 5 ∧ rturn ∧ tget 0 x.relocks L ≠ 2 ∧ Rests lost B,
          fun t => Spoke lost t B),
       (.rxRingScan b l h true ix, ¬lane ∨ rxState s B L ≠ 1 ∨ st < 3 ∨ ¬rturn, fun t => t = s),
       (.ringStep b row, stepped, fun t => t = { s with regs := t.regs } ∧ OnlyRegs s t [T] ∧ txState t B L = 3 ∧
          rf t T 59 58 = Nat.min 3 (rf s T 59 58 + 1) ∧ FieldsAre (regGet t T) (regGet s T) [(57, 0)]),
       (.ringStep b row, ∀ i ∈ lanesOf B, i / 8 = row.toNat → idle i, fun t => t = s),
       (.ringStepComplete b l h true, lane ∧ txState s B L = 3 ∧ right ∧ Rests ended B, fun t => Spoke ended t B),
       (.ringStepComplete b l h false, lane ∧ txState s B L = 3 ∧ right ∧ rf s T 59 58 < 3 ∧ Rests ended B, fun t => Spoke ended t B),
       (.ringStepComplete b l h false, lane ∧ txState s B L = 3 ∧ right ∧ rf s T 59 58 = 3 ∧ laneDisabled s B L = false ∧ st = 7,
          fun t => laneDisabled t B L = true ∧ txState t B L = 4 ∧ rxState t B L = 4 ∧ Says s t 0x5012 unit),
       (.ringStepComplete b l h true, txState s B L ≠ 3 ∨ ¬right, fun t => t = s),
       (.laneLeavesService b l c, lane ∧ st = 5 ∧ inServ s B L = true ∧ c ≠ .rxlos ∧ minLanes B < popcount 32 (rf s (aBelLanes B) 63 32),
          fun t => t = { s with regs := t.regs, bell := t.bell } ∧ leaves t ∧ belState t B = 5 ∧
            rf t (aBelStatus B) 59 54 + 1 = popcount 32 (rf s (aBelLanes B) 63 32) ∧ OnlyRegs s t [aBelLanes B, aBelStatus B, T, R]),
       (.laneLeavesService b l c, lane ∧ st = 5 ∧ inServ s B L = true ∧ c ≠ .rxlos ∧ B < 6 ∧ portUp s B = true ∧
            popcount 32 (rf s (aBelLanes B) 63 32) = 24,
          fun t => Trains s t B away ∧ portUp t B = false ∧ SaysAmong s t 0x5013 unit),
       (.laneLeavesService b l c, c ≠ .rxlos ∧ (st ≠ 5 ∨ inServ s B L = false), fun t => t = s),
       (.laneLeavesService b l .rxlos, lane ∧ st ≠ 0 ∧ (st ≠ 5 ∨ inServ s B L = false) ∧ x.los.getLsbD L = false ∧
            (∀ i ∈ lanesOf B, i / 8 = L / 8 → i ≠ L → x.los.getLsbD i = true),
          fun t => t = { s with bell := t.bell, rep := t.rep, free := t.free } ∧ getBell t B = { x with los := x.los ||| bitL } ∧
            Says s t 0x5014 unit),
       (.laneServiceSample b, x.left ≠ 0, fun t => t = { s with bell := t.bell, rep := t.rep, free := t.free } ∧
          getBell t B = { x with left := 0, causes := 0 } ∧ Says s t 0x5011 unit),
       (.laneServiceSample b, x.left = 0, fun t => t = s),
       (.eyehUpdate b l e, lane, fun t => t = { s with regs := t.regs, bell := t.bell } ∧ OnlyRegs s t [R] ∧ rf t R 47 43 = e.toNat ∧
          FieldsAre (regGet t R) (regGet s R) [(63, 48), (42, 0)]),
       (.laneBlock b l k, lane ∧ st ≠ 0 ∧ tget 0 x.fecWin L + bad ≤ 16 ∧ k.mode ≠ 1 ∧ k.ctl = [], corrected),
       (.laneBlock b l { k with ctl := [m] }, lane ∧ st ≠ 0 ∧ bad = 0 ∧ tget 0 x.fecWin L ≤ 16 ∧ k.mode ≠ 1 ∧ m.head? = some 1,
          fun t => ∃ z, corrected z ∧ exec (.stat b (statOf m)) z = .next t),
       (.laneBlock b l k, lane ∧ st = 5 ∧ B < 6 ∧ bad = 0 ∧ tget 0 x.fecWin L ≤ 16 ∧ k.mode = 1 ∧ k.ctl = [] ∧ k.start = 1 ∧ k.valid = 1 ∧
            (k.cells.getD 0 []).length = 64 ∧ fld (wordAt (k.cells.getD 0 []) 8) 31 22 = 0 ∧ tget [] x.part L = [],
          fun t => ∃ z, corrected z ∧ t = takeIn z (packetOf bytes) B),
       (.credit b cs, B < 6 ∧ portUp s B = true ∧ cs.length = 8 ∧ ∀ y ∈ s.fab.held, y.port = B → y.last ≠ 0,
          fun t => t = { s with fab := { s.fab with freed := t.fab.freed, held := t.fab.held } } ∧
            (∀ vc < 8, tget 0 t.fab.freed (B * 8 + vc) = freed vc) ∧
            t.fab.held = s.fab.held.filter (fun y => !(decide (y.port = B ∧ y.last ≤ freed (pkVc y.pkt))))),
       (.credit b cs, 6 ≤ B ∨ portUp s B = false, fun t => t = s)]

/-! ### The host link and its DMA queues (chapter 14) -/

/-- R398 to R402, Table 14.2: frames from the host. One in order is performed once, and CWR, CRD and PUSH are answered with their
    status and TAG; one out of order or with a bad CRC is NAKed; a LACK frees the frames it covers, a NAK replays. The model's
    choices: surplus HDATA is dropped (log entry 74), 0x3_010 stands beside status 6 in PSTAT (log entry 100), a PUSH at no window
    brings its code there (log entry 84), and a request waits behind one that a retraining channel or a stopped cluster holds back
    (log entries 15, 20). -/
def Obligations.HostFrames : Prop :=
  ∀ (s z : State) (f : Frame) (bs : List Byte) (tile : TileId) (o : Nat) (v : Word) (c q st : Nat) (w : Win) (h : Hrd) (r1 r2 : List Frame)
    (b : Frame) (n : Nat),
    let x := inOrder s
    let a := f.w1.toNat
    let tag := frTag f
    let store := 0x020000000000 + tile.toNat * 0x40000 + o
    let atStore := a = store ∧ o + 8 ≤ 0x40000 ∧ Awake s tile.toNat ∧ rf s aVrxState 63 60 ≠ 1
    let few := unanswered s < 64 ∧ asksWait s = false
    let atOnce := heldBack x (memSpan a 8) = false
    let waits (t : State) : Prop := ∃ sp, t.waits = s.waits ++ [⟨sp, .frame f⟩] ∧
      t = { x with waits := t.waits, cluster := t.cluster, tile := t.tile }
    let lands (n : Nat) (y : State) : Prop := MemBecomes x y n bs ∧ y = { x with mem := y.mem }
    let noWindow := if (areaOf a 32).isNone then 0x2001 else 0x20F0
    let locked := rf s aVrxState 63 60 = 1 ∧ recoverySpace a = false
    let dq := getDq s q
    let off := fld f.w1 47 0
    let freed := s.hl.replay = r1 ++ b :: r2 ∧ (∀ g ∈ r1, (frAck f + 65536 - frSeq g) % 65536 < 32768) ∧
      32768 ≤ (frAck f + 65536 - frSeq b) % 65536
    let replays (t : State) : Prop := t = { s with regs := t.regs, hl := { s.hl with
        tries := s.hl.tries + 1, wire := (s.hl.replay.map frWire).reverse ++ s.hl.wire, laneQ := t.hl.laneQ } } ∧
      OnlyRegs s t [aHlStatus] ∧ rf t aHlStatus 31 16 = Nat.min 65535 (rf s aHlStatus 31 16 + 1) ∧
      FieldsAre (regGet t aHlStatus) (regGet s aHlStatus) [(63, 32), (15, 0)]
    Cases s
      [(.cwr f, InOrder s f 8 ∧ few ∧ atStore ∧ f.body = bs ∧ bs.length = 8,
          fun t => ∃ y, lands store y ∧ Owes y t 0xA 0 tag 0 []),
       (.cwr f, InOrder s f 8 ∧ few ∧ rf s aVrxState 63 60 ≠ 1 ∧ areaOf a 8 = some .ctl ∧ atOnce ∧
            ctlWrite x .host a (BitVec.ofNat 64 (leNat (f.body.take 8))) = (c, z) ∧ hlState z ≠ 0 ∧
            (∀ k < 64, a = aHbmRgnCtrl k → isClosing z k = false ∨ isClosing x k = true),
          fun t => Owes z t 0xA 0 tag (BitVec.ofNat 64 c) []),
       (.cwr f, InOrder s f 8 ∧ few ∧ atOnce ∧ rf s aVrxState 63 60 ≠ 1 ∧ a = aHbmRgnCtrl n ∧ n < 64 ∧
            ctlWrite x .host a (BitVec.ofNat 64 (leNat (f.body.take 8))) = (c, z) ∧ hlState z ≠ 0 ∧ isClosing z n = true ∧
            isClosing x n = false,
          fun t => ∃ g, Owes { z with hl := { z.hl with closes := z.hl.closes ++ [(g, n)] } } t 0xA 0 tag (BitVec.ofNat 64 c) [] ∧
            t.hl.answers = z.hl.answers ++ [g]),
       (.cwr f, InOrder s f 8 ∧ few ∧ locked ∧ atOnce, fun t => ∃ y, y = { x with rep := y.rep, free := y.free } ∧ Says x y 0x9005 0x21 ∧
          Owes y t 0xA 0 tag 0x9005 []),
       (.crd f, InOrder s f 9 ∧ few ∧ atStore, fun t => Owes x t 0xB 8 tag 0 (rdBytes s.mem store 8)),
       (.crd f, InOrder s f 9 ∧ few ∧ rf s aVrxState 63 60 ≠ 1 ∧ areaOf a 8 = some .ctl ∧ atOnce ∧ ctlRead x .host a = (v, c, z) ∧ hlState z ≠ 0,
          fun t => Owes z t 0xB 8 tag (BitVec.ofNat 64 c) (wordLE (if c = 0 then v else 0))),
       (.push f, InOrder s f 0xC ∧ few ∧ rf s aVrxState 63 60 ≠ 1 ∧ winAt a = some (w, 0) ∧ hlState z ≠ 0 ∧
            winPush x w (wordAt f.body 0) (wordAt f.body 8) (wordAt f.body 16) (wordAt f.body 24) none = (st, z) ∧ st < 16,
          fun t => Owes z t 0xD 0 tag (BitVec.ofNat 64 ((if st = 6 then 0x3010 * 65536 else 0) + st)) []),
       (.push f, InOrder s f 0xC ∧ few ∧ rf s aVrxState 63 60 ≠ 1 ∧ (∀ w, winAt a ≠ some (w, 0)),
          fun t => ∃ y, y = { x with rep := y.rep, free := y.free } ∧ Says x y noWindow 0 ∧
            Owes y t 0xD 0 tag (BitVec.ofNat 64 (noWindow * 65536)) []),
       (.cwr f, InOrder s f 8 ∧ unanswered s < 64 ∧ asksWait s = true, waits),
       (.crd f, InOrder s f 9 ∧ unanswered s < 64 ∧ asksWait s = true, waits),
       (.push f, InOrder s f 0xC ∧ unanswered s < 64 ∧ asksWait s = true, waits),
       (.dbell f, InOrder s f 0x10 ∧ asksWait s = true, waits),
       (.push f, InOrder s f 0xC ∧ 64 ≤ unanswered s, fun t => t = { x with rep := t.rep, free := t.free } ∧ Says x t 0xA004 1),
       (.cwr f, InOrder s f 8 ∧ 64 ≤ unanswered s, fun t => t = { x with rep := t.rep, free := t.free } ∧ Says x t 0xA004 1),
       (.crd f, InOrder s f 9 ∧ 64 ≤ unanswered s, fun t => t = { x with rep := t.rep, free := t.free } ∧ Says x t 0xA004 1),
       (.dbell f, InOrder s f 0x10 ∧ asksWait s = false ∧ HostServed s ∧ fld f.w1 3 0 = q,
          fun t => ∃ u, exec (.dqTailWrite .host (BitVec.ofNat 4 q) (BitVec.ofNat 64 (leNat (f.body.take 2)))) x = .next u ∧
            t = { u with reply := s.reply }),
       (.hdata f, InOrder s f 0x1A ∧ tag / 4096 = q ∧ dq.hrds = [h] ∧ h.tag = tag ∧ fld f.w1 63 48 = 0 ∧ f.body = bs ∧ 0 < bs.length ∧
            off + bs.length ≤ h.len ∧ h.addr + off = store ∧ o + bs.length ≤ 0x40000 ∧ Awake s tile.toNat ∧ dqState s q = 1 ∧ dq.cur ≠ none,
          fun t => ∃ y, lands store y ∧ t = { y with hl := t.hl } ∧
            OnlyDq y t q { dq with hrds := if h.got + bs.length < h.len then [{ h with got := h.got + bs.length }] else [] }),
       (.hdata f, InOrder s f 0x1A ∧ tag / 4096 = q ∧ dq.hrds = [h] ∧ h.tag = tag ∧ fld f.w1 63 48 ≠ 0 ∧ dqState s q = 1,
          fun t => DmaFaults (setDq x q { dq with hrds := [] }) t q 0xA010 (curTag s q)),
       (.hdata f, InOrder s f 0x1A ∧ tag / 4096 = q ∧ dq.hrds = [] ∧ dq.dfs = [(tag, [])] ∧ fld f.w1 63 48 = 0 ∧ off = 0 ∧
            f.body.length = 32 ∧ dqState s q = 1,
          fun t => t = { x with hl := t.hl } ∧ OnlyDq x t q { dq with dfs := [], fetched := dq.fetched ++
            [[wordAt f.body 0, wordAt f.body 8, wordAt f.body 16, wordAt f.body 24]] }),
       (.hdata f, InOrder s f 0x1A ∧ tag / 4096 = q ∧ dq.hrds = [] ∧ dq.dfs = [], fun t => t = x),
       (.fab f, InOrder s f 0x28, fun t => t = takeIn x (packetOf f.body) 14),
       (.nop f, hlUpNow s = true ∧ f.crcOk = true ∧ frTT f = 0 ∧ freed ∧ r1 ≠ [] ∧ s.hl.wait = [] ∧ DmaQuiet s,
          fun t => t = { s with hl := { s.hl with replay := b :: r2, tries := 0 } }),
       (.nop f, hlUpNow s = true ∧ f.crcOk = true ∧ frTT f = 0 ∧ s.hl.replay = [], fun t => t = s),
       (.nak f, hlUpNow s = true ∧ f.crcOk = true ∧ frTT f = 1 ∧ freed ∧ r1 = [] ∧ s.hl.tries < 15, replays),
       (.nak f, hlUpNow s = true ∧ f.crcOk = true ∧ frTT f = 1 ∧ freed ∧ r1 = [] ∧ s.hl.tries = 15,
          fun t => SaysAmong s t 0xA002 1 ∧ t.hl.replay = s.hl.replay ∧ t.hl.tries = 0 ∧ Trains s t 6 (getBell s 6)),
       (.linkReplayTimeout, hlUpNow s = true ∧ s.hl.replay ≠ [] ∧ s.hl.tries < 15, replays),
       (.linkReplayTimeout, hlUpNow s = false ∨ s.hl.replay = [], fun t => t = s),
       (.cwr f, frTT f = 8 ∧ hlUpNow s = true ∧ (f.crcOk = false ∨ frSeq f ≠ s.hl.expect), fun t => SentUnseq s t 1),
       (.crd f, frTT f = 9 ∧ hlUpNow s = true ∧ (f.crcOk = false ∨ frSeq f ≠ s.hl.expect), fun t => SentUnseq s t 1),
       (.push f, frTT f = 0xC ∧ hlUpNow s = true ∧ (f.crcOk = false ∨ frSeq f ≠ s.hl.expect), fun t => SentUnseq s t 1),
       (.hdata f, frTT f = 0x1A ∧ hlUpNow s = true ∧ (f.crcOk = false ∨ frSeq f ≠ s.hl.expect), fun t => SentUnseq s t 1),
       (.hdata f, ttReserved (frTT f) = true ∧ InOrder s f (frTT f), fun t => t = { x with rep := t.rep, free := t.free } ∧
          Says x t 0xA004 1),
       (.cwr f, hlUpNow s = false, fun t => t = s),
       (.nopTimer, hlUpNow s = true, fun t => SentUnseq s t 0), (.nopTimer, hlUpNow s = false, fun t => t = s),
       (.cack, LinkFree s ∧ s.hl.answers = b :: r2 ∧ b = mkFrame 0xA 0 c v [] ∧ c < 65536 ∧ FreeToGo s b,
          fun t => Sent (answerGone s b r2) t 0xA 0 c v []),
       (.crsp, LinkFree s ∧ s.hl.answers = b :: r2 ∧ b = mkFrame 0xB 8 c v bs ∧ c < 65536 ∧ FreeToGo s b,
          fun t => Sent (answerGone s b r2) t 0xB 8 c v bs),
       (.pstat, LinkFree s ∧ s.hl.answers = b :: r2 ∧ b = mkFrame 0xD 0 c v [] ∧ c < 65536 ∧ FreeToGo s b,
          fun t => Sent (answerGone s b r2) t 0xD 0 c v []),
       (.cack, s.hl.answers = b :: r2 ∧ ¬FreeToGo s b, fun t => t = s),
       (.cack, s.hl.answers = [], fun t => t = s), (.crsp, s.hl.answers = [], fun t => t = s), (.pstat, s.hl.answers = [], fun t => t = s),
       (.hostLinkHoldTimeout, hlState s = 1 ∧ DmaQuiet s, fun t =>
          t = { s with
              regs := t.regs, hl := t.hl, rep := t.rep, free := t.free, mgt := t.mgt
              waits := s.waits.filter (fun w => !w.work.isFrame) } ∧ hlState t = 0 ∧
          OnlyRegs s t [aHlStatus] ∧ t.hl.replay = [] ∧ t.hl.wait = [] ∧ t.hl.answers = [] ∧ t.hl.closes = [] ∧ Says s t 0xA003 1),
       (.hostLinkHoldTimeout, hlState s = 1 ∧ q < 16 ∧ dqState s q = 1, fun t => hlState t = 0 ∧ dqState t q = 2 ∧
          rf t (aHlDqCtrl q) 47 32 = 0xA003 ∧ SaysAmong s t 0xA003 (0x10 + q)),
       (.hostLinkHoldTimeout, hlState s ≠ 1, fun t => t = s)]

/-- R403, R404, R406 to R408, R416, R419, R420, R449: DMA queues fetch descriptors, move bytes in pieces and end them with their
    NOTE; events go to the host in order, or are kept, and a fault goes to the management port too; an ABORT leaves its queue
    ABORTING; HEAD and TAIL writes take effect only where the rules say. The model's choices: HEAD advances as the DFETCH is sent
    and HRD pieces are of at most 512 B (log entry 74); a queue with nothing outstanding too stays ABORTING to the end of the
    reference cycle (log entry 36). -/
def Obligations.DmaAndEvents : Prop :=
  ∀ (s : State) (qq : BitVec 4) (v : Word) (d : List Word) (ds : List (List Word)) (tile : TileId) (o : Nat) (r : Rec) (rs : List Rec)
    (e : At), HostServed s →
    let q := qq.toNat
    let x := getDq s q
    let run := dqState s q = 1
    let slots := if 4 ≤ rf s (aHlDqRing q) 55 52 ∧ rf s (aHlDqRing q) 55 52 ≤ 12 then 2 ^ rf s (aHlDqRing q) 55 52 else 0
    let new := fld v 15 0
    let tailOk := dqState s q ≠ 2 ∧ dqState s q ≠ 3 ∧ slots ≠ 0 ∧ (new + 65536 - dqHead s q) % 65536 ≤ slots ∧
      (new + 65536 - dqTail s q) % 65536 ≤ slots
    let posted := run ∧ dqHead s q ≠ dqTail s q ∧ slots ≠ 0
    let ring := rf s (aHlDqRing q) 51 0 + dqHead s q % slots * 32
    let tag := q * 4096 + x.reqs % 4096
    let store := 0x020000000000 + tile.toNat * 0x40000 + o
    let n := Nat.min 512 (dLen d - x.pos)
    let piece := run ∧ x.cur = some d ∧ 0 < n ∧ s.hl.turn = q ∧ s.hl.spent < 4096 ∧ LinkFree s
    let spent : State := { s with hl := { s.hl with spent := s.hl.spent + n } }
    let ok (op : Nat) : Prop := descInvalid d = false ∧ dOp d = op ∧ rf s aVrxState 63 60 ≠ 1
    let starts (t : State) : Prop := t = { s with hl := t.hl } ∧ OnlyDq s t q { x with fetched := ds, cur := some d, pos := 0 }
    let ended := run ∧ x.cur = some d ∧ x.pos = dLen d ∧ x.hrds = [] ∧ hwrOut s q = false ∧ (dqHead s q ≠ dqTail s q ∨ x.fetched ≠ [])
    let ready := hlUpNow s = true ∧ (evtTail s + 65536 - evtHead s) % 65536 < ringSlots (rf s aHlEvtRing 55 52)
    let record (y t : State) : Prop := ∃ u, Sent y u 0x20 64 0 0 (recBytes r) ∧
      t = { u with regs := t.regs, rep := { u.rep with sent := r :: u.rep.sent } } ∧ OnlyRegs s t [aHlEvtPtr] ∧
      evtTail t = (evtTail s + 1) % 65536 ∧ evtHead t = evtHead s
    let headOk := (new + 65536 - evtHead s) % 65536 ≤ (evtTail s + 65536 - evtHead s) % 65536
    Cases s
      [(.dqTailWrite .host qq v, tailOk, fun t => Written s t [aHlDqPtr q, aHlDqCtrl q] ∧ dqTail t q = new ∧ dqHead t q = dqHead s q ∧
          dqState t q = (if dqState s q = 0 ∧ dqHead s q ≠ new then 1 else dqState s q)),
       (.dqTailWrite .host qq v, ¬tailOk, fun t => Refused s t 0xA012 (0x10 + q)),
       (.dqTailWrite (.engine e) qq v, True, fun t => Refused s t 0x9026 1),
       (.dqAbort .host qq, True, fun t => t = { s with reply := t.reply, regs := t.regs, hl := t.hl } ∧ t.reply.1 = 0 ∧
          OnlyDq s t q { x with fetched := [], cur := none } ∧ dqState t q = 3 ∧ dqHead t q = dqTail s q ∧ dqTail t q = dqTail s q ∧
          OnlyRegs s t [aHlDqPtr q, aHlDqCtrl q]),
       (.dfetch qq, posted ∧ rbit s (aHlDqRing q) 63 = false ∧ LinkFree s,
          fun t => ∃ y, y = { s with regs := y.regs, hl := y.hl } ∧ OnlyDq s y q { x with dfs := x.dfs ++ [(tag, [])], reqs := x.reqs + 1 } ∧
            OnlyRegs s y [aHlDqPtr q] ∧ dqHead y q = (dqHead s q + 1) % 65536 ∧ dqTail y q = dqTail s q ∧
            Sent y t 0x18 32 tag (BitVec.ofNat 64 ring) []),
       (.dfetch qq, ¬posted ∨ rbit s (aHlDqRing q) 63 = true, fun t => t = s),
       (.h2m qq, run ∧ x.cur = none ∧ x.fetched = d :: ds ∧ ok 1, starts), (.m2h qq, run ∧ x.cur = none ∧ x.fetched = d :: ds ∧ ok 2, starts),
       (.h2m qq, run ∧ x.cur = none ∧ x.fetched = d :: ds ∧ descInvalid d = true,
          fun t => DmaFaults s t q 0xA011 (fld (d.getD 0 0) 15 0)),
       (.h2m qq, posted ∧ rbit s (aHlDqRing q) 63 = true ∧ x.cur = none ∧ x.fetched = [] ∧ x.dfs = [] ∧ ring = store ∧ o + 32 ≤ 0x40000 ∧
            Awake s tile.toNat ∧ d.length = 4 ∧ rdBytes s.mem store 32 = d.flatMap wordLE ∧ ok 1,
          fun t => t = { s with regs := t.regs, hl := t.hl } ∧ OnlyDq s t q { x with cur := some d, pos := 0 } ∧ OnlyRegs s t [aHlDqPtr q] ∧
            dqHead t q = (dqHead s q + 1) % 65536 ∧ dqTail t q = dqTail s q),
       (.h2m qq, ¬run ∨ x.cur ≠ none, fun t => t = s), (.m2h qq, ¬run ∨ x.cur ≠ none, fun t => t = s),
       (.hrd qq, piece ∧ dOp d = 1 ∧ hrdBytes s + n ≤ 131072,
          fun t => ∃ y, y = { spent with hl := y.hl } ∧ OnlyDq spent y q { x with
              pos := x.pos + n, reqs := x.reqs + 1, hrds := x.hrds ++ [{ tag := tag, addr := dMaddr d + x.pos, len := n }] } ∧
            Sent y t 0x19 n tag (dHaddr d + BitVec.ofNat 64 x.pos) []),
       (.hrd qq, x.cur = none, fun t => t = s),
       (.hwr qq, piece ∧ dOp d = 2 ∧ dMaddr d + x.pos = store ∧ o + n ≤ 0x40000 ∧ Awake s tile.toNat,
          fun t => ∃ y, y = { spent with hl := y.hl } ∧ OnlyDq spent y q { x with pos := x.pos + n, reqs := x.reqs + 1 } ∧
            Sent y t 0x1B n tag (dHaddr d + BitVec.ofNat 64 x.pos) (rdBytes s.mem store n)),
       (.hwr qq, x.cur = none, fun t => t = s),
       (.dmaDescriptorComplete qq, ended ∧ dNote d = 0, fun t => t = { s with hl := t.hl } ∧ OnlyDq s t q { x with cur := none }),
       (.dmaDescriptorComplete qq, ended ∧ dNote d = 1, fun t => ∃ y, t = { s with hl := t.hl, rep := t.rep, free := t.free } ∧
          OnlyDq s t q { x with cur := none } ∧ t.rep.raised = s.rep.raised ++ [y] ∧ y.unit = 0x10 + q ∧ y.tag = fld (d.getD 0 0) 15 0),
       (.dmaDescriptorComplete qq, ended ∧ dNote d = 2 ∧ fld (d.getD 0 0) 57 45 = tile.toNat ∧ TakesTokens s tile.toNat ∧
            (getTile s tile.toNat).semVal (fld (d.getD 0 0) 44 41) + fld (d.getD 0 0) 40 33 ≤ 65535,
          fun t => t = { s with hl := t.hl, tile := t.tile } ∧ OnlyDq s t q { x with cur := none } ∧
            OnlyTile { s with hl := t.hl } t tile.toNat ∧ ∀ k, (getTile t tile.toNat).semVal k = (getTile s tile.toNat).semVal k +
              if k = fld (d.getD 0 0) 44 41 then fld (d.getD 0 0) 40 33 else 0),
       (.dmaDescriptorComplete qq, ¬run ∨ x.cur = none ∨ x.hrds ≠ [] ∨ hwrOut s q = true, fun t => t = s),
       (.event, ready ∧ LinkFree s ∧ rf s aHlStatus 15 0 = 0 ∧ s.rep.kept = r :: rs, record { s with rep := { s.rep with kept := rs } }),
       (.event, ready ∧ LinkFree s ∧ rf s aHlStatus 15 0 = 0 ∧ s.rep.kept = [] ∧ s.rep.raised = r :: rs ∧ r.fault = false ∧ r.code ≠ 0x8041,
          record { s with rep := { s.rep with raised := rs } }),
       (.event, ready ∧ LinkFree s ∧ rf s aHlStatus 15 0 = 0 ∧ s.rep.kept = [] ∧ s.rep.raised = r :: rs ∧ (r.fault = true ∨ r.code = 0x8041),
          fun t => ∃ m, t.mgt.sent = m :: s.mgt.sent ∧ m.type = 2 ∧ m.dest = mgtDest s ∧ m.port = 24880 ∧ m.body = recBytes r ∧
            t.rep.raised = rs ∧ t.rep.sent = r :: s.rep.sent ∧ evtTail t = (evtTail s + 1) % 65536),
       (.event, ready ∧ rf s aHlStatus 15 0 = 0 ∧ s.rep.kept = [] ∧ s.rep.raised = [], fun t => t = s),
       (.event, hlUpNow s = true ∧ ¬ready ∧ s.rep.raised = r :: rs ∧ r.fault = false ∧ r.code ≠ 0x8041 ∧ s.rep.kept.length < 256,
          fun t => t = { s with rep := { s.rep with raised := rs, kept := s.rep.kept ++ [r] } }),
       (.event, hlUpNow s = true ∧ ¬ready ∧ s.rep.raised = r :: rs ∧ r.fault = false ∧ r.code ≠ 0x8041 ∧ s.rep.kept.length = 256 ∧
            (r.remote = true ∨ ∀ k ∈ s.rep.kept, k.remote = false),
          fun t => t = { s with regs := t.regs, rep := { s.rep with raised := rs } } ∧ OnlyRegs s t [aHlStatus] ∧
            rf t aHlStatus 15 0 = Nat.min 65535 (rf s aHlStatus 15 0 + 1)),
       (.eventHeadWrite .host v, headOk, fun t => Written s t [aHlEvtPtr] ∧ evtHead t = new ∧ evtTail t = evtTail s),
       (.eventHeadWrite .host v, ¬headOk, fun t => Refused s t 0xA012 1)]

/-! ### The Chanter (chapter 13) -/

/-- R368, R370, R377 to R381, R391: a lane's head starts its collective. In a group of this module alone it moves its bytes at once
    and is released; a member other than the coordinator sends it its CHK record; an invalid command fails with 0x6_002. The model's
    choices: the places of the staging area and the body of CHK (log entry 37), and the sequence number that an invalid command
    takes (log entry 99). -/
def Obligations.CollectivesStart : Prop :=
  ∀ (s : State) (lane : BitVec 2) (e : ChEntry) (rest : List ChEntry) (op : Nat) (u v w : TileId) (i o k b : Nat),
    let l := lane.toNat
    let g := e.group
    let served := dieIsolated s (8 + l) = false ∧ domOn s (96 + 4 * l + 1) = true
    let stage := 0x020000000000 + w.toNat * 0x40000 + k
    let n := e.count * typeSize e.ty
    let inn := 0x020000000000 + u.toNat * 0x40000 + i
    let out := 0x020000000000 + v.toNat * 0x40000 + o
    let row (op : Nat) : Instr := [Instr.allreduce lane, .reduceScatter lane, .allgather lane, .broadcast lane, .reduce lane, .alltoall lane,
      .barrier lane, .reshard lane].getD (op - 1) (.barrier lane)
    let valid := fld e.w0 32 16 = 0 ∧ fld e.w2 63 61 = 0 ∧ fld e.w3 7 0 = 0
    let moves := CanCollect s l e rest ∧ e.op = op ∧ valid ∧ Alone s g ∧ e.inA = inn ∧ e.outA = out ∧ i + n ≤ 0x40000 ∧ o + n ≤ 0x40000 ∧
      0 < n ∧ Awake s u.toNat ∧ Awake s v.toNat
    let ended (t : State) : Prop := ∃ c, Collects s t l e rest c ∧ c.rel = true ∧ c.complete = true ∧ c.me = 0
    let rsd (k : Nat) : Word := regGet s (aChnRsd e.rsd k)
    let D (d : Nat) : Nat := fld (rsd 0) (63 - 16 * d) (48 - 16 * d)
    let S (d : Nat) : Nat := fld (rsd (3 + d / 2)) (63 - 32 * (d % 2)) (32 - 32 * (d % 2))
    let T (d : Nat) : Nat := fld (rsd (5 + d / 2)) (63 - 32 * (d % 2)) (32 - 32 * (d % 2))
    let es := typeSize e.ty
    let plain := rsd 1 = 0x0101010101010101 ∧ rsd 2 = 0x1B1B000000000000 ∧ rsd 7 = 0
    let ok (t : State) : Prop := t.rep.raised = s.rep.raised
    Cases s
      [(row op, 3 ≤ op ∧ op ≤ 6 ∧ op ≠ 5 ∧ moves ∧ e.ty ≤ 6 ∧ (e.outt = 0 ∨ e.ty = 6) ∧ e.root = 0,
          fun t => ended t ∧ MemBecomes s t out (rdBytes s.mem inn n)),
       (row op, (op = 1 ∨ op = 2 ∨ op = 5) ∧ moves ∧ e.ty = 5 ∧ e.rop < 3 ∧ e.outt = 0 ∧ e.root = 0 ∧
            n ≤ ctrlChunk (regGet s (aChnGrpCtrl g)) ∧ slotFor s g (grpNext s g) = some b ∧
            stageAt s g b 1 0 (regGet s (aChnGrpCtrl g)) = stage ∧
            k + n ≤ 0x40000 ∧ Awake s w.toNat,
          fun t => ended t ∧ Staged s t out (rdBytes s.mem inn n) stage (rdBytes s.mem inn n)),
       (.barrier lane, CanCollect s l e rest ∧ e.op = 7 ∧ valid ∧ Alone s g ∧ e.inA = 0,
          fun t => ∃ c, Collects s t l e rest c ∧ c.rel = true ∧ c.complete = true ∧ t.mem = s.mem ∧
            regGet t (aChnLaneBar l) = BitVec.ofNat 64 (g * 2 ^ 56 + grpNext s g * 2 ^ 40) ∧ fld (regGet t (aChnLaneLate l)) 15 0 = 0),
       (.reshard lane, CanCollect s l e rest ∧ e.op = 8 ∧ valid ∧ Alone s g ∧ e.ty ≤ 6 ∧ (e.outt = 0 ∨ e.ty = 6) ∧ e.inA = inn ∧ e.outA = out ∧
            fld e.w3 63 36 = 0 ∧ plain ∧ D 2 = 1 ∧ D 3 = 1 ∧ 0 < D 0 ∧ 0 < D 1 ∧ S 0 < 2 ^ 31 ∧ S 1 < 2 ^ 31 ∧ T 0 < 2 ^ 31 ∧ T 1 < 2 ^ 31 ∧
            i + (D 0 - 1) * S 0 + (D 1 - 1) * S 1 + es ≤ 0x40000 ∧ o + (D 0 - 1) * T 0 + (D 1 - 1) * T 1 + es ≤ 0x40000 ∧
            (∀ a < D 0, ∀ b < D 1, ∀ c < D 0, ∀ d < D 1, (a, b) ≠ (c, d) →
              a * T 0 + b * T 1 + es ≤ c * T 0 + d * T 1 ∨ c * T 0 + d * T 1 + es ≤ a * T 0 + b * T 1) ∧ Awake s u.toNat ∧ Awake s v.toNat,
          fun t => ∃ c, Collects s t l e rest c ∧ c.rel = true ∧ c.complete = true ∧
            ∀ a < D 0, ∀ b < D 1, rdBytes t.mem (out + a * T 0 + b * T 1) es = rdBytes s.mem (inn + a * S 0 + b * S 1) es),
       (.barrier lane, CanCollect s l e rest ∧ e.op = 7 ∧ valid ∧ (rankIn (axesOf s g (regGet s (aChnGrpCtrl g))) 0).getD 0 ≠ 0 ∧ e.inA = 0,
          fun t => ∃ c z st, Collects s z l e rest c ∧ c.rel = false ∧ t = inject z (lanePacket s c ((groupMods s g
              (regGet s (aChnGrpCtrl g))).getD 0 0) 0 0 0 st (wordLE (BitVec.ofNat 64 (fld e.w0 63 43 * 2 ^ 43)) ++ natLE 8 e.count ++
                natLE 8 e.root ++ natLE 8 0)) 14 none),
       (row op, CanCollect s l e rest ∧ e.op = op ∧ 1 ≤ op ∧ op ≤ 8 ∧ fld e.w0 32 16 ≠ 0, fun t => SaysAmong s t 0x6002 (0x3000 + l) ∧
          rf t (aChnLaneStatus l) 35 20 = 0x6002 ∧ collOf t g (grpNext s g) = none ∧ getLane t l = { getLane s l with queue := rest } ∧
          grpNext t g = (grpNext s g + 1) % 65536 ∧ grpOutst t g = grpOutst s g),
       (row op, 1 ≤ op ∧ op ≤ 8 ∧ (getLane s l).queue = e :: rest ∧ e.op = op ∧ served ∧ (8 ≤ grpOutst s g ∨ 16 ≤ laneInflight s l) ∧ e.waitCnt = 0,
          fun t => t = { s with chn := t.chn } ∧ t.chn.colls = s.chn.colls ∧ ∃ got,
            getLane t l = { getLane s l with queue := { e with got := got } :: rest }),
       (row op, 1 ≤ op ∧ op ≤ 8 ∧ (getLane s l).queue = e :: rest ∧ e.op = op ∧ served ∧ e.waitCnt = 0 ∧
            heldBack s ((newColl s l e (grpNext s g)).spans s) = true,
          fun t => t = { s with chn := t.chn, tile := t.tile, cluster := t.cluster } ∧ t.chn.colls = s.chn.colls ∧ ∃ got,
            getLane t l = { getLane s l with queue := { e with got := got } :: rest }),
       (row op, 1 ≤ op ∧ op ≤ 8 ∧ (getLane s l).queue = e :: rest ∧ e.op = op ∧ entryTiles s e = [u.toNat] ∧ e.got = [] ∧
            (getTile s u.toNat).semVal e.waitSem < e.waitCnt,
          fun t => t.tile = s.tile ∧ t.regs = s.regs ∧ t.chn.colls = s.chn.colls ∧ getLane t l = getLane s l ∧ ok t),
       (row op, 1 ≤ op ∧ op ≤ 8 ∧ ((getLane s l).queue = [] ∨ ((getLane s l).queue = e :: rest ∧ (e.op ≠ op ∨ ¬served))), fun t => t = s)]

/-- R375, R377, R381, R383 to R389: what each kind of COL packet does to a collective in flight. The model's choices: the bodies of
    REL and RESEND, the layout of DATA1 and the staging slots (log entry 37). -/
def Obligations.CollectivePackets : Prop :=
  ∀ (s : State) (port : BitVec 4) (p : Packet) (c : Coll) (bs own : List Byte) (tile u : TileId) (o k b : Nat),
    let x := freeCells s p port.toNat
    let src := pkRank p
    let a := pkAddr p
    let store := 0x020000000000 + tile.toNat * 0x40000 + o
    let fits := p.payload = bs ∧ 0 < bs.length ∧ o + bs.length ≤ 0x40000 ∧ a = store ∧ Awake s tile.toNat
    let counts (kind : Nat) (c : Coll) : Coll :=
      { c with segs := tset [] c.segs (kind * 65536 + src) (tget [] c.segs (kind * 65536 + src) ++ [⟨a, bs⟩]) }
    let current (kind : Nat) : Prop := pkAttempt p = tget 0 c.att (kind * 65536 + src)
    let record : ChkRec := ⟨src, p.w2, pkSrc p * 65536, p.payload⟩
    let known := c.grp = pkGroup p ∧ c.seq = pkSeq p
    let out := c.cmd.outA
    let n := c.cmd.count / 2 + c.cmd.count % 2
    let stage (m : Nat) : Nat := stageAt s c.grp b 2 m c.ctrl
    let val (bs : List Byte) (k : Nat) : Nat := leNat ((bs.drop (4 * k)).take 4)
    let sum (k : Nat) : Nat :=
      if c.cmd.ty = 5 then (val own k + val bs k) % 2 ^ 32
      else (convOut 15 (.num (rnd fp32 (fadd (decodeFloat fp32 (val own k)) (decodeFloat fp32 (val bs k)))))).1
    let G := pkGroup p
    let w := regGet s (aChnGrpCtrl G)
    let kinds := [Instr.chk port p, .rel port p, .data1 port p, .cred port p, .data2 port p, .resend port p, .fail port p, .xdata port p]
    let taken := TakenIn s port.toNat p ∧ pkMc p = false ∧ pkDst p = moduleId s ∧ pkOpc p = 0x20
    Cases s
      [(.chk port p, Collected s port.toNat p 0 c ∧ known ∧ c.me = 0 ∧ (∀ r ∈ c.chks, r.rank ≠ src) ∧ p.payload = c.chkBytes ∧
            c.chks.length + 1 < c.nmod, fun t => t = { x with chn := t.chn } ∧ CollBecomes x t c { c with chks := c.chks ++ [record] }),
       (.chk port p, Collected s port.toNat p 0 c ∧ known ∧ c.me = 0 ∧ (∀ r ∈ c.chks, r.rank ≠ src) ∧ p.payload ≠ c.chkBytes,
          fun t => CollFails s t c 0x6010),
       (.chk port p, Collected s port.toNat p 0 c ∧ known ∧ c.me = 0 ∧ (∀ r ∈ c.chks, r.rank ≠ src) ∧ p.payload = c.chkBytes ∧
            c.chks.length + 1 = c.nmod ∧ c.cmd.op = 7 ∧ c.cmd.inA = 0 ∧ c.late = 0,
          fun t => collOf t c.grp c.seq = some { c with chks := c.chks ++ [record], rel := true } ∧ t.mem = s.mem ∧
            fld (regGet t (aChnLaneBar c.lane)) 55 40 = c.seq % 65536),
       (.rel port p, Collected s port.toNat p 1 c ∧ known ∧ c.empty = false,
          fun t => t = { x with chn := t.chn } ∧ CollBecomes x t c { c with rel := true }),
       (.rel port p, Collected s port.toNat p 1 c ∧ known ∧ c.empty = true ∧ c.grp < 256 ∧ c.seq < 65536,
          fun t => t = { x with chn := t.chn, regs := t.regs } ∧ CollBecomes x t c { c with rel := true } ∧
            OnlyRegs s t [aChnLaneBar c.lane, aChnLaneLate c.lane] ∧ regGet t (aChnLaneLate c.lane) = wordAt p.payload 16 ∧
            fld (regGet t (aChnLaneBar c.lane)) 63 56 = c.grp ∧ fld (regGet t (aChnLaneBar c.lane)) 55 40 = c.seq ∧
            fld (regGet t (aChnLaneBar c.lane)) 39 24 = fld (wordAt p.payload 8) 15 0),
       (.data1 port p, Collected s port.toNat p 2 c ∧ known ∧ src = 1 ∧ current 2 ∧ a = 0 ∧ p.payload = bs ∧ c.cmd.op = 2 ∧ c.me = 0 ∧
            c.mods.length = 2 ∧ ctrlLocv c.ctrl = false ∧ (c.cmd.ty = 5 ∨ c.cmd.ty = 0) ∧ c.cmd.rop = 0 ∧ 0 < c.cmd.count ∧
            4 * n ≤ ctrlChunk c.ctrl ∧ c.used = 0 ∧ (∀ d < 2, tget 0 c.sent d = 1) ∧ tget [] c.segs (2 * 65536) = [⟨0, own⟩] ∧
            tget [] c.segs (2 * 65536 + 1) = [] ∧ own.length = 4 * n ∧ bs.length = 4 * n ∧ out = store ∧ o + 4 * n ≤ 0x40000 ∧
            Awake s tile.toNat ∧ c.mods.getD 1 0 ≠ moduleId s ∧ twf [] c.segs = true ∧ stageSlot s c.grp c.seq = some b ∧ stage 0 = 0x020000000000 + u.toNat * 0x40000 + k ∧
            k + 4 * ctrlChunk c.ctrl ≤ 0x40000 ∧ Awake s u.toNat ∧ rdBytes s.mem (stage 0) (4 * n) = own,
          fun t => Staged s t store ((List.range n).flatMap (fun k => natLE 4 (sum k))) (stage 1) bs ∧
            ∃ d, collOf t c.grp c.seq = some d ∧ d.used = 1 ∧ d.cmd = c.cmd ∧ d.ended = false),
       (.cred port p, Collected s port.toNat p 3 c ∧ known ∧ c.cmd.reduces = false,
          fun t => t = { x with chn := t.chn } ∧ CollBecomes x t c { c with cred := tset 0 c.cred src (Nat.max (tget 0 c.cred src) a) }),
       (.cred port p, Collected s port.toNat p 3 c ∧ known ∧ c.reduces = true ∧ (c.chunks c.me).length ≤ c.used ∧
            ∀ d < c.nmod, (c.chunks d).length ≤ tget 0 c.sent d,
          fun t => t = { x with chn := t.chn } ∧ CollBecomes x t c { c with cred := tset 0 c.cred src (Nat.max (tget 0 c.cred src) a) }),
       (.data2 port p, Collected s port.toNat p 4 c ∧ known ∧ fits ∧ current 4, fun t => ∃ y, MemBecomes x y store bs ∧
          y = { x with mem := y.mem } ∧ t = { y with chn := t.chn } ∧ CollBecomes y t c (counts 4 c)),
       (.data2 port p, Collected s port.toNat p 4 c ∧ known ∧ fits ∧ ¬current 4, fun t => MemBecomes x t store bs ∧ t = { x with mem := t.mem }),
       (.xdata port p, Collected s port.toNat p 7 c ∧ known ∧ c.cmd.op ≠ 8 ∧ fits ∧ current 7, fun t => ∃ y, MemBecomes x y store bs ∧
          y = { x with mem := y.mem } ∧ t = { y with chn := t.chn } ∧ CollBecomes y t c (counts 7 c)),
       (.resend port p, Collected s port.toNat p 5 c ∧ known ∧ leNat (p.payload.take 1) = 3 ∧ c.mods.getD src 0 < 65536 ∧ c.seq < 65536 ∧ c.grp < 256,
          fun t => ∃ z st, t = inject z (lanePacket s c (c.mods.getD src 0) 3 (pkAttempt p) c.used st []) 14 none ∧
            z = { x with chn := z.chn, rep := z.rep, free := z.free } ∧ z.rep.raised = s.rep.raised ∧
            CollBecomes x z c { c with att := tset 0 c.att (3 * 65536 + src + 2 ^ 20) (pkAttempt p) }),
       (.fail port p, Collected s port.toNat p 6 c ∧ known ∧ c.cmd.op = 7, fun t => CollFails s t c (fld p.w3 15 0) ∧
          t = { x with chn := t.chn, regs := t.regs, rep := t.rep, free := t.free } ∧
          OnlyRegs s t [aChnGrpStat c.grp, aChnLaneStatus c.lane]),
       (.fail port p, Collected s port.toNat p 6 c ∧ known ∧ c.cmd.op = 1 ∧ ctrlLocv c.ctrl = false ∧ out = store ∧
            o + c.cmd.count * c.cmd.outSize ≤ 0x40000, fun t => CollFails s t c (fld p.w3 15 0) ∧
          ∀ b, b < store ∨ store + c.cmd.count * c.cmd.outSize ≤ b → rdByte t.mem b = rdByte s.mem b),
       (.chk port p, taken ∧ pkKind p = 0 ∧ (bit w 63 = false ∨ ctrlGen w ≠ pkGen p),
          fun t => t = { x with rep := t.rep, free := t.free } ∧ Says x t 0x6011 (0x3000 + ctrlLane w)),
       (.colPacket port p, taken ∧ 8 ≤ pkKind p, fun t => t = { x with rep := t.rep, free := t.free } ∧ Says x t 0x4014 (0x3000 + ctrlLane w)),
       (.chk port p, taken ∧ pkKind p = 0 ∧ bit w 63 = true ∧ ctrlGen w = pkGen p ∧ collOf s (pkGroup p) (pkSeq p) = none ∧
            (pkSeq p + 65536 - grpNext s (pkGroup p)) % 65536 < 32768,
          fun t => t = { x with chn := { s.chn with early := s.chn.early ++ [{ pkt := p }] } }),
       (.data2 port p, taken ∧ pkKind p = 4 ∧ bit w 63 = true ∧ ctrlGen w = pkGen p ∧ collOf s (pkGroup p) (pkSeq p) = none ∧
            (pkSeq p + 65536 - grpNext s (pkGroup p)) % 65536 < 32768 ∧ fits,
          fun t => ∃ y, MemBecomes x y store bs ∧ y = { x with mem := y.mem } ∧
            t = { y with chn := { s.chn with early := s.chn.early ++ [{ pkt := p, put := some 0 }] } }),
       (.data1 port p, taken ∧ pkKind p = 2 ∧ bit w 63 = true ∧ ctrlGen w = pkGen p ∧ collOf s G (pkSeq p) = none ∧
            (pkSeq p + 65536 - grpNext s G) % 65536 < 32768 ∧ ctrlLocv w = false ∧ slotFor s G (pkSeq p) = some b ∧
            stageAt s G b (groupMods s G w).length src w = store ∧ o + 2 * ctrlChunk w ≤ 0x40000 ∧ Awake s tile.toNat ∧
            p.payload = bs ∧ 0 < bs.length ∧ a + bs.length ≤ 2 * ctrlChunk w,
          fun t => ∃ y, MemBecomes x y (store + a) bs ∧ y = { x with mem := y.mem } ∧ t = { y with chn := { s.chn with
            early := s.chn.early ++ [{ pkt := p, put := some 0 }]
            slots := if stageSlot s G (pkSeq p) = none then s.chn.slots ++ [(G, b, pkSeq p)] else s.chn.slots } }),
       (kinds.getD k (.chk port p), k < 8 ∧ taken ∧ pkKind p = k ∧ bit w 63 = true ∧ ctrlGen w = pkGen p ∧ collOf s G (pkSeq p) = some c ∧
            heldBack s (c.spans s) = true,
          fun t => t = { x with waits := t.waits, tile := t.tile, cluster := t.cluster } ∧
            t.waits = s.waits ++ [⟨c.spans s, .col p none⟩]),
       (.rel port p, pkOpc p ≠ 0x20 ∨ pkKind p ≠ 1, fun t => t = s)]

/-- R364, R366, R368, R387, R388, R390, R392, R394: pushes to a lane, group writes, completion with its tokens, a phase that stalls,
    a tile reset of a member, and ABORT. The model's choices: a lane with nothing outstanding stays ABORTING to the end of the
    reference cycle (log entry 36), and the body of RESEND (log entry 37). -/
def Obligations.ChanterControl : Prop :=
  ∀ (s : State) (lane : BitVec 2) (gg : BitVec 8) (qq : BitVec 16) (kind : BitVec 4) (src : BitVec 16) (v w0 w1 w2 w3 : Word) (c : Coll)
    (tile : TileId) (req : Req) (e : At), HostServed s → (∀ d < 4, dieIsolated s (8 + d) = false) →
    let l := lane.toNat
    let g := gg.toNat
    let q := qq.toNat
    let K := kind.toNat
    let S := src.toNat
    let en := rbit s (aChnGrpCtrl g) 63
    let on := setBit v 63 true
    let bad := chnEnableBad s g on
    let status := if rbit s aThmHold 63 = true then 7 else if domOn s (96 + 4 * l + 1) = false ∨ inStandby s = true then 5
      else if (getLane s l).aborting = true then 3
      else if fld w0 63 60 = 0 ∨ 8 < fld w0 63 60 ∨ 1 < fld w0 34 33 then 8 else if 16 ≤ (getLane s l).queue.length then 1 else 0
    let here := collOf s g q = some c ∧ c.grp = g ∧ c.seq = q ∧ c.ended = false
    let key := K * 65536 + S
    let mod := c.mods.getD S 0
    let pushes := req = .host ∨ ∃ u, req = .engine ⟨u, 3⟩
    let lateLane := 0x3000 + fld (if en = true then regGet s (aChnGrpCtrl g) else v) 62 61
    Cases s
      [(.chanterPush lane w0 w1 w2 w3 req, pushes ∧ status = 0, fun t => ∃ st, t.reply.1 = 0 ∧
          t = { s with reply := t.reply, chn := t.chn, rep := t.rep, free := t.free } ∧ t.rep.raised = s.rep.raised ∧
          getLane t l = { getLane s l with queue := (getLane s l).queue ++
            [{ w0 := w0, w1 := w1, w2 := w2, w3 := w3, stamp := st, seq := tget 0 s.rep.seq (0x3000 + l)
               launcher := match req with | .engine a => some a | _ => none }] } ∧
          tget 0 t.rep.seq (0x3000 + l) = tget 0 s.rep.seq (0x3000 + l) + 1 ∧
          ∀ m, m ≠ l → getLane t m = getLane s m),
       (.chanterPush lane w0 w1 w2 w3 req, pushes ∧ status ≠ 0, fun t => t = { s with reply := t.reply } ∧ t.reply.1 = status),
       (.groupEnable .host gg v, en = false ∧ bad = false, fun t => Written (forgets s g) t [aChnGrpCtrl g, aChnGrpStat g] ∧
          FieldsAre (regGet t (aChnGrpCtrl g)) on [(63, 50), (47, 24)] ∧ grpNext t g = 0 ∧
          FieldsAre (regGet t (aChnGrpStat g)) (regGet s (aChnGrpStat g)) [(47, 0)]),
       (.groupEnable .host gg v, en = true ∨ bad = true, fun t => Refused s t 0x6001 lateLane),
       (.groupDisable .host gg v, en = false ∨ grpOutst s g = 0, fun t => Written (forgets s g) t [aChnGrpCtrl g] ∧
          rbit t (aChnGrpCtrl g) 63 = false ∧ FieldsAre (regGet t (aChnGrpCtrl g)) v [(62, 50), (47, 24)]),
       (.groupDisable .host gg v, en = true ∧ grpOutst s g ≠ 0, fun t => Refused s t 0x6001 (0x3000 + fld (regGet s (aChnGrpCtrl g)) 62 61)),
       (.groupEnable (.engine e) gg v, True, fun t => Refused s t 0x9025 0),
       (.laneAbort .host lane, ∀ d ∈ s.chn.colls, d.lane = l → d.ended = true, fun t =>
          t = { s with reply := t.reply, chn := t.chn } ∧ t.reply.1 = 0 ∧ getLane t l = { aborting := true } ∧ t.chn.colls = s.chn.colls ∧
          ∀ m, m ≠ l → getLane t m = getLane s m),
       (.laneAbort .host lane, s.chn.colls = [c] ∧ c.lane = l ∧ c.ended = false, fun t => getLane t l = { aborting := true } ∧
          CollFails s t c 0x6031),
       (.tileReset .host tile, s.chn.colls = [c] ∧ c.ended = false ∧ tile.toNat ∈ c.tiles ∧ tileCode s tile.toNat = 0,
          fun t => CollFails s t c 0x6030),
       (.collectiveComplete gg qq, here ∧ c.complete = true ∧ ctrlLocv c.ctrl = false ∧ c.cmd.stile = tile.toNat ∧ TakesTokens s tile.toNat ∧
            c.cmd.mute = false ∧ (getTile s tile.toNat).semVal c.cmd.sigSem + c.cmd.sigCnt ≤ 65535,
          fun t => t = { s with chn := t.chn, regs := t.regs, tile := t.tile } ∧ OnlyRegs s t [aChnGrpStat g] ∧
            grpOutst t g = grpOutst s g - 1 ∧ grpNext t g = grpNext s g ∧ CollBecomes (leaveSlot s g q) t c { c with ended := true } ∧
            OnlyTile { s with chn := t.chn, regs := t.regs } t tile.toNat ∧ ∀ k, (getTile t tile.toNat).semVal k =
              (getTile s tile.toNat).semVal k + if k = c.cmd.sigSem then c.cmd.sigCnt else 0),
       (.collectiveComplete gg qq, collOf s g q = none ∨ (here ∧ (c.complete = false ∨ c.rel = false)), fun t => t = s),
       (.phaseGapTimeout gg qq kind src, here ∧ (K = 2 ∨ K = 3 ∨ K = 4 ∨ K = 7) ∧ S ≠ c.me ∧ S < c.nmod ∧ c.begun K S = true ∧
            c.phaseDone K S = false ∧ tget 0 c.att key < rf s aFabTimer 1 0 ∧ isNeighbour s mod = true,
          fun t => ∃ z st, t = inject z (lanePacket s c mod 5 (tget 0 c.att key + 1) 0 st (natLE 1 K)) 14 none ∧
            z = { s with chn := z.chn, rep := z.rep, free := z.free } ∧ Says s z 0x6021 (0x3000 + c.lane) ∧
            CollBecomes s z c { c with att := tset 0 c.att key (tget 0 c.att key + 1), segs := tset [] c.segs key [] }),
       (.phaseGapTimeout gg qq kind src, here ∧ (K = 2 ∨ K = 3 ∨ K = 4 ∨ K = 7) ∧ S ≠ c.me ∧ S < c.nmod ∧ c.begun K S = true ∧
            c.phaseDone K S = false ∧ rf s aFabTimer 1 0 ≤ tget 0 c.att key ∧ isNeighbour s mod = true, fun t => CollFails s t c 0x6020),
       (.phaseGapTimeout gg qq kind src, collOf s g q = none ∨ (here ∧ c.phaseDone K S = true), fun t => t = s)]

/-! ### The management paths and the site description (chapter 14) -/

/-- R20, R22, R418, R502, Tables 14.8 and 14.17: what each SMBus command returns and does, with its packet error code. A transfer to
    another address does nothing; a code that Table 14.8 lacks, a bad offset and a wrong packet error code are NACKed. The
    packet error code and the alert response address are the model's (log entry 139, PRESUMED from the SMBus specification), and
    so is silence without Drone power (log entry 81). Without the Drone domain no management path answers, and nothing happens
    there (R415, R418). The latter is the model's choice for SMBus (log entry 81). -/
def Obligations.SmbusCommands : Prop :=
  (∀ (s : State) (m : SmbWord) (k : SmbByte) (w : Byte) (x : Sample), s.pins.drone = true →
    let v := m.value
    let id := regGet s aParamId
    let ident := natLE 2 (fld id 63 48) ++ [BitVec.ofNat 8 (fld id 39 36 * 16 + fld id 35 32), BitVec.ofNat 8 (fld id 47 40)] ++
      flashRead s 0x2000000 14 ++ List.replicate 14 0
    let off := s.mgt.smbOff
    let part := ((recordShown s).drop off).take 32
    let own := BitVec.ofNat 8 ((0x58 + s.pins.slot.toNat) * 2)
    let stands := ∃ k < 4, AlertStands s k ∧ s.mgt.smbMask.getLsbD k = true
    Cases s
      [(.ident, True, fun t => Smb s t ident (pecBlock s 0 ident)),
       (.smbusStatus, True, fun t => ∃ n < 128, Smb s t [BitVec.ofNat 8 n, 0] (pecWord s 1 [BitVec.ofNat 8 n, 0]) ∧
          (n.testBit 0 = true ↔ s.pins.pwrGood = true) ∧
          (n.testBit 1 = true ↔ hlState s = 2) ∧ (n.testBit 2 = true ↔ rbit s aThmHold 63 = true) ∧
          (n.testBit 3 = true ↔ rbit s aMgtSite 62 = true) ∧ n / 16 = s.pins.slot.toNat),
       (.temps, s.thm.hist.head? = some x, fun t => ∃ bs, bs.length = 16 ∧
          Smb { s with free := t.free } t bs (pecBlock s 2 bs) ∧ bs.getD 15 1 = 0 ∧
          (∀ d < 12, ∀ h, Greatest (validReads s d) h → bs.getD d 0 = BitVec.ofInt 8 (h / 16)) ∧
          (∀ h, Greatest x.stackT h → bs.getD 12 0 = BitVec.ofInt 8 h) ∧ (∀ h, Greatest x.bells h → bs.getD 13 0 = BitVec.ofInt 8 h) ∧
          ∀ h, Least ((List.range 12).flatMap (validReads s)) h → bs.getD 14 0 = BitVec.ofInt 8 (h / 16)),
       (.trdata, True, fun t => ∃ u, Smb s u part (pecBlock s 3 part) ∧
          t = { u with mgt := { u.mgt with smbOff := (off + 32) % 4096 } }),
       (.troff m, SmbTo s m.toSmbCmd 4 ∧ v.toNat % 32 = 0 ∧ v.toNat < 4096 ∧ PecRight s m.toSmbCmd (natLE 2 v.toNat), fun t =>
          t = { s with mgt := { s.mgt with smbOff := v.toNat } }),
       (.troff m, SmbTo s m.toSmbCmd 4 ∧ (v.toNat % 32 ≠ 0 ∨ 4096 ≤ v.toNat ∨ ¬PecRight s m.toSmbCmd (natLE 2 v.toNat)), fun t => Smb s t [] 0),
       (.alertmask k, SmbTo s k.toSmbCmd 5 ∧ k.write = some w ∧ PecRight s k.toSmbCmd [w], fun t =>
          t = { s with mgt := { s.mgt with smbMask := w.setWidth 4, alert := t.mgt.alert } } ∧
          (t.mgt.alert = true ↔ s.mgt.alert = true ∨ ∃ j < 4, AlertStands s j ∧ w.getLsbD j = true)),
       (.alertmask k, SmbTo s k.toSmbCmd 5 ∧ k.write = some w ∧ ¬PecRight s k.toSmbCmd [w], fun t => Smb s t [] 0),
       (.alertmask k, SmbTo s k.toSmbCmd 5 ∧ k.write = none, fun t => Smb s t [s.mgt.smbMask.setWidth 8] (pecWord s 5 [s.mgt.smbMask.setWidth 8])),
       (.alertResponseAddress, s.mgt.alert = true, fun t => t = { s with mgt := { s.mgt with
            alert := t.mgt.alert, smbOut := ([own], smbPec [0x19, own]) :: s.mgt.smbOut } } ∧ (t.mgt.alert = true ↔ stands)),
       (.alertResponseAddress, s.mgt.alert = false, fun t => t = s)] ∧
    ∀ c ∈ [(Instr.troff m, m.toSmbCmd), (.alertmask k, k.toSmbCmd)],
      (c.2.addr.toNat ≠ 0x58 + s.pins.slot.toNat → exec c.1 s = .next s) ∧
      (c.2.addr.toNat = 0x58 + s.pins.slot.toNat → 5 < c.2.code.toNat → ∃ t, exec c.1 s = .next t ∧ Smb s t [] 0)) ∧
  (∀ (s : State) (d : Datagram) (m : SmbWord) (k : SmbByte) (nb : BitVec 128), s.pins.drone = false →
    ∀ c ∈ [Instr.ident, .smbusStatus, .temps, .trdata, .troff m, .alertmask k, .alertResponseAddress, .hello, .mgtRead d,
        .mgtWrite d.sender (d.sport, d.dport) d.data, .trec d, .neighbourSolicitation nb], exec c s = .next s)

/-- R410 to R417, R420, R484, Tables 14.5 to 14.7: the messages of the management port and what each does, and the checks at DONE.
    Answers go to the sender; a WRITE is MGT_FM's alone. A datagram of another service, MAGIC, VER or TYPE is discarded. The model's
    choices: the widths of HELLO and RDATA (log entry 49), the link-local address with its universal bit inverted (log entry 111,
    PRESUMED), and which bodies are discarded (log entry 80). -/
def Obligations.ManagementPort : Prop :=
  ∀ (s z : State) (a v : Word) (d : Datagram) (bs : List Byte) (nb : BitVec 128) (c row o : Nat) (tile : TileId) (off : Nat)
    (e : At), s.pins.drone = true →
    let fm := BitVec.ofNat 128 ((regGet s aMgtFmHi).toNat * 2 ^ 64 + (regGet s aMgtFmLo).toNat)
    let to_ := if rbit s aMgtSite 60 = true then fm else BitVec.ofNat 128 (0xFF02 * 2 ^ 112 + 1)
    let entry (c : Nat) (v : Word) : List Byte := natLE 2 c ++ wordLE v
    let store := 0x020000000000 + tile.toNat * 0x40000 + off
    let isStore := a.toNat = store ∧ off + 8 ≤ 0x40000
    let may := d.sender = fm ∧ rbit s aMgtSite 60 = true ∧ rbit s aMgtSite 62 = true ∧ MgtReach a.toNat
    let mac := (flashRead s 0x2000008 6).map (fun b => b.toNat)
    let m (i : Nat) : Nat := mac.getD i 0
    let own := [m 0 ^^^ 2, m 1, m 2, 0xFF, 0xFE, m 3, m 4, m 5].foldl (fun n x => n * 256 + x) (0xFE80 * 2 ^ 48)
    let site := regGet s aMgtSite
    let w (x : State) : Prop := x = { s with regs := x.regs } ∧ OnlyRegs s x [aMgtSite] ∧
      FieldsAre (regGet x aMgtSite) v [(61, 61), (60, 60), (59, 56)] ∧ FieldsAre (regGet x aMgtSite) site [(62, 62)]
    Cases s
      [(.hello, True, fun t => Datagrams s t 1 to_ (flashRead s 0x2000000 14 ++ natLE 1 (fld site 62 62) ++ natLE 1 (hlState s) ++
          natLE 1 (rf s aThmHold 63 63) ++ natLE 1 s.pins.slot.toNat ++ wordLE (readAlign s))),
       (.mgtRead d, Carries d 3 (wordLE a) ∧ areaOf a.toNat 8 = some .ctl ∧ ctlRead s .mgmt a.toNat = (v, c, z),
          fun t => Datagrams z t 4 d.sender (entry c (if c = 0 then v else 0))),
       (.mgtRead d, Carries d 3 (wordLE a) ∧ isStore ∧ rbit s aSecCtrl 1 = true ∧ s.pins.core = true ∧ Awake s tile.toNat,
          fun t => Datagrams s t 4 d.sender (natLE 2 0 ++ rdBytes s.mem store 8)),
       (.mgtRead d, Carries d 3 (wordLE a) ∧ isStore ∧ rbit s aSecCtrl 1 = false, fun t => ∃ y,
          y = { s with rep := y.rep, free := y.free } ∧ Says s y 0x9029 0 ∧ Datagrams y t 4 d.sender (entry 0x9029 0)),
       (.mgtRead d, Carries d 3 bs ∧ (512 < bs.length ∨ bs.length % 8 ≠ 0), fun t => t = s),
       (.mgtRead d, Carries d 3 [], fun t => Datagrams s t 4 d.sender []),
       (.mgtWrite d.sender (d.sport, d.dport) d.data, Carries d 5 (wordLE a ++ wordLE v) ∧ may ∧ ctlWrite s .mgmt a.toNat v = (c, z), fun t =>
          Datagrams z t 6 d.sender (natLE 2 c)),
       (.mgtWrite d.sender (d.sport, d.dport) d.data, Carries d 5 (wordLE a ++ wordLE v) ∧ ¬may, fun t => ∃ y, y = { s with rep := y.rep, free := y.free } ∧
          Says s y 0xA040 0 ∧ Datagrams y t 6 d.sender (natLE 2 0xA040)),
       (.mgtWrite d.sender (d.sport, d.dport) d.data, Carries d 5 bs ∧ bs.length ≠ 16, fun t => t = s),
       (.trec d, Carries d 7 (natLE 2 o) ∧ o < 65536, fun t => Datagrams s t 8 d.sender (((recordShown s).drop o).take 1024)),
       (.mgtRead d, ∀ x, ¬Carries d 3 x, fun t => t = s), (.mgtWrite d.sender (d.sport, d.dport) d.data, ∀ x, ¬Carries d 5 x, fun t => t = s),
       (.trec d, ∀ x, ¬Carries d 7 x, fun t => t = s),
       (.neighbourSolicitation nb, nb.toNat = own, fun t => t = { s with mgt := { s.mgt with nbAnswers := s.mgt.nbAnswers + 1 } }),
       (.neighbourSolicitation nb, nb.toNat ≠ own, fun t => t = s),
       (.siteDone .host v, HostServed s ∧ w z ∧ ∀ k, ¬SiteFails z k, fun t => Written s t [aMgtSite] ∧
          FieldsAre (regGet t aMgtSite) v [(61, 61), (60, 60), (59, 56)] ∧ rbit t aMgtSite 62 = true),
       (.siteDone .host v, HostServed s ∧ w z ∧ SiteFails z row ∧ ∀ k < row, ¬SiteFails z k, fun t =>
          t = { s with reply := t.reply, regs := t.regs, rep := t.rep, free := t.free } ∧ t.reply.1 = 0xA031 ∧ w { s with regs := t.regs } ∧
          ∃ r, t.rep.raised = s.rep.raised ++ [r] ∧ r.code = 0xA031#16 ∧ r.unit = 1 ∧ r.a0 = BitVec.ofNat 64 row),
       (.siteDone (.engine e) v, True, fun t => Refused s t 0x9026 1)]

/-! ### Input power, pins and resets (chapters 01 and 16) -/

/-- R22 to R29, R464, Tables 1.5 and 1.6: what each input band does, the cold start, and the power-loss sequence. The model's
    choices: 62.5 V as the bound of INPUT_OVERVOLTAGE (log entry 59), and MOD_RESET_N held low by a cold start (log entry 91). -/
def Obligations.InputPower : Prop :=
  ∀ (s : State) (slot : BitVec 3) (vin : BitVec 16), NoCommand s →
    let p := s.pins
    let one (code : Nat) (t : State) : Prop := t = { s with rep := t.rep, free := t.free } ∧ Says s t code 0x7008
    let lost := p.core = true
    let opens (t : State) : Prop := t.pins = { p with input := false, core := false, pwrGood := if lost then false else p.pwrGood } ∧
      (lost → CoreEmpty s t) ∧ (¬lost → t.mem = s.mem ∧ t.tile = s.tile) ∧ t.drone = s.drone ∧ t.sto = s.sto
    Cases s
      [(.inputRise46v, True, fun t => t = { s with pins := { p with input := true } }),
       (.bulkCapacitanceCharged slot, p.input = true ∧ (p.drone = false ∨ p.powerLost = true), fun t =>
          t.pins = { input := true, drone := true, core := false, pwrGood := false, rstLow := true, slot := slot } ∧ CoreEmpty {} t ∧
          (∀ a, a ≠ aThmHold → regGet t a = resetAt a) ∧ rbit t aThmHold 63 = (thermalRec s).isSome ∧ t.drone = {} ∧
          t.sto = { flash := s.sto.flash } ∧ t.rep.raised = [] ∧ t.thm = {} ∧ t.mgt.smbMask = 0xF ∧ t.mgt.alert = true),
       (.bulkCapacitanceCharged slot, ¬(p.input = true ∧ (p.drone = false ∨ p.powerLost = true)), fun t => t = s),
       (.inputLowBand, p.drone = true, one 0x8010), (.inputHighBand, p.drone = true, one 0x8013),
       (.inputLowBand, p.drone = false, fun t => t = s), (.inputHighBand, p.drone = false, fun t => t = s),
       (.inputOvervoltage vin, vin.toNat ≤ 6250, fun t => t = s),
       (.inputOvervoltage vin, 6250 < vin.toNat ∧ p.drone = true, fun t => opens t ∧ SaysAmong s t 0x8011 0x7008),
       (.inputOvervoltage vin, 6250 < vin.toNat ∧ p.drone = false, fun t => opens t ∧ (¬lost → t.rep = s.rep)),
       (.powerLoss, p.drone = true ∧ p.powerLost = false ∧ (∀ c ∈ s.sto.commits, c.nvs = false), fun t =>
          t.pins = { p with input := false, core := false, pwrGood := if lost then false else p.pwrGood, powerLost := true } ∧
          (lost → CoreEmpty s t) ∧ t.drone = s.drone ∧ t.sto.flash = s.sto.flash ∧
          t.sto.commits = s.sto.commits.take 1 ++ (s.sto.commits.drop 1).filter (fun c => decide (c.kind = 4) && !c.clear) ∧
          SaysAmong s t 0x8012 0x7008),
       (.powerLoss, p.drone = false ∨ p.powerLost = true, fun t => t = { s with pins := { p with input := false } }),
       (.holdUpExpiry, p.input = false, fun t => t.pins = { input := false, drone := false, core := false, pwrGood := false } ∧
          CoreEmpty {} t ∧ (∀ a, regGet t a = resetAt a) ∧ t.drone = {} ∧ t.sto = { flash := s.sto.flash } ∧ t.rep.raised = []),
       (.holdUpExpiry, p.input = true, fun t => t = s)]

/-- R13, R23 to R26, R420, R447, R451, Table 16.3: the reset pin and MGT_CTRL.MRESET reset the module; the core stage starts and
    stops, and PWR_GOOD follows its rails. While THERM_TRIP_N is low only the pin starts the core again. That RAIL_OUT_OF_REGULATION
    lowers PWR_GOOD alone and leaves the core stage on is the model's choice (log entry 91). -/
def Obligations.ModuleReset : Prop :=
  ∀ (s : State) (e : At), ListedOnce s → NoCommand s →
    let p := s.pins
    let off (q : Pins) : Pins := { q with core := false, pwrGood := false, want := true }
    Cases s
      [(.modResetNLow, p.drone = true ∧ p.powerLost = false, fun t =>
          ModuleResets s t 1 (off { p with rstLow := true, tripLow := false, railFail := false })),
       (.modResetNLow, p.drone = true ∧ p.powerLost = true, fun t => t = { s with pins := { p with rstLow := true } }),
       (.modResetNLow, p.drone = false, fun t => t = s),
       (.modResetNHigh, p.want = true ∧ p.core = false ∧ CoreMay s { p with rstLow := false }, fun t =>
          t = { s with pins := { p with rstLow := false, core := true } }),
       (.modResetNHigh, p.drone = true ∧ ¬(p.want = true ∧ p.core = false ∧ CoreMay s { p with rstLow := false }), fun t =>
          t = { s with pins := { p with rstLow := false } }),
       (.modResetNHigh, p.drone = false, fun t => t = s),
       (.mreset .host, rf s aVrxState 63 60 ≠ 1 ∧ CoreMay s p, fun t => ModuleResets s t 2 { off p with core := true } ∧ t.reply = (0, [])),
       (.mreset .host, rf s aVrxState 63 60 ≠ 1 ∧ ¬CoreMay s p, fun t => ModuleResets s t 2 (off p) ∧ t.reply = (0, [])),
       (.mreset (.engine e), True, fun t => Refused s t 0x9026 1),
       (.coreRailsInRegulation, p.core = true, fun t => t = { s with pins := { p with pwrGood := true } }),
       (.coreRailsInRegulation, p.core = false, fun t => t = s),
       (.railRegulationTimeout, p.core = true ∧ p.pwrGood = false, fun t => t.pins = { p with core := false, pwrGood := false, railFail := true } ∧
          CoreEmpty s t ∧ t.sto = s.sto ∧ t.drone = s.drone ∧ SaysAmong s t 0x8014 0x7008),
       (.railRegulationTimeout, ¬(p.core = true ∧ p.pwrGood = false), fun t => t = s),
       (.railOutOfRegulation, True, fun t => t = { s with pins := { p with pwrGood := false }, mgt := { s.mgt with alert := t.mgt.alert } } ∧
          (s.mgt.smbMask.getLsbD 3 = true → t.mgt.alert = true))]

/-! ### Power domains, Calipers, heat (chapter 15) -/

/-- R97, R422, R424, R425, R434, R444: switching a cluster's or a Reeds' domain: what is refused, what is accepted, and what is lost.
    The tiles of a cluster that powers on stand gated (the model's choice, log entry 122). -/
def Obligations.PowerDomains : Prop :=
  ∀ (s : State) (d : BitVec 7) (e : At) (c : BitVec 6), rf s aVrxState 63 60 ≠ 1 → ListedOnce s →
    let a := aPwrDom d.toNat
    let cl := d.toNat < 96 ∧ d.toNat % 12 < 8
    let rd := d.toNat < 96 ∧ (d.toNat % 12 = 8 ∨ d.toNat % 12 = 9)
    let n := d.toNat / 12 * 8 + d.toNat % 12
    let mine (t : Nat) : Prop := t / 128 = n
    let reeds := (List.range 32).map (fun i => (d.toNat / 12 * 2 + d.toNat % 12 - 8) * 32 + i)
    let idle := (cl → ∀ t < 8192, mine t → (getTile s t).chatter = false ∧ ∀ k < 4, ((getTile s t).engine k).queue = [] ∧
      ((getTile s t).engine k).running = none ∧ ((getTile s t).engine k).xfers = []) ∧ (rd → ∀ r ∈ reeds, reedState s r = 0 ∨ reedState s r = 5)
    let still := rf s a 63 62 ≠ 2
    let no (t : State) : Prop := Refused s t 0x8030 0x7008
    let switches (on : Bool) (t : State) : Prop := Written s t [a] ∧ rf t a 63 62 = 2 ∧ rbit t a 0 = on ∧
      FieldsAre (regGet t a) (regGet s a) [(61, 1)]
    let alone := (∀ p < 16, rbit s (aMgtPairCtrl p) 63 = false) ∧ ∀ x ∈ s.chn.colls, x.ended = true
    Cases s
      [(.domainPowerOff .host d, (cl ∨ rd) ∧ still ∧ rbit s a 0 = true ∧ idle ∧ alone, switches false),
       (.domainPowerOff .host d, (cl ∨ rd) ∧ still ∧ rbit s a 0 = true ∧ ¬idle, no),
       (.domainPowerOff .host d, (cl ∨ rd) ∧ still ∧ rbit s a 0 = false, fun t => t = { s with reply := (0, []) }),
       (.domainPowerOff .host d, ¬(cl ∨ rd) ∨ ¬still, no),
       (.domainPowerOn .host d, (cl ∨ rd) ∧ still ∧ rbit s a 0 = false, switches true),
       (.domainPowerOn .host d, (cl ∨ rd) ∧ still ∧ rbit s a 0 = true, fun t => t = { s with reply := (0, []) }),
       (.domainPowerOn .host d, ¬(cl ∨ rd) ∨ ¬still, no),
       (.domainPowerOff (.engine e) d, True, fun t => Refused s t 0x9027 0), (.domainPowerOn (.engine e) d, True, fun t => Refused s t 0x9027 0),
       (.domainSwitchComplete d, cl ∧ rf s a 63 62 = 2, fun t => rf t a 63 62 = (if rbit s a 0 = true then 0 else 1) ∧
          (∀ t', mine t' → (getTile t t').bank = (getTile s t').bank ∧ (getTile t t').v = [] ∧ (getTile t t').acc = [] ∧ (getTile t t').sem = [] ∧
            (getTile t t').gated = rbit s a 0 ∧
            ∀ k < 4, ((getTile t t').engine k).x = [] ∧ ((getTile t t').engine k).lc = [] ∧ ((getTile t t').engine k).ag = [] ∧
              ((getTile t t').engine k).pc = 0 ∧ ((getTile t t').engine k).phase = .idle) ∧
          (∀ t', ¬mine t' → getTile t t' = getTile s t') ∧
          (∀ t' o, t' < 8192 → o < 0x40000 → rdByte t.mem (0x020000000000 + t' * 0x40000 + o) =
            if t' / 128 = n then 0 else rdByte s.mem (0x020000000000 + t' * 0x40000 + o)) ∧
          t.dev = s.dev ∧ t.cache = s.cache ∧ t.reed = s.reed),
       (.domainSwitchComplete d, rd ∧ rf s a 63 62 = 2 ∧ ∀ r ∈ reeds, chState s r ≠ 3,
          fun t => rf t a 63 62 = (if rbit s a 0 = true then 0 else 1) ∧
          (∀ r, getReed t r = if r ∈ reeds then {} else getReed s r) ∧ (∀ r ∈ reeds, reedState t r = 0 ∧ rf t (aReedRing r) 51 48 = 0 ∧ rf t (aReedRing r) 47 6 = 0) ∧
          t.mem = s.mem ∧ t.tile = s.tile ∧ t.dev = s.dev),
       (.domainSwitchComplete d, rf s a 63 62 ≠ 2, fun t => t = s),
       (.divisionTakesEffect c, True, fun t => t = { s with cluster := t.cluster } ∧
          getCluster t c.toNat = { getCluster s c.toNat with divPending := false } ∧ ∀ k, k ≠ c.toNat → getCluster t k = getCluster s k)]

/-- R429, R430, R431, Table 15.3: every 10 µs each sensor's reading is kept and each sensor votes: five samples in a row more than 8
    °C off the median of its neighbours put it out, a hundred within it bring it back; a die with more than a quarter of its
    sensors out is in FALLBACK. At other ticks nothing is sampled. R433, R434, R437, Tables 15.4 and 15.5: at each sample a
    cluster of a die that is not in FALLBACK takes the level that the table gives for the hottest valid sensor of its row; the
    power level rises by one where the mean of the last ten samples is above the limit; and a cluster whose clock is not stopped
    runs at the higher of the two. That the limit is the least of CAP and 60 A times the input voltage is the model's choice
    (log entry 89). -/
def Obligations.CalipersSamples : Prop :=
  (∀ (s : State) (x : Sample),
    (¬(s.pins.drone = true ∧ s.drone.tick.toNat % 250 = 0) → exec (.calipersSample x) s = .next s) ∧
    (s.pins.drone = true → s.drone.tick.toNat % 250 = 0 → ∃ t, exec (.calipersSample x) s = .next t ∧
      t = { s with regs := t.regs, thm := t.thm, cluster := t.cluster, rep := t.rep, free := t.free, mgt := { s.mgt with alert := t.mgt.alert } } ∧
      t.thm.hist = (x :: s.thm.hist).take 32 ∧
      ∀ d < 12,
        let n := if d < 8 then 64 else 16
        (∀ k < n, ∀ r, r = (x.dies.getD d []).getD k 0 →
          let v := tget {} s.thm.votes (d * 64 + k)
          let near := nearReadings s x d k
          rf t (aThmSens d k) 63 48 = low 16 r ∧
          (near.length < 2 → rbit s (aThmSens d k) 47 = false → rbit t (aThmSens d k) 47 = false) ∧
          ∀ m, MedianIs near m →
            let far := 128 < r - m ∨ r - m < -128
            (rbit s (aThmSens d k) 47 = false → 2 ≤ near.length →
              (rbit t (aThmSens d k) 47 = true ↔ far ∧ 4 ≤ v.far) ∧
              ((tget {} t.thm.votes (d * 64 + k)).far = if far ∧ v.far < 4 then v.far + 1 else 0)) ∧
            (rbit s (aThmSens d k) 47 = true →
              (rbit t (aThmSens d k) 47 = false ↔ ¬far ∧ 99 ≤ v.near) ∧
              ((tget {} t.thm.votes (d * 64 + k)).near = if ¬far ∧ v.near < 99 then v.near + 1 else 0))) ∧
        (let out := ((List.range n).filter (fun k => rbit t (aThmSens d k) 47)).length
         rf t (aThmDie d) 46 40 = out ∧ (rbit t (aThmDie d) 47 = true ↔ n < 4 * out)))) ∧
  (∀ (s : State) (x : Sample), s.pins.drone = true → s.drone.tick.toNat % 250 = 0 →
    ∃ t, exec (.calipersSample x) s = .next t ∧
      (∀ c < 64, rbit t (aThmDie (c / 8)) 47 = false →
        let g := tget {} s.thm.gov c
        let soft : Int := (rf s aThmCtrl 63 56 : Nat) * 16
        ∀ T T1 T10,
          Greatest (((List.range 8).filter (fun k => rbit t (aThmSens (c / 8) (c % 8 * 8 + k)) 47 = false)).map
            (fun k => (x.dies.getD (c / 8) []).getD (c % 8 * 8 + k) 0)) T →
          g.temps[0]? = some T1 → g.temps[9]? = some T10 →
          (tget {} t.thm.gov c).level =
            newLevel soft T T1 T10 (95 < x.stackT.getD (c / 8 * 2) 0 ∨ 95 < x.stackT.getD (c / 8 * 2 + 1) 0)
              (T ≤ soft - 5 * 16 ∧ 99 ≤ g.cool) g.level ∧
          (tget {} t.thm.gov c).temps = (T :: g.temps).take 10) ∧
      (∀ c < 64, (getCluster s c).clk = .running →
        rf t (levelReg c) 59 56 = Nat.max (tget {} t.thm.gov c).level (rf t aPwrStatus 15 12) % 16) ∧
      (let ps := (x.power :: s.thm.power).take 100
       let lim := Nat.min (rf s aPwrCtrl 47 32 * 100) (60 * x.vin.toNat)
       let above := lim * (ps.take 10).length < (ps.take 10).sum * 100
       let under := ps.sum * 10000 < 95 * lim * ps.length
       let l := rf s aPwrStatus 15 12
       let up := if above then Nat.min (l + 1) 10 else l
       rf t aPwrStatus 15 12 = (if under ∧ 99 ≤ s.thm.low then up - 1 else up) ∧ t.thm.soft = rf s aThmCtrl 63 56 ∧
       rf t aPwrStatus 63 48 = x.vin.toNat ∧ rf t aPwrStatus 47 32 = x.iin.toNat ∧
       rf t aPwrStatus 31 16 = ps.sum / ps.length % 65536))

/-- R26, R428, R435, R436, R438 to R442, R444, Tables 15.6 and 15.9: the trip and its record, coalescing windows, Bellows' holds,
    and the writes of SOFT, CAP and KEY. The model's choices: skipping stops at 16 and falls by one at each release (log entry 90);
    the trip's commit replaces the one in progress and drops waiting clears (log entry 62). -/
def Obligations.ThermalControl : Prop :=
  ∀ (s : State) (die sensor read : Nat) (st v : Word) (e : At) (d : BitVec 4) (code : BitVec 16) (rise : BitVec 64) (key : BitVec 32)
    (w : TWin) (r1 r2 : List ((Nat × Nat) × TWin)) (p : List Byte), rf s aVrxState 63 60 ≠ 1 →
    let at_ (n k : Nat) (b : List Byte) : Nat := leNat ((b.drop n).take k)
    let no (code : Nat) (t : State) : Prop := Refused s t code 0x7008
    let noClear := ∀ c ∈ s.sto.commits, c.clear = false
    let wins := s.thm.wins = r1 ++ ((d.toNat, code.toNat), w) :: r2 ∧ (∀ y ∈ r1 ++ r2, y.1 ≠ (d.toNat, code.toNat))
    Cases s
      [(.thermalTrip, s.thm.due = some (die, sensor, read, st) ∧ s.pins.tripLow = false ∧ s.pins.drone = true ∧ die < 12 ∧ sensor < 64 ∧
            read < 65536 ∧ (∀ c ∈ s.sto.commits, c.nvs = false) ∧ s.thm.hist.length ≤ 32 ∧ s.thm.govHist.length ≤ 128 ∧
            (∀ h ∈ s.thm.govHist, h.length ≤ 12),
          fun t => ∃ b, t.pins = { s.pins with tripLow := true, core := false, pwrGood := false } ∧ CoreEmpty s t ∧
          t.sto = { s.sto with commits := { kind := 4, payload := b } :: (s.sto.commits.drop 1).filter (fun c => !c.clear) } ∧ t.thm = { s.thm with due := none } ∧
          SaysAmong s t 0x7030 (0x7000 + die) ∧ b.length = 4092 ∧ at_ 0 4 b = 0x54524543 ∧ at_ 4 2 b = 1 ∧
          at_ 6 2 b = (if idValid s = true then moduleId s else 0) ∧ at_ 8 8 b = st.toNat ∧
          at_ 0x10 8 b = (match thermalRec s with | some q => at_ 0x10 8 q | none => st.toNat) ∧
          at_ 0x18 2 b = 0x7000 + die ∧ at_ 0x1A 1 b = 1 ∧ at_ 0x1B 1 b = sensor ∧ at_ 0x1C 2 b = read ∧
          at_ 0x1E 1 b = (match thermalRec s with | some q => Nat.min 255 (at_ 0x1E 1 q + 1) | none => 1) ∧
          at_ 0x20 2 b = rf s aPwrStatus 63 48 ∧ at_ 0x22 2 b = rf s aPwrStatus 31 16),
       (.thermalTrip, s.thm.due = none ∨ s.pins.tripLow = true ∨ s.pins.drone = false, fun t => t = s),
       (.thermalCoalesceWindowEnd d code, wins ∧ 0 < w.count ∧ dieIsolated s d.toNat = false, fun t =>
          t = { s with thm := { s.thm with wins := r1 ++ r2 }, rep := t.rep, free := t.free } ∧ ∃ r, t.rep.raised = s.rep.raised ++ [r] ∧
          r.code = code ∧ r.unit = 0x7000 + d.toNat ∧ r.coal = true ∧ r.count = w.count ∧ r.a2 = w.first ∧ r.a3 = w.last),
       (.thermalCoalesceWindowEnd d code, wins ∧ (w.count = 0 ∨ dieIsolated s d.toNat = true), fun t => t = { s with thm := { s.thm with wins := r1 ++ r2 } }),
       (.thermalCoalesceWindowEnd d code, ∀ y ∈ s.thm.wins, y.1 ≠ (d.toNat, code.toNat), fun t => t = s),
       (.bellowsHold rise, True, fun t => t = { s with thm := { s.thm with hold := true }, cluster := t.cluster } ∧
          ∀ c < 64, let k := (getCluster s c).skip
            getCluster t c = { getCluster s c with skip := if rise.getLsbD c = true then Nat.min (k + 1) 16 else k }),
       (.bellowsRelease, True, fun t => t = { s with thm := { s.thm with hold := false }, cluster := t.cluster } ∧
          ∀ c, getCluster t c = { getCluster s c with skip := (getCluster s c).skip - 1 }),
       (.softWrite .host v, 70 ≤ fld v 63 56 ∧ fld v 63 56 ≤ 105, fun t =>
          Written s t [aThmCtrl] ∧ rf t aThmCtrl 63 56 = fld v 63 56),
       (.softWrite .host v, ¬(70 ≤ fld v 63 56 ∧ fld v 63 56 ≤ 105), no 0x7050),
       (.capWrite .host v, 600 ≤ fld v 47 32 ∧ fld v 47 32 ≤ 2700, fun t => Written s t [aPwrCtrl] ∧
          FieldsAre (regGet t aPwrCtrl) v [(47, 32), (31, 16)]),
       (.capWrite .host v, ¬(600 ≤ fld v 47 32 ∧ fld v 47 32 ≤ 2700), no 0x8031),
       (.keyWrite .host key, thermalRec s = some p ∧ at_ 8 4 p = key.toNat ∧ noClear, fun t => t = { s with
          reply := (0, []), sto := { s.sto with commits := s.sto.commits ++ [{ kind := 4, payload := [], clear := true, late := s.pins.powerLost }] } }),
       (.keyWrite .host key, thermalRec s = some p ∧ at_ 8 4 p ≠ key.toNat, no 0x7051),
       (.keyWrite .host key, thermalRec s = none, no 0x7051), (.keyWrite .mgmt key, True, no 0x7051),
       (.softWrite (.engine e) v, True, fun t => Refused s t 0x9027 0), (.capWrite (.engine e) v, True, fun t => Refused s t 0x9027 0),
       (.keyWrite (.engine e) key, True, fun t => Refused s t 0x9027 0),
       (.thermalHoldCleared, rbit s aThmHold 62 = true ∧ thermalRec s = none, fun t =>
          t = { s with regs := t.regs, rep := t.rep, free := t.free } ∧ OnlyRegs s t [aThmHold] ∧ rbit t aThmHold 63 = false ∧
          rbit t aThmHold 62 = false ∧ rf t aThmHold 39 32 = 0 ∧ Says s t 0x7041 0x7008),
       (.thermalHoldCleared, ¬(rbit s aThmHold 62 = true ∧ thermalRec s = none), fun t => t = s)]

/-! ### Boot, flash records and trust (chapter 16) -/

/-- R454, R458, R459, R466, R467, Table 16.4: what still waits is committed first; then the boot ROM runs the image that BOOT names,
    or the other where that one fails; a trial image is marked as tried; one tried and never confirmed is reverted; with no image it
    enters RECOVERY. That the commits which still wait are done before the boot's own is the model's choice (log entry 93);
    SLH-DSA and SHAKE256 stand as FIPS 205 and 202 give them (PRESUMED, log entry 110). -/
def Obligations.BootSequence : Prop :=
  ∀ (s : State) (b : BootIn),
    let ready := s.pins.core = true ∧ s.pins.pwrGood = true ∧ rf s aVrxState 63 60 = 0
    let z := allCommits s
    let act := (bootRec z).1
    let good (k : Nat) : Prop := imageCode z (slotImage z k) = 0
    let key := b.pufOk = true ∧ idKey b.seed = Config.leafKey Config.certs
    let first := (bootRec z).2.1 = 0 ∧ act < 2
    let again := (bootRec z).2.1 = 1 ∧ (bootRec z).2.2 = 0 ∧ act < 2
    let revert := (bootRec z).2.1 = 1 ∧ (bootRec z).2.2 = 1 ∧ act < 2
    let same (t : State) : Prop := t.sto.flash = z.sto.flash ∧ t.sto.commits = [] ∧ t.drone = s.drone ∧
      (key → rbit t aSecStatus 63 = true ∧ t.sto.pubKey = idKey b.seed)
    Cases s
      [(.bootSequence b, ¬ready, fun t => t = s),
       (.bootSequence b, ready ∧ first ∧ good act, fun t => Runs z t act (minSvn z) false false ∧ same t),
       (.bootSequence b, ready ∧ first ∧ ¬good act ∧ good (1 - act), fun t => Runs z t (1 - act) (minSvn z) false false ∧ same t ∧
          SaysAmong z t (imageCode z (slotImage z act)) 0x21),
       (.bootSequence b, ready ∧ again ∧ good act, fun t => Runs z t act (minSvn z) true false ∧ recPayload t 1 = some (bootBytes act 1 1) ∧
          OtherRecords z t 1),
       (.bootSequence b, ready ∧ revert ∧ good (1 - act), fun t => Runs z t (1 - act) (minSvn z) false true ∧
          recPayload t 1 = some (bootBytes (1 - act) 0 0) ∧ OtherRecords z t 1 ∧ SaysAmong z t 0x9004 0x21),
       (.bootSequence b, ready ∧ first ∧ ¬good act ∧ ¬good (1 - act), fun t => rf t aVrxState 63 60 = 1 ∧ same t ∧ SaysAmong z t 0x9003 0x21 ∧
          SaysAmong z t (imageCode z (slotImage z act)) 0x21 ∧ SaysAmong z t (imageCode z (slotImage z (1 - act))) 0x21)]

/-- R457, R462, R463, R471, Table 16.8: once a commit is done the new payload is the current record of its kind and every other kind's record
    stands; clearing the THERMAL record leaves none uncleared. -/
def Obligations.RecordCommits : Prop :=
  (∀ (s : State) (c : Commit) (front rest : List Commit), s.pins.drone = true → s.sto.commits = front ++ c :: rest →
    (∀ d ∈ front, d.late = true) → c.late = false →
    let p := c.payload
    let lost := s.pins.powerLost = true
    Cases s
      [(.recordCommit, c.clear = false ∧ FitsSlot c.kind p ∧ c.kind ≠ 4, fun t => recPayload t c.kind = some p ∧ OtherRecords s t c.kind ∧
          t = { s with regs := t.regs, sto := t.sto } ∧ t.sto = { s.sto with commits := front ++ rest, flash := t.sto.flash } ∧
          OnlyRegs s t [aSecStatus, aVrxState] ∧ (c.kind = 2 → rf t aSecStatus 31 16 = leNat (p.take 2) % 65536) ∧
          (c.kind ≠ 2 → regGet t aSecStatus = regGet s aSecStatus) ∧
          rbit t aVrxState 58 = (rbit s aVrxState 58 && !(decide (c.kind = 1) && c.nvs && decide (p.getD 1 0 = 0)))),
       (.recordCommit, c.clear = false ∧ c.kind = 4 ∧ p.length = 4092, fun t => ∃ q, recPayload t 4 = some (q ++ natLE 4 (crc32 q)) ∧
          (∀ i < 4092, q.getD i 0 = if i = 0x1F ∧ lost then p.getD i 0 ||| 2 else p.getD i 0) ∧ q.length = 4092 ∧
          thermalRec t = recPayload t 4 ∧ OtherRecords s t 4 ∧ t.sto.commits = front ++ rest ∧ rbit t aThmHold 62 = true ∧
          rf t aThmHold 39 32 = (p.getD 0x1E 0).toNat ∧ rbit t aThmHold 63 = rbit s aThmHold 63),
       (.recordCommit, c.clear = true ∧ thermalRec s ≠ none, fun t => thermalRec t = none ∧ OtherRecords s t 4 ∧
          t = { s with sto := { s.sto with commits := front ++ rest, flash := t.sto.flash } })]) ∧
  ∀ s : State, (∀ c ∈ s.sto.commits, c.late = true) → exec .recordCommit s = .next s

/-- R454, R459 to R461, R472, Table 16.11: what each NVS command is refused for, what it does once accepted, and how it ends. An
    UPDATE leaves BOOT as it was until its commit. The model's choices (log entry 92): memory is read as a command starts, MINVER is
    verified under the running image's key, and READ of an absent record fails with 0x9_012; SLH-DSA stands as
    FIPS 205 gives it (PRESUMED, log entry 110). -/
def Obligations.NvsCommands : Prop :=
  ∀ (s : State) (kind : BitVec 8) (tile : TileId) (o : Nat) (bs : List Byte) (e : At) (ok : Bool) (a len k : Nat),
    let busy := rf s aNvsStatus 63 60 = 1
    let at_ := rf s aNvsAddr 47 0
    let n := rf s aNvsLen 31 0
    let store := 0x020000000000 + tile.toNat * 0x40000 + o
    let ready := rf s aVrxState 63 60 ≠ 1 ∧ ¬busy
    let mapped (m : Nat) : Prop := areaOf at_ m ≠ none
    let holds (m : Nat) : Prop := at_ = store ∧ o + m ≤ 0x40000 ∧ 0 < m ∧ Awake s tile.toNat ∧ rdBytes s.mem store m = bs
    let late := s.pins.powerLost
    let upd := rbit s aNvsCtrl 1 = true
    let cal := rbit s aNvsCtrl 0 = true
    let calKind := 5 ≤ kind.toNat ∧ kind.toNat ≤ 11
    let item := kind.toNat ∈ [1, 2, 3, 4, 5, 6, 7, 8, 9, 10, 11, 16, 17, 18]
    let no (t : State) : Prop := Refused s t 0x9012 0x20
    let adds (t : State) (c : List Commit) : Prop := t.sto.commits = s.sto.commits ++ c ∧ t.sto.flash = s.sto.flash
    let act := (bootRec s).1
    let other := if act = 0 then 1 else 0
    let minOk := shake256 ((s.sto.image.drop 0x18).take 64) 32 = Config.imageKeyDigest ∧
      slhVerify slh256s ((s.sto.image.drop 0x18).take 64) (bs.take 64) (bs.drop 64) = true ∧
      leNat ((bs.drop 2).take 1) = rf s aParamId 47 40 ∧ minSvn s ≤ leNat (bs.take 2)
    let runs (op : Nat) (code : Nat) : Prop := s.sto.cmd = some (op, k, a, len) ∧ s.sto.cmdCode = code
    let settled := ∀ c ∈ s.sto.commits, c.nvs = false
    Cases s
      [(.update .host, ¬busy ∧ mapped n ∧ upd ∧ holds n ∧ imageCode s bs = 0, fun t => NvsStarts s t 1 0 0 ∧
          t.sto.commits = s.sto.commits ++ [{ kind := 1, payload := bootBytes other 1 0, late := late, nvs := true }] ∧
          (∀ i < 128 + leNat ((bs.drop 16).take 4) + 29792, flashByte t (other * 0x1000000 + i) = bs.getD i 0) ∧
          (∀ i < 0x1000000, flashByte t ((1 - other) * 0x1000000 + i) = flashByte s ((1 - other) * 0x1000000 + i)) ∧
          ∀ j, 1 ≤ j → j ≤ 11 → recPayload t j = recPayload s j),
       (.update .host, ¬busy ∧ mapped n ∧ upd ∧ holds n ∧ imageCode s bs ≠ 0, fun t => NvsStarts s t 1 0 0x9010 ∧ adds t []),
       (.update .host, busy ∨ ¬mapped n ∨ ¬upd, no), (.update (.engine e), True, fun t => Refused s t 0x9028 0x21),
       (.confirm .host, ready ∧ (bootRec s).2.1 = 1, fun t => NvsStarts s t 2 0 0 ∧
          adds t [{ kind := 1, payload := bootBytes act 0 0, late := late, nvs := true }]),
       (.confirm .host, ready ∧ (bootRec s).2.1 ≠ 1, fun t => NvsStarts s t 2 0 0 ∧ adds t []),
       (.confirm .host, rf s aVrxState 63 60 ≠ 1 ∧ busy, no), (.confirm .host, rf s aVrxState 63 60 = 1, fun t => Refused s t 0x9005 0x21),
       (.confirm (.engine e), True, fun t => Refused s t 0x9028 0x21),
       (.minver .host, ready ∧ upd ∧ holds 29856 ∧ minOk, fun t => NvsStarts s t 3 0 0 ∧ adds t [{ kind := 2, payload := bs, late := late, nvs := true }]),
       (.minver .host, ready ∧ upd ∧ holds 29856 ∧ ¬minOk, fun t => NvsStarts s t 3 0 0x9011 ∧ adds t []),
       (.minver .host, rf s aVrxState 63 60 ≠ 1 ∧ (busy ∨ ¬upd ∨ ¬mapped 29856), no),
       (.minver .host, rf s aVrxState 63 60 = 1, fun t => Refused s t 0x9005 0x21), (.minver (.engine e), True, fun t => Refused s t 0x9028 0x21),
       (.calwr .host kind, ready ∧ cal ∧ calKind ∧ holds 1168, fun t => NvsStarts s t 4 kind.toNat 0 ∧
          adds t [{ kind := kind.toNat, payload := bs, late := late, nvs := true }]),
       (.calwr .host kind, rf s aVrxState 63 60 ≠ 1 ∧ (busy ∨ ¬cal ∨ ¬calKind ∨ ¬mapped 1168), no),
       (.calwr .host kind, rf s aVrxState 63 60 = 1, fun t => Refused s t 0x9005 0x21),
       (.calwr (.engine e) kind, True, fun t => Refused s t 0x9028 0x21),
       (.read .host kind, ready ∧ item ∧ mapped n ∧ readItem s kind.toNat = some bs ∧ bs.length ≤ n, fun t =>
          NvsStarts s t 5 kind.toNat 0 ∧ adds t []),
       (.read .host kind, ready ∧ item ∧ mapped n ∧ readItem s kind.toNat = some bs ∧ n < bs.length, fun t =>
          NvsStarts s t 5 kind.toNat 0x9012 ∧ adds t []),
       (.read .host kind, ready ∧ item ∧ mapped n ∧ readItem s kind.toNat = none, fun t => NvsStarts s t 5 kind.toNat 0x9012 ∧ adds t []),
       (.read .host kind, rf s aVrxState 63 60 ≠ 1 ∧ (busy ∨ ¬item ∨ ¬mapped n), no),
       (.read .host kind, rf s aVrxState 63 60 = 1, fun t => Refused s t 0x9005 0x21),
       (.read (.engine e) kind, True, fun t => Refused s t 0x9028 0x21),
       (.nvsCommandDone ok, s.sto.cmd = none, fun t => t = s),
       (.nvsCommandDone ok, runs 5 0 ∧ settled ∧ readItem s k = some bs ∧ a = store ∧ 0 < bs.length ∧ o + bs.length ≤ 0x40000 ∧ Awake s tile.toNat,
          fun t => ∃ y, MemBecomes s y store bs ∧ y = { s with mem := y.mem } ∧ NvsEnds y t 0 bs.length),
       (.nvsCommandDone true, (runs 1 0 ∨ runs 2 0 ∨ runs 3 0 ∨ runs 4 0) ∧ settled, fun t => ∃ d, NvsEnds s t 0 d ∧
          (runs 1 0 → d = len) ∧ (runs 2 0 → d = 0) ∧ (runs 3 0 → d = 29856) ∧ (runs 4 0 → d = 1168)),
       (.nvsCommandDone true, (runs 1 0 ∨ runs 2 0 ∨ runs 3 0 ∨ runs 4 0) ∧ ¬settled, fun t => t = s),
       (.nvsCommandDone false, runs 1 0 ∨ runs 2 0 ∨ runs 3 0 ∨ runs 4 0, fun t => NvsEnds s t 0x9050 0),
       (.nvsCommandDone ok, ∃ op code, runs op code ∧ (code = 0x9010 ∨ code = 0x9011 ∨ code = 0x9012), fun t => NvsEnds s t s.sto.cmdCode 0)]

/-- R465, R466, R468, R469, R472, Table 16.12: extensions, quotes and the lock. That the snapshot shows QBUSY 1 is the model's
    choice (log entry 94), as the free randomness of the signature is (log entry 159); SLH-DSA and SHAKE256 stand as FIPS
    205 and 202 give them (PRESUMED, log entry 110). -/
def Obligations.TrustCommands : Prop :=
  ∀ (s : State) (sel : Bool) (tile : TileId) (o : Nat) (bs : List Byte) (e : At),
    bit (regGet s aSecCtrl) 6 = false → bit (regGet s aSecCtrl) 7 = false →
    let w := regGet s aSecCtrl
    let digest := (List.range 8).flatMap (fun k => wordLE (regGet s (aSecExtd k)))
    let a := rf s aSecQaddr 47 0
    let store := 0x020000000000 + tile.toNat * 0x40000 + o
    let fits := (a + 36064 ≤ 576 * 2 ^ 30) ∨ ∃ t < 8192, 0x020000000000 + t * 0x40000 ≤ a ∧ a + 36064 ≤ 0x020000000000 + (t + 1) * 0x40000
    let may := rbit s aSecStatus 63 = true ∧ rbit s aSecStatus 62 = false ∧ fits
    let whole := (∀ i < 4, (measOf s i).length = 64) ∧ s.sto.pubKey.length = 48
    let part (n k : Nat) (b : List Byte) : List Byte := (b.drop n).take k
    Cases s
      [(.ext .host sel, True, fun t => t = { s with reply := (0, []), regs := t.regs, sto := { s.sto with meas := t.sto.meas } } ∧
          OnlyRegs s t [aSecCtrl] ∧ FieldsAre (regGet t aSecCtrl) w [(1, 1), (0, 0)] ∧ rbit t aSecCtrl 5 = sel ∧
          ∀ i < 4, measOf t i = if i = (if sel then 3 else 2) then shake256 (measOf s i ++ digest) 64 else measOf s i),
       (.ext .mgmt sel, True, fun t => t = { s with reply := (0, []), regs := t.regs } ∧ OnlyRegs s t [aSecCtrl] ∧
          FieldsAre (regGet t aSecCtrl) w [(1, 1), (0, 0)] ∧ rbit t aSecCtrl 5 = sel),
       (.quote .host, may ∧ whole, fun t => ∃ b st, t.sto = { s.sto with quote := some (a, b) } ∧
          t = { s with reply := (0, []), regs := t.regs, rep := t.rep, free := t.free, sto := t.sto } ∧ t.rep.raised = s.rep.raised ∧
          OnlyRegs s t [aSecCtrl, aSecStatus] ∧ rbit t aSecStatus 62 = true ∧ b.length = 0x190 ∧
          part 0 4 b = natLE 4 0x51544F51 ∧ part 4 2 b = natLE 2 1 ∧
          part 6 2 b = natLE 2 (if idValid s = true then moduleId s else 0) ∧ part 8 8 b = wordLE st ∧
          (∀ k < 4, part (0x10 + 8 * k) 8 b = wordLE (regGet s (aSecNonce k))) ∧ part 0x30 8 b = flashRead s 0x2000000 8 ∧
          (∀ i < 4, part (0x40 + 64 * i) 64 b = measOf s i) ∧ part 0x140 8 b = wordLE (regGet s aParamId) ∧
          part 0x148 8 b = wordLE (regGet t aSecCtrl) ∧ part 0x150 8 b = wordLE (regGet t aSecStatus) ∧
          part 0x158 8 b = wordLE (regGet s aVrxState) ∧ part 0x160 48 b = s.sto.pubKey),
       (.quote .host, ¬may, fun t => t = { s with reply := (0x9031, []), regs := t.regs, rep := t.rep, free := t.free } ∧ OnlyRegs s t [] ∧
          Says s t 0x9031 0x21),
       (.lock .host, True, fun t => Written s t [aSecCtrl] ∧ rbit t aSecCtrl 0 = true ∧ FieldsAre (regGet t aSecCtrl) w [(5, 5), (1, 1)]),
       (.quoteDone, s.sto.quote = some (store, bs) ∧ bs.length = 0x190 ∧ o + 36064 ≤ 0x40000 ∧ Awake s tile.toNat, fun t => ∃ y rnd sig,
          rnd.length = 24 ∧ sig = slhSign slh192f (s.sto.secret.take 24) (s.sto.secret.drop 24) (s.sto.pubKey.take 24) rnd bs ∧
          sig.length = 35664 ∧ MemBecomes s y store (bs ++ sig) ∧ y = { s with mem := y.mem } ∧
          t = { y with sto := { s.sto with quote := none }, regs := t.regs, rep := t.rep, free := t.free } ∧ OnlyRegs s t [aSecStatus] ∧
          rbit t aSecStatus 62 = false ∧ rbit t aSecStatus 61 = true ∧ Says s t 0x9032 0x21),
       (.quoteDone, s.sto.quote = none, fun t => t = s),
       (.ext (.engine e) sel, True, fun t => Refused s t 0x9028 0x21), (.quote (.engine e), True, fun t => Refused s t 0x9028 0x21),
       (.lock (.engine e), True, fun t => Refused s t 0x9028 0x21)]

/-! ### Standby (chapter 16), reports and health checks (chapter 17), register writes and time (chapters 00 and 02) -/

/-- R448 to R450: what refuses a standby, how one is entered and how the wake time ends it. -/
def Obligations.Standby : Prop :=
  ∀ (s : State) (v : Word) (e : At), rf s aVrxState 63 60 ≠ 1 → twf {} s.tile = true →
    let mode := fld v 62 61
    let soon := bit v 60 = true ∧ ticksUntil s (fld v 51 0) < 25000
    let may := (mode = 1 ∨ mode = 2) ∧ AllIdle s ∧ ¬soon
    let asleep := rf s aVrxState 63 60 = 3
    let deep := rf s aVrxStby 62 61 = 2
    let due := asleep ∧ s.pins.core = false ∧ rbit s aVrxStby 60 = true ∧ ticksUntil s (rf s aVrxStby 51 0) ≤ 0
    let unpaired := ∀ k < 16, rbit s (aMgtPairCtrl k) 63 = false
    let p := s.pins
    Cases s
      [(.standbyGo .host v, may, fun t => Written s t [aVrxStby, aVrxState] ∧ rf t aVrxState 63 60 = 3 ∧
          FieldsAre (regGet t aVrxStby) v [(62, 61), (60, 60), (51, 0)] ∧ FieldsAre (regGet t aVrxState) (regGet s aVrxState) [(59, 0)]),
       (.standbyGo .host v, ¬may, fun t => Refused s t 0x8040 0), (.standbyGo (.engine e) v, True, fun t => Refused s t 0x9028 0x21),
       (.standbyEntered, asleep ∧ p.core = true ∧ ListedOnce s ∧ s.cache = [] ∧ (∀ c, (getChan s c).wc = []) ∧ s.rep.kept = [] ∧ s.rep.raised = [] ∧
            rf s aHlStatus 15 0 = 0, fun t =>
          t.pins = { p with core := false, pwrGood := false, want := false } ∧ t.mem = [] ∧ t.hold = [] ∧ t.reed = [] ∧ t.cache = [] ∧
          (∀ n, getTile t n = { bank := (getTile s n).bank }) ∧ (t.dev = if deep then [] else s.dev) ∧ t.rep.raised = [] ∧
          (∃ r, r.code = 0x8041#16 ∧ r.unit = 0 ∧ (r ∈ t.rep.sent ∨ r ∈ t.rep.kept) ∧ (unpaired →
            if hlUpNow s = true ∧ (evtTail s + 65536 - evtHead s) % 65536 < ringSlots (rf s aHlEvtRing 55 52) then r ∈ t.rep.sent
            else r ∈ t.rep.kept)) ∧
          (∀ d < 128, rf t (aPwrDom d) 63 62 = if d < 112 ∨ deep then 1 else rf s (aPwrDom d) 63 62) ∧ t.drone = s.drone ∧
          t.sto = s.sto ∧ rf t aVrxState 63 60 = 3),
       (.standbyEntered, ¬asleep ∨ p.core = false, fun t => t = s),
       (.wakeTime, due ∧ ListedOnce s ∧ NoCommand s ∧ CoreMay s p, fun t => t.pins = { p with core := true, want := true } ∧
          rf t aVrxState 63 60 = 0 ∧ rf t aVrxState 55 52 = 1 + rf s aVrxStby 62 61 ∧
          (t.dev = if rf s aVrxStby 62 61 = 1 then s.dev else []) ∧ CoreEmpty { s with dev := [] } { t with dev := [] } ∧
          ResetWhere s t (fun _ a => !(a == aVrxState || a == aThmHold)) codeM ∧ t.drone.tick = s.drone.tick ∧
          t.drone.everAligned = s.drone.everAligned ∧ t.drone.slew = 0 ∧ t.sto.flash = s.sto.flash ∧
          t.sto.meas = [] ∧ t.thm = { hist := s.thm.hist, govHist := s.thm.govHist } ∧ (AlertStands t 2 → t.mgt.alert = true)),
       (.wakeTime, ¬due, fun t => t = s)]

/-- R481, R483, R485 to R491, R495, R496: coalescing windows, notices, Chatter and pairs. -/
def Obligations.HealthChecks : Prop :=
  ∀ (s : State) (peer code : BitVec 16) (w : Window) (w1 w2 : List Window) (v : Word) (slot p : BitVec 4) (e : At) (run : Chat)
    (t1 t2 : List ChatTile) (ct : ChatTile) (o : Nat),
    rf s aVrxState 63 60 ≠ 1 →
    let open_ := s.rep.windows = w1 ++ w :: w2 ∧ Covers w peer.toNat code.toNat ∧ ∀ x ∈ w1 ++ w2, ¬Covers x peer.toNat code.toNat
    let n := fld v 51 48
    let post : Word := 2 ^ 63 + (v &&& 0x4000FFFF0000FFFF#64)
    let ts := if bit v 62 = true then grpMembers (regGet s (aTileGrp (fld v 53 48))) else [fld v 12 0]
    let a := rf s aMgtChata 47 0
    let areaOk := a % 32 = 0 ∧ (a + 32 * ts.length ≤ 576 * 2 ^ 30 ∨
      ∃ u < 8192, u ∉ ts ∧ 0x020000000000 + u * 0x40000 ≤ a ∧ a + 32 * ts.length ≤ 0x020000000000 + (u + 1) * 0x40000)
    let known := bit v 57 = true → bit v 56 = true → katAnswer s v ≠ none
    let may := s.chat = none ∧ fld v 61 58 ≤ 5 ∧ fld v 47 32 ≠ 0 ∧ ts ≠ [] ∧ (bit v 62 = true → rbit s (aTileGrp (fld v 53 48)) 63 = true) ∧
      (∀ t ∈ ts, ChatFree s t) ∧ areaOk ∧ known
    let alone := ∀ x ∈ s.chn.colls, x.ended = true
    let kernel := Config.kernel s.sto.image (fld v 61 58)
    let bank (u : Nat) : Nat := imemBase + u * 0x8000 + if (getTile s u).bank = true then 0 else 0x4000
    let pair := aMgtPairCtrl p.toNat
    let ta := fld v 12 0
    let tb := fld v 28 16
    let free (t : Nat) : Prop := (∀ e < 4, ((getTile s t).engine e).phase = .idle ∧ ((getTile s t).engine e).queue = [] ∧
      ((getTile s t).engine e).running = none ∧ ((getTile s t).engine e).xfers = []) ∧ (getTile s t).chatter = false ∧
      ∀ q < 16, q ≠ p.toNat → pairHas s q t = false
    let mayPair := ta ≠ tb ∧ fld v 62 60 ≠ 0 ∧ free ta ∧ free tb
    let store := 0x020000000000 + o
    Cases s
      [(.remoteWindowEnd peer code, open_ ∧ 0 < w.count, fun t =>
          t = { s with rep := t.rep, free := t.free, regs := t.regs } ∧ t.rep.windows = w1 ++ w2 ∧ OnlyRegs s t [aMgtStorm] ∧
          rf t aMgtStorm 15 8 = (w1 ++ w2).length % 256 ∧ ∃ r, t.rep.raised = s.rep.raised ++ [r] ∧ r.code = code ∧ r.peer = peer.toNat ∧
          r.unit = 0 ∧ r.remote = true ∧ r.coal = true ∧ r.count = w.count ∧ r.a2 = w.first ∧ r.a3 = w.last),
       (.remoteWindowEnd peer code, open_ ∧ w.count = 0, fun t => t = { s with rep := { s.rep with windows := w1 ++ w2 }, regs := t.regs } ∧
          OnlyRegs s t [aMgtStorm] ∧ rf t aMgtStorm 15 8 = (w1 ++ w2).length % 256),
       (.remoteWindowEnd peer code, ∀ x ∈ s.rep.windows, ¬Covers x peer.toNat code.toNat, fun t => t = s),
       (.kfnPost .host v, ∀ x ∈ s.rep.windows, ¬(x.peer = fld v 15 0 ∧ (bit v 62 = true ∨ x.code.toNat = fld v 47 32)), fun t =>
          Written s t [aMgtKfns n] ∧ regGet t (aMgtKfns n) = post),
       (.kfnPost .host v, open_ ∧ w1 = [] ∧ w2 = [] ∧ w.count = 0 ∧ peer.toNat = fld v 15 0 ∧ (bit v 62 = true ∨ code.toNat = fld v 47 32),
          fun t => t.rep.windows = [] ∧ t.rep.raised = s.rep.raised ∧ regGet t (aMgtKfns n) = post),
       (.kfnWithdraw .host slot, True, fun t => Written s t [aMgtKfns slot.toNat] ∧ regGet t (aMgtKfns slot.toNat) = 0),
       (.chatterGo .host v, may ∧ alone, fun t => t.reply = (0, []) ∧ rf t aMgtChats 63 62 = 1 ∧ rf t aMgtChats 31 16 = 0 ∧
          rf t aMgtChats 15 0 = ts.length ∧ FieldsAre (regGet t aMgtChatc) v [(62, 62), (61, 58), (57, 57), (56, 56), (53, 48), (47, 32), (31, 16), (12, 0)] ∧
          (∃ r, t.chat = some r ∧ r.tiles.map (fun x => x.tile) = ts ∧ ∀ x ∈ r.tiles, x.done = false) ∧
          (∀ u ∈ ts, (getTile t u).chatter = true ∧ (getTile t u).sem = [] ∧ (getTile t u).acc = []) ∧
          (bit v 57 = true → bit v 56 = true → katAnswer s v = some (regGet t aMgtChatx)) ∧ t.rep.raised = s.rep.raised ∧
          (∀ u ∈ ts, ∀ i < Nat.min 0x4000 kernel.length, rdByte t.mem (bank u + i) = kernel.getD i 0) ∧
          ∀ x, (∀ u ∈ ts, x < bank u ∨ bank u + 0x4000 ≤ x) → rdByte t.mem x = rdByte s.mem x),
       (.chatterGo .host v, ¬may ∧ ts ≠ [], fun t => Refused s t 0x10C2 (openUnit 0x10C2)),
       (.chatterTileDone (BitVec.ofNat 13 ct.tile) false, s.chat = some run ∧ run.tiles = t1 ++ ct :: t2 ∧ ct.done = false ∧ ct.tile < 8192 ∧
            (∀ x ∈ t1 ++ t2, x.tile ≠ ct.tile) ∧ (getTile s ct.tile).chatter = true ∧ dieIsolated s (dieOf ct.tile) = false ∧
            bit run.req 57 = false ∧ a = store ∧ o + 32 * (t1.length + 1) ≤ 0x40000 ∧ ct.tile ≠ 0 ∧ Awake s 0 ∧ (∃ x ∈ t1 ++ t2, x.done = false),
          fun t => (∃ r, t.chat = some r ∧ r.tiles = t1 ++ { ct with done := true } :: t2 ∧ r.req = run.req) ∧
          (getTile t ct.tile).chatter = false ∧ (getTile t ct.tile).bank = (getTile s ct.tile).bank ∧ (getTile t ct.tile).sem = [] ∧
          (∀ u, u ≠ ct.tile → getTile t u = getTile s u) ∧ t.rep.raised = s.rep.raised ∧
          rdBytes t.mem (store + 32 * t1.length) 8 = wordLE (Config.chatterSig s.sto.image (chatKey s run.req)) ∧
          rdBytes t.mem (store + 32 * t1.length + 8) 3 = natLE 2 ct.tile ++ [BitVec.ofNat 8 ct.level] ∧
          rdBytes t.mem (store + 32 * t1.length + 16) 8 = List.replicate 8 0 ∧
          (∀ u off, u < 8192 → off < 0x40000 → u ≠ 0 → u ≠ ct.tile →
            rdByte t.mem (0x020000000000 + u * 0x40000 + off) = rdByte s.mem (0x020000000000 + u * 0x40000 + off)) ∧
          ∀ off < 0x40000, off < o + 32 * t1.length ∨ o + 32 * t1.length + 32 ≤ off →
            rdByte t.mem (0x020000000000 + off) = rdByte s.mem (0x020000000000 + off)),
       (.chatterTileDone 0 false, s.chat = none, fun t => t = s),
       (.pairEnable .host p v, bit v 63 = true ∧ mayPair, fun t => t.reply = (0, []) ∧
          t = { s with reply := t.reply, regs := t.regs, tile := t.tile } ∧ OnlyRegs s t [pair] ∧
          FieldsAre (regGet t pair) v [(63, 63), (62, 60), (28, 16), (12, 0)] ∧
          (∀ u k, k < 4 → (getTile t u).engine k =
            if (u = ta ∨ u = tb) ∧ 0 < k ∧ bit v (59 + k) = true then { (getTile s u).engine k with sig := BitVec.allOnes 64, snaps := [], done := 0 }
            else (getTile s u).engine k)),
       (.pairEnable .host p v, bit v 63 = true ∧ ¬mayPair, fun t => Refused s t 0x10D1 (openUnit 0x10D1)),
       (.pairEnable .host p v, bit v 63 = false, fun t => Written s t [pair] ∧ FieldsAre (regGet t pair) v [(63, 63), (62, 60), (28, 16), (12, 0)]),
       (.kfnPost (.engine e) v, True, fun t => Refused s t 0x902A 0), (.kfnWithdraw (.engine e) slot, True, fun t => Refused s t 0x902A 0),
       (.chatterGo (.engine e) v, True, fun t => Refused s t 0x902A 0), (.pairEnable (.engine e) p v, True, fun t => Refused s t 0x902A 0)]

/-- R9 to R11, R469, R472, R496, Table 0.6: a register write by the types of its fields, shown on registers that no rule treats apart: the
    RW fields take the value, the others stand; reserved offsets and addresses off the map; what LOCK does to an RWL field. -/
def Obligations.RegisterWrites : Prop :=
  ∀ (s : State) (v : Word) (a : BitVec 48) (e : At) (k : Nat), rf s aVrxState 63 60 ≠ 1 →
    let w (n : Nat) (t : State) (fs : List (Nat × Nat)) : Prop := Written s t [n] ∧ FieldsAre (regGet t n) v fs
    let locked := rbit s aSecCtrl 0 = true
    let ctrl := regGet s aNvsCtrl
    let changes := fld v 1 0 ≠ fld ctrl 1 0
    let clears := regGet s (aMgtPairStat k)
    let at_ (n : Nat) : Prop := a.toNat = n
    Cases s
      [(.registerWrite .host a v, at_ aNvsAddr, fun t => w aNvsAddr t [(47, 0)]), (.registerWrite .host a v, at_ aNvsLen, fun t => w aNvsLen t [(31, 0)]),
       (.registerWrite .host a v, at_ aSecQaddr, fun t => w aSecQaddr t [(47, 0)]), (.registerWrite .mgmt a v, at_ aMgtFmHi, fun t => w aMgtFmHi t [(63, 0)]),
       (.registerWrite .host a v, at_ (aMgtDly k) ∧ k < 6, fun t => w (aMgtDly k) t [(63, 63), (31, 0)]),
       (.registerWrite .host a v, at_ (aSecNonce k) ∧ k < 4, fun t => w (aSecNonce k) t [(63, 0)]),
       (.registerWrite .host a v, at_ aMgtStorm, fun t => Written s t [aMgtStorm] ∧ rf t aMgtStorm 47 32 = fld v 47 32 ∧
          FieldsAre (regGet t aMgtStorm) (regGet s aMgtStorm) [(31, 16), (15, 8)]),
       (.registerWrite .host a v, at_ (aMgtPairStat k) ∧ k < 16, fun t => Written s t [aMgtPairStat k] ∧
          (bit (regGet t (aMgtPairStat k)) 63 = true ↔ bit clears 63 = true ∧ bit v 63 = false) ∧
          FieldsAre (regGet t (aMgtPairStat k)) clears [(62, 61), (31, 0)]),
       (.registerWrite .host a v, at_ aVrxState ∨ at_ aNvsStatus ∨ at_ aPwrStatus ∨ at_ (aThmDie 3), fun t => Written s t []),
       (.registerWrite .host a v, at_ aNvsCtrl ∧ ¬locked, fun t => w aNvsCtrl t [(1, 1), (0, 0)]),
       (.registerWrite .host a v, at_ aNvsCtrl ∧ locked ∧ ¬changes, fun t => Written s t []),
       (.registerWrite .host a v, at_ aNvsCtrl ∧ locked ∧ changes, fun t => t = { s with reply := (0x9020, []), regs := t.regs, rep := t.rep, free := t.free } ∧
          OnlyRegs s t [] ∧ Says s t 0x9020 0x21),
       (.registerWrite (.engine e) a v, at_ aNvsAddr ∨ at_ aSecQaddr ∨ at_ aNvsCtrl, fun t => Refused s t 0x9028 0x21),
       (.registerWrite .host a v, at_ (0x030016000000 + 0x28) ∨ at_ (0x030019000000 + 0x18), fun t => t = { s with reply := (0, []) }),
       (.registerWrite .host a v, a.toNat % 8 ≠ 0 ∧ 0x030016000000 ≤ a.toNat ∧ a.toNat < 0x030016000028, fun t => Refused s t 0x20F0 0),
       (.registerWrite .host a v, 0x030040000000 ≤ a.toNat, fun t => Refused s t 0x2001 0)]

/-- R39, R51 to R55, Tables 2.6 and 2.7: time-alignment frames, the offset of each, and what an exchange does to the counter and
    DRN_ALIGN. The model's choices: the root takes a target of 0, and a step moves the count and its part of a tick (log entry 58);
    FRAC of both stamps is of the link's router port (log entry 153). -/
def Obligations.TimeAlignment : Prop :=
  ∀ (s : State) (port : BitVec 3) (tx : Word),
    let p := port.toNat
    let quietly := s.drone.tick.toNat % 25000 ≠ 0 ∨ rbit s aMgtSite 62 = false
    let off : Int := (tx + BitVec.ofNat 64 (rf s (aMgtDly p) 31 0) - (takeStamp s (0x4000 + p)).1).toInt
    let alone := ∀ q, TakesPart s q → q = p
    let ranged (t : Int) : Int := if t < -102400 then -102400 else if 102400 < t then 102400 else t
    let rest := s.drone.offs = []
    let noted (t : State) : Prop := rf t aDrnAlign 45 40 = 2 ^ p ∧
      rf t aDrnAlign 31 0 = low 32 (if off < -(2 ^ 31 - 1) then -(2 ^ 31 - 1) else if 2 ^ 31 - 1 < off then 2 ^ 31 - 1 else off) ∧ t.drone.offs = [] ∧
      (rbit t aDrnAlign 63 = true ↔ (-1024 ≤ off ∧ off ≤ 1024 ∧ 15 ≤ s.drone.inRange) ∨ (aligned s = true ∧ -102400 ≤ off ∧ off ≤ 102400))
    Cases s
      [(.timeAlignmentFrameSend, quietly, fun t => t = s),
       (.timeAlignmentFrameSend, ¬quietly ∧ rest, fun t => t = { s with drone := { s.drone with sent := t.drone.sent }, rep := t.rep, free := t.free } ∧
          t.rep.raised = s.rep.raised ∧ t.drone.sent.length = s.drone.sent.length + ((List.range 6).filter (portUp s)).length ∧
          ∀ q < 6, portUp s q = true → ∃ (l : Nat) (st : Word), (q, l, timeBytes st) ∈ t.drone.sent ∧
            ((∃ k < 32, (rf s (aBelLanes q) 63 32).testBit k = true) → LowestLane s q l)),
       (.time port tx, ¬TakesPart s p, fun t => t = s),
       (.time port tx, TakesPart s p ∧ rest ∧ ¬alone, fun t => t = { s with drone := { s.drone with offs := [(p, off)] }, rep := t.rep, free := t.free } ∧
          t.rep.raised = s.rep.raised),
       (.time port tx, TakesPart s p ∧ rest ∧ alone ∧ rbit s aMgtSite 61 = false ∧ (s.drone.everAligned = true), fun t =>
          t.drone.tick = s.drone.tick ∧ t.drone.slew = ranged (off) ∧ t.drone.ran = 0 ∧ noted t ∧
          (rbit t aDrnAlign 61 = true ↔ ranged (off) = 102400 ∨ ranged (off) = -102400) ∧
          t.drone.inRange = (if -1024 ≤ off ∧ off ≤ 1024 then s.drone.inRange + 1 else 0)),
       (.time port tx, TakesPart s p ∧ rest ∧ alone ∧ rbit s aMgtSite 61 = false ∧ s.drone.everAligned = false, fun t => noted t ∧
          (102400 < off → t.drone.tick = s.drone.tick + BitVec.ofInt 52 ((s.drone.sub + off) / 4096) ∧
            t.drone.sub = (s.drone.sub + off) % 4096 ∧ t.drone.slew = 0 ∧ rf t aDrnAlign 55 48 = Nat.min 255 (rf s aDrnAlign 55 48 + 1) ∧ SaysAmong s t 0x40C1 (openUnit 0x40C1)) ∧
          (off ≤ 102400 → t.drone.tick = s.drone.tick ∧ t.drone.slew = ranged (off))),
       (.time port tx, TakesPart s p ∧ rest ∧ alone ∧ rbit s aMgtSite 61 = true, fun t => t.drone.tick = s.drone.tick ∧
          t.drone.slew = s.drone.slew ∧ rf t aDrnAlign 31 0 = 0)]

/-! ### Reset, idling, and what every step keeps -/

/-- R13, R36, R422, R452 and the Reset columns: the module at a cold start. The model's choices: which instant it is, with ALERT_N
    low (log entry 2), the empty queues (log entry 3), and erased flash (log entry 4). -/
def Obligations.ResetValues : Prop :=
  let s := State.reset
  s.pending = [] ∧ s.waits = [] ∧ s.drone.tick = 0 ∧ s.mgt.smbMask = 0xF ∧ s.mgt.alert = true ∧ (∀ a, regGet s a = resetAt a) ∧ (∀ a, rdByte s.mem a = 0) ∧ (∀ a, rdByte s.hold a = 0) ∧
  (∀ t e, lqState ((getTile s t).engine e) = 0 ∧ ((getTile s t).engine e).queue = []) ∧ (∀ t n, (getTile s t).semVal n = 0) ∧
  (∀ a, flashByte s a = 0xFF ∨ (0x2000000 ≤ a ∧ a < 0x2100000)) ∧
  rf s aPwrCtrl 47 32 = 2700 ∧ rf s aPwrCtrl 31 16 = 100 ∧ rf s aThmCtrl 63 56 = 105 ∧ rf s aMgtStorm 47 32 = 1000 ∧
  rbit s aDrnAlign 60 = true ∧ rf s aFabTimer 47 32 = 20 ∧ rf s aFabTimer 23 16 = 10 ∧ rf s aFabTimer 1 0 = 3 ∧
  (∀ d ∈ [0, 9, 63, 95, 127], rbit s (aPwrDom d) 0 = true ∧ rf s (aPwrDom d) 63 62 = 0) ∧
  (∀ b ∈ [0, 6], rf s (aBelRingT b 0) 47 24 = 0xF2A584) ∧ rf s (aBelXt 0 0) 15 0 = 0x4000 ∧ rf s (aBelXt 0 0) 31 16 = 0 ∧
  rf s (aHbmChCtrl 0) 23 8 = 64 ∧ rf s aVrxState 63 60 = 0

/-- The model's choice (log entry 13): on an empty queue a step is one cycle of the 25 MHz reference while the Drone domain has
    power. The count moves on by one tick, modulo 2^52 (R36, R39), and the shares of a slew add up to its target over 25,000
    cycles (R52); the root ends its slew (R54). Activations grow older (R427), each lane sends 7 13/16 cells of those queued
    (log entry 140), held work that nothing holds any longer goes on, and what only lasts to the end of its cycle ends: the abort of a lane, and of a
    Reed or DMA queue with nothing outstanding (R238, R392, R419; log entry 36). -/
def Obligations.EmptyQueueTicks : Prop :=
  (∀ (s : State), s.pending = [] →
    (s.pins.drone = false → step s = .next s) ∧
    (s.pins.drone = true → ∃ t, step s = .next (pumpWork t) ∧ (s.waits = [] → step s = .next t) ∧
      t = { s with drone := t.drone, cluster := t.cluster, ten := t.ten, chn := t.chn, regs := t.regs, hl := t.hl, fab := t.fab } ∧
      t.fab = { s.fab with laneQ := t.fab.laneQ } ∧
      (twf 0 s.fab.laneQ = true → ∀ j, tget 0 t.fab.laneQ j = tget 0 s.fab.laneQ j - 125) ∧
      (twf 0 s.hl.laneQ = true → ∀ j, tget 0 t.hl.laneQ j = tget 0 s.hl.laneQ j - 125) ∧
      (rbit s aMgtSite 61 = true → t.drone.slew = 0 ∧ t.drone.ran = 0) ∧
      (s.drone.slew = 0 → 0 ≤ s.drone.sub → s.drone.sub < 4096 → t.drone = { s.drone with tick := s.drone.tick + 1, ran := 0 }) ∧
      (∀ c, getCluster t c = { getCluster s c with
        acts := ((getCluster s c).acts.map (fun a => a + 1)).filter (fun a => decide (a ≤ 25)) }) ∧
      (∀ l, getLane t l = { getLane s l with aborting := false }) ∧ t.chn = { s.chn with lanes := t.chn.lanes } ∧
      (∀ n < 512, reedState t n = if reedState s n = 4 ∧ (getReed s n).blocks = [] then 0 else reedState s n) ∧
      (∀ q < 16, dqState t q = if dqState s q = 3 ∧ dqBusy s q = false then 0 else dqState s q) ∧
      OnlyRegs s t (aDrnAlign :: (List.range 512).map aReedStatus ++ (List.range 16).map aHlDqCtrl))) ∧
  ∀ (d e : Drone), d.ran = 0 → e = Nat.repeat Drone.cycle 25000 d →
    (((e.tick.toNat : Int) * 4096 + e.sub) - ((d.tick.toNat : Int) * 4096 + d.sub) - (25000 * 4096 + d.slew)) % 2 ^ 64 = 0 ∧ e.slew = 0

/-- Memory stands in canonical form after reset. The power pins are consistent after reset. -/
def Obligations.InvariantsStart : Prop :=
  (MemoryCanonical State.reset) ∧
  (PowerSafe State.reset)

/-- Every step keeps the memories in canonical form. -/
def Obligations.MemoryStays : Prop := ∀ s t, MemoryCanonical s → step s = .next t → MemoryCanonical t

/-- R24 to R28, R439, R447, R464: no step leaves the core stage running without power or through a trip, nor PWR_GOOD high without it. -/
def Obligations.PowerStays : Prop := ∀ s t, PowerSafe s → step s = .next t → PowerSafe t
end

