-- ==== Sys2Proof/Laws/State.lean ====
section
/-! SUPPORT. What each setter of the state leaves alone, one lemma per field. -/

namespace Sys2Proof.Machine

/-! ### regPut -/

@[simp] theorem regPut_pending (s : State) (a : Nat) (w : Word) : (regPut s a w).pending = s.pending := rfl
@[simp] theorem regPut_free (s : State) (a : Nat) (w : Word) : (regPut s a w).free = s.free := rfl
@[simp] theorem regPut_reply (s : State) (a : Nat) (w : Word) : (regPut s a w).reply = s.reply := rfl
@[simp] theorem regPut_mem (s : State) (a : Nat) (w : Word) : (regPut s a w).mem = s.mem := rfl
@[simp] theorem regPut_hold (s : State) (a : Nat) (w : Word) : (regPut s a w).hold = s.hold := rfl
@[simp] theorem regPut_dev (s : State) (a : Nat) (w : Word) : (regPut s a w).dev = s.dev := rfl
@[simp] theorem regPut_stale (s : State) (a : Nat) (w : Word) : (regPut s a w).stale = s.stale := rfl
@[simp] theorem regPut_bad (s : State) (a : Nat) (w : Word) : (regPut s a w).bad = s.bad := rfl
@[simp] theorem regPut_cache (s : State) (a : Nat) (w : Word) : (regPut s a w).cache = s.cache := rfl
@[simp] theorem regPut_chan (s : State) (a : Nat) (w : Word) : (regPut s a w).chan = s.chan := rfl
@[simp] theorem regPut_arb (s : State) (a : Nat) (w : Word) : (regPut s a w).arb = s.arb := rfl
@[simp] theorem regPut_waits (s : State) (a : Nat) (w : Word) : (regPut s a w).waits = s.waits := rfl
@[simp] theorem regPut_closing (s : State) (a : Nat) (w : Word) : (regPut s a w).closing = s.closing := rfl
@[simp] theorem regPut_tile (s : State) (a : Nat) (w : Word) : (regPut s a w).tile = s.tile := rfl
@[simp] theorem regPut_cluster (s : State) (a : Nat) (w : Word) : (regPut s a w).cluster = s.cluster := rfl
@[simp] theorem regPut_grpPush (s : State) (a : Nat) (w : Word) : (regPut s a w).grpPush = s.grpPush := rfl
@[simp] theorem regPut_grpCred (s : State) (a : Nat) (w : Word) : (regPut s a w).grpCred = s.grpCred := rfl
@[simp] theorem regPut_reed (s : State) (a : Nat) (w : Word) : (regPut s a w).reed = s.reed := rfl
@[simp] theorem regPut_drone (s : State) (a : Nat) (w : Word) : (regPut s a w).drone = s.drone := rfl
@[simp] theorem regPut_rep (s : State) (a : Nat) (w : Word) : (regPut s a w).rep = s.rep := rfl
@[simp] theorem regPut_fab (s : State) (a : Nat) (w : Word) : (regPut s a w).fab = s.fab := rfl
@[simp] theorem regPut_bell (s : State) (a : Nat) (w : Word) : (regPut s a w).bell = s.bell := rfl
@[simp] theorem regPut_lpLost (s : State) (a : Nat) (w : Word) : (regPut s a w).lpLost = s.lpLost := rfl
@[simp] theorem regPut_chn (s : State) (a : Nat) (w : Word) : (regPut s a w).chn = s.chn := rfl
@[simp] theorem regPut_ten (s : State) (a : Nat) (w : Word) : (regPut s a w).ten = s.ten := rfl
@[simp] theorem regPut_hl (s : State) (a : Nat) (w : Word) : (regPut s a w).hl = s.hl := rfl
@[simp] theorem regPut_mgt (s : State) (a : Nat) (w : Word) : (regPut s a w).mgt = s.mgt := rfl
@[simp] theorem regPut_pins (s : State) (a : Nat) (w : Word) : (regPut s a w).pins = s.pins := rfl
@[simp] theorem regPut_thm (s : State) (a : Nat) (w : Word) : (regPut s a w).thm = s.thm := rfl
@[simp] theorem regPut_sto (s : State) (a : Nat) (w : Word) : (regPut s a w).sto = s.sto := rfl
@[simp] theorem regPut_chat (s : State) (a : Nat) (w : Word) : (regPut s a w).chat = s.chat := rfl
@[simp] theorem regPut_route (s : State) (a : Nat) (w : Word) : (regPut s a w).route = s.route := rfl

/-! ### rset -/

@[simp] theorem rset_pending (s : State) (a hi lo v : Nat) : (rset s a hi lo v).pending = s.pending := rfl
@[simp] theorem rset_free (s : State) (a hi lo v : Nat) : (rset s a hi lo v).free = s.free := rfl
@[simp] theorem rset_reply (s : State) (a hi lo v : Nat) : (rset s a hi lo v).reply = s.reply := rfl
@[simp] theorem rset_mem (s : State) (a hi lo v : Nat) : (rset s a hi lo v).mem = s.mem := rfl
@[simp] theorem rset_hold (s : State) (a hi lo v : Nat) : (rset s a hi lo v).hold = s.hold := rfl
@[simp] theorem rset_dev (s : State) (a hi lo v : Nat) : (rset s a hi lo v).dev = s.dev := rfl
@[simp] theorem rset_stale (s : State) (a hi lo v : Nat) : (rset s a hi lo v).stale = s.stale := rfl
@[simp] theorem rset_bad (s : State) (a hi lo v : Nat) : (rset s a hi lo v).bad = s.bad := rfl
@[simp] theorem rset_cache (s : State) (a hi lo v : Nat) : (rset s a hi lo v).cache = s.cache := rfl
@[simp] theorem rset_chan (s : State) (a hi lo v : Nat) : (rset s a hi lo v).chan = s.chan := rfl
@[simp] theorem rset_arb (s : State) (a hi lo v : Nat) : (rset s a hi lo v).arb = s.arb := rfl
@[simp] theorem rset_waits (s : State) (a hi lo v : Nat) : (rset s a hi lo v).waits = s.waits := rfl
@[simp] theorem rset_closing (s : State) (a hi lo v : Nat) : (rset s a hi lo v).closing = s.closing := rfl
@[simp] theorem rset_tile (s : State) (a hi lo v : Nat) : (rset s a hi lo v).tile = s.tile := rfl
@[simp] theorem rset_cluster (s : State) (a hi lo v : Nat) : (rset s a hi lo v).cluster = s.cluster := rfl
@[simp] theorem rset_grpPush (s : State) (a hi lo v : Nat) : (rset s a hi lo v).grpPush = s.grpPush := rfl
@[simp] theorem rset_grpCred (s : State) (a hi lo v : Nat) : (rset s a hi lo v).grpCred = s.grpCred := rfl
@[simp] theorem rset_reed (s : State) (a hi lo v : Nat) : (rset s a hi lo v).reed = s.reed := rfl
@[simp] theorem rset_drone (s : State) (a hi lo v : Nat) : (rset s a hi lo v).drone = s.drone := rfl
@[simp] theorem rset_rep (s : State) (a hi lo v : Nat) : (rset s a hi lo v).rep = s.rep := rfl
@[simp] theorem rset_fab (s : State) (a hi lo v : Nat) : (rset s a hi lo v).fab = s.fab := rfl
@[simp] theorem rset_bell (s : State) (a hi lo v : Nat) : (rset s a hi lo v).bell = s.bell := rfl
@[simp] theorem rset_lpLost (s : State) (a hi lo v : Nat) : (rset s a hi lo v).lpLost = s.lpLost := rfl
@[simp] theorem rset_chn (s : State) (a hi lo v : Nat) : (rset s a hi lo v).chn = s.chn := rfl
@[simp] theorem rset_ten (s : State) (a hi lo v : Nat) : (rset s a hi lo v).ten = s.ten := rfl
@[simp] theorem rset_hl (s : State) (a hi lo v : Nat) : (rset s a hi lo v).hl = s.hl := rfl
@[simp] theorem rset_mgt (s : State) (a hi lo v : Nat) : (rset s a hi lo v).mgt = s.mgt := rfl
@[simp] theorem rset_pins (s : State) (a hi lo v : Nat) : (rset s a hi lo v).pins = s.pins := rfl
@[simp] theorem rset_thm (s : State) (a hi lo v : Nat) : (rset s a hi lo v).thm = s.thm := rfl
@[simp] theorem rset_sto (s : State) (a hi lo v : Nat) : (rset s a hi lo v).sto = s.sto := rfl
@[simp] theorem rset_chat (s : State) (a hi lo v : Nat) : (rset s a hi lo v).chat = s.chat := rfl
@[simp] theorem rset_route (s : State) (a hi lo v : Nat) : (rset s a hi lo v).route = s.route := rfl

/-! ### rsetb -/

@[simp] theorem rsetb_pending (s : State) (a i : Nat) (b : Bool) : (rsetb s a i b).pending = s.pending := rfl
@[simp] theorem rsetb_free (s : State) (a i : Nat) (b : Bool) : (rsetb s a i b).free = s.free := rfl
@[simp] theorem rsetb_reply (s : State) (a i : Nat) (b : Bool) : (rsetb s a i b).reply = s.reply := rfl
@[simp] theorem rsetb_mem (s : State) (a i : Nat) (b : Bool) : (rsetb s a i b).mem = s.mem := rfl
@[simp] theorem rsetb_hold (s : State) (a i : Nat) (b : Bool) : (rsetb s a i b).hold = s.hold := rfl
@[simp] theorem rsetb_dev (s : State) (a i : Nat) (b : Bool) : (rsetb s a i b).dev = s.dev := rfl
@[simp] theorem rsetb_stale (s : State) (a i : Nat) (b : Bool) : (rsetb s a i b).stale = s.stale := rfl
@[simp] theorem rsetb_bad (s : State) (a i : Nat) (b : Bool) : (rsetb s a i b).bad = s.bad := rfl
@[simp] theorem rsetb_cache (s : State) (a i : Nat) (b : Bool) : (rsetb s a i b).cache = s.cache := rfl
@[simp] theorem rsetb_chan (s : State) (a i : Nat) (b : Bool) : (rsetb s a i b).chan = s.chan := rfl
@[simp] theorem rsetb_arb (s : State) (a i : Nat) (b : Bool) : (rsetb s a i b).arb = s.arb := rfl
@[simp] theorem rsetb_waits (s : State) (a i : Nat) (b : Bool) : (rsetb s a i b).waits = s.waits := rfl
@[simp] theorem rsetb_closing (s : State) (a i : Nat) (b : Bool) : (rsetb s a i b).closing = s.closing := rfl
@[simp] theorem rsetb_tile (s : State) (a i : Nat) (b : Bool) : (rsetb s a i b).tile = s.tile := rfl
@[simp] theorem rsetb_cluster (s : State) (a i : Nat) (b : Bool) : (rsetb s a i b).cluster = s.cluster := rfl
@[simp] theorem rsetb_grpPush (s : State) (a i : Nat) (b : Bool) : (rsetb s a i b).grpPush = s.grpPush := rfl
@[simp] theorem rsetb_grpCred (s : State) (a i : Nat) (b : Bool) : (rsetb s a i b).grpCred = s.grpCred := rfl
@[simp] theorem rsetb_reed (s : State) (a i : Nat) (b : Bool) : (rsetb s a i b).reed = s.reed := rfl
@[simp] theorem rsetb_drone (s : State) (a i : Nat) (b : Bool) : (rsetb s a i b).drone = s.drone := rfl
@[simp] theorem rsetb_rep (s : State) (a i : Nat) (b : Bool) : (rsetb s a i b).rep = s.rep := rfl
@[simp] theorem rsetb_fab (s : State) (a i : Nat) (b : Bool) : (rsetb s a i b).fab = s.fab := rfl
@[simp] theorem rsetb_bell (s : State) (a i : Nat) (b : Bool) : (rsetb s a i b).bell = s.bell := rfl
@[simp] theorem rsetb_lpLost (s : State) (a i : Nat) (b : Bool) : (rsetb s a i b).lpLost = s.lpLost := rfl
@[simp] theorem rsetb_chn (s : State) (a i : Nat) (b : Bool) : (rsetb s a i b).chn = s.chn := rfl
@[simp] theorem rsetb_ten (s : State) (a i : Nat) (b : Bool) : (rsetb s a i b).ten = s.ten := rfl
@[simp] theorem rsetb_hl (s : State) (a i : Nat) (b : Bool) : (rsetb s a i b).hl = s.hl := rfl
@[simp] theorem rsetb_mgt (s : State) (a i : Nat) (b : Bool) : (rsetb s a i b).mgt = s.mgt := rfl
@[simp] theorem rsetb_pins (s : State) (a i : Nat) (b : Bool) : (rsetb s a i b).pins = s.pins := rfl
@[simp] theorem rsetb_thm (s : State) (a i : Nat) (b : Bool) : (rsetb s a i b).thm = s.thm := rfl
@[simp] theorem rsetb_sto (s : State) (a i : Nat) (b : Bool) : (rsetb s a i b).sto = s.sto := rfl
@[simp] theorem rsetb_chat (s : State) (a i : Nat) (b : Bool) : (rsetb s a i b).chat = s.chat := rfl
@[simp] theorem rsetb_route (s : State) (a i : Nat) (b : Bool) : (rsetb s a i b).route = s.route := rfl

/-! ### rorb -/

@[simp] theorem rorb_pending (s : State) (a : Nat) (w : Word) : (rorb s a w).pending = s.pending := rfl
@[simp] theorem rorb_free (s : State) (a : Nat) (w : Word) : (rorb s a w).free = s.free := rfl
@[simp] theorem rorb_reply (s : State) (a : Nat) (w : Word) : (rorb s a w).reply = s.reply := rfl
@[simp] theorem rorb_mem (s : State) (a : Nat) (w : Word) : (rorb s a w).mem = s.mem := rfl
@[simp] theorem rorb_hold (s : State) (a : Nat) (w : Word) : (rorb s a w).hold = s.hold := rfl
@[simp] theorem rorb_dev (s : State) (a : Nat) (w : Word) : (rorb s a w).dev = s.dev := rfl
@[simp] theorem rorb_stale (s : State) (a : Nat) (w : Word) : (rorb s a w).stale = s.stale := rfl
@[simp] theorem rorb_bad (s : State) (a : Nat) (w : Word) : (rorb s a w).bad = s.bad := rfl
@[simp] theorem rorb_cache (s : State) (a : Nat) (w : Word) : (rorb s a w).cache = s.cache := rfl
@[simp] theorem rorb_chan (s : State) (a : Nat) (w : Word) : (rorb s a w).chan = s.chan := rfl
@[simp] theorem rorb_arb (s : State) (a : Nat) (w : Word) : (rorb s a w).arb = s.arb := rfl
@[simp] theorem rorb_waits (s : State) (a : Nat) (w : Word) : (rorb s a w).waits = s.waits := rfl
@[simp] theorem rorb_closing (s : State) (a : Nat) (w : Word) : (rorb s a w).closing = s.closing := rfl
@[simp] theorem rorb_tile (s : State) (a : Nat) (w : Word) : (rorb s a w).tile = s.tile := rfl
@[simp] theorem rorb_cluster (s : State) (a : Nat) (w : Word) : (rorb s a w).cluster = s.cluster := rfl
@[simp] theorem rorb_grpPush (s : State) (a : Nat) (w : Word) : (rorb s a w).grpPush = s.grpPush := rfl
@[simp] theorem rorb_grpCred (s : State) (a : Nat) (w : Word) : (rorb s a w).grpCred = s.grpCred := rfl
@[simp] theorem rorb_reed (s : State) (a : Nat) (w : Word) : (rorb s a w).reed = s.reed := rfl
@[simp] theorem rorb_drone (s : State) (a : Nat) (w : Word) : (rorb s a w).drone = s.drone := rfl
@[simp] theorem rorb_rep (s : State) (a : Nat) (w : Word) : (rorb s a w).rep = s.rep := rfl
@[simp] theorem rorb_fab (s : State) (a : Nat) (w : Word) : (rorb s a w).fab = s.fab := rfl
@[simp] theorem rorb_bell (s : State) (a : Nat) (w : Word) : (rorb s a w).bell = s.bell := rfl
@[simp] theorem rorb_lpLost (s : State) (a : Nat) (w : Word) : (rorb s a w).lpLost = s.lpLost := rfl
@[simp] theorem rorb_chn (s : State) (a : Nat) (w : Word) : (rorb s a w).chn = s.chn := rfl
@[simp] theorem rorb_ten (s : State) (a : Nat) (w : Word) : (rorb s a w).ten = s.ten := rfl
@[simp] theorem rorb_hl (s : State) (a : Nat) (w : Word) : (rorb s a w).hl = s.hl := rfl
@[simp] theorem rorb_mgt (s : State) (a : Nat) (w : Word) : (rorb s a w).mgt = s.mgt := rfl
@[simp] theorem rorb_pins (s : State) (a : Nat) (w : Word) : (rorb s a w).pins = s.pins := rfl
@[simp] theorem rorb_thm (s : State) (a : Nat) (w : Word) : (rorb s a w).thm = s.thm := rfl
@[simp] theorem rorb_sto (s : State) (a : Nat) (w : Word) : (rorb s a w).sto = s.sto := rfl
@[simp] theorem rorb_chat (s : State) (a : Nat) (w : Word) : (rorb s a w).chat = s.chat := rfl
@[simp] theorem rorb_route (s : State) (a : Nat) (w : Word) : (rorb s a w).route = s.route := rfl

/-! ### rcount -/

@[simp] theorem rcount_pending (s : State) (a hi lo n : Nat) : (rcount s a hi lo n).pending = s.pending := rfl
@[simp] theorem rcount_free (s : State) (a hi lo n : Nat) : (rcount s a hi lo n).free = s.free := rfl
@[simp] theorem rcount_reply (s : State) (a hi lo n : Nat) : (rcount s a hi lo n).reply = s.reply := rfl
@[simp] theorem rcount_mem (s : State) (a hi lo n : Nat) : (rcount s a hi lo n).mem = s.mem := rfl
@[simp] theorem rcount_hold (s : State) (a hi lo n : Nat) : (rcount s a hi lo n).hold = s.hold := rfl
@[simp] theorem rcount_dev (s : State) (a hi lo n : Nat) : (rcount s a hi lo n).dev = s.dev := rfl
@[simp] theorem rcount_stale (s : State) (a hi lo n : Nat) : (rcount s a hi lo n).stale = s.stale := rfl
@[simp] theorem rcount_bad (s : State) (a hi lo n : Nat) : (rcount s a hi lo n).bad = s.bad := rfl
@[simp] theorem rcount_cache (s : State) (a hi lo n : Nat) : (rcount s a hi lo n).cache = s.cache := rfl
@[simp] theorem rcount_chan (s : State) (a hi lo n : Nat) : (rcount s a hi lo n).chan = s.chan := rfl
@[simp] theorem rcount_arb (s : State) (a hi lo n : Nat) : (rcount s a hi lo n).arb = s.arb := rfl
@[simp] theorem rcount_waits (s : State) (a hi lo n : Nat) : (rcount s a hi lo n).waits = s.waits := rfl
@[simp] theorem rcount_closing (s : State) (a hi lo n : Nat) : (rcount s a hi lo n).closing = s.closing := rfl
@[simp] theorem rcount_tile (s : State) (a hi lo n : Nat) : (rcount s a hi lo n).tile = s.tile := rfl
@[simp] theorem rcount_cluster (s : State) (a hi lo n : Nat) : (rcount s a hi lo n).cluster = s.cluster := rfl
@[simp] theorem rcount_grpPush (s : State) (a hi lo n : Nat) : (rcount s a hi lo n).grpPush = s.grpPush := rfl
@[simp] theorem rcount_grpCred (s : State) (a hi lo n : Nat) : (rcount s a hi lo n).grpCred = s.grpCred := rfl
@[simp] theorem rcount_reed (s : State) (a hi lo n : Nat) : (rcount s a hi lo n).reed = s.reed := rfl
@[simp] theorem rcount_drone (s : State) (a hi lo n : Nat) : (rcount s a hi lo n).drone = s.drone := rfl
@[simp] theorem rcount_rep (s : State) (a hi lo n : Nat) : (rcount s a hi lo n).rep = s.rep := rfl
@[simp] theorem rcount_fab (s : State) (a hi lo n : Nat) : (rcount s a hi lo n).fab = s.fab := rfl
@[simp] theorem rcount_bell (s : State) (a hi lo n : Nat) : (rcount s a hi lo n).bell = s.bell := rfl
@[simp] theorem rcount_lpLost (s : State) (a hi lo n : Nat) : (rcount s a hi lo n).lpLost = s.lpLost := rfl
@[simp] theorem rcount_chn (s : State) (a hi lo n : Nat) : (rcount s a hi lo n).chn = s.chn := rfl
@[simp] theorem rcount_ten (s : State) (a hi lo n : Nat) : (rcount s a hi lo n).ten = s.ten := rfl
@[simp] theorem rcount_hl (s : State) (a hi lo n : Nat) : (rcount s a hi lo n).hl = s.hl := rfl
@[simp] theorem rcount_mgt (s : State) (a hi lo n : Nat) : (rcount s a hi lo n).mgt = s.mgt := rfl
@[simp] theorem rcount_pins (s : State) (a hi lo n : Nat) : (rcount s a hi lo n).pins = s.pins := rfl
@[simp] theorem rcount_thm (s : State) (a hi lo n : Nat) : (rcount s a hi lo n).thm = s.thm := rfl
@[simp] theorem rcount_sto (s : State) (a hi lo n : Nat) : (rcount s a hi lo n).sto = s.sto := rfl
@[simp] theorem rcount_chat (s : State) (a hi lo n : Nat) : (rcount s a hi lo n).chat = s.chat := rfl
@[simp] theorem rcount_route (s : State) (a hi lo n : Nat) : (rcount s a hi lo n).route = s.route := rfl

/-! ### setTile -/

@[simp] theorem setTile_pending (s : State) (t : Nat) (x : Tile) : (setTile s t x).pending = s.pending := rfl
@[simp] theorem setTile_free (s : State) (t : Nat) (x : Tile) : (setTile s t x).free = s.free := rfl
@[simp] theorem setTile_reply (s : State) (t : Nat) (x : Tile) : (setTile s t x).reply = s.reply := rfl
@[simp] theorem setTile_regs (s : State) (t : Nat) (x : Tile) : (setTile s t x).regs = s.regs := rfl
@[simp] theorem setTile_mem (s : State) (t : Nat) (x : Tile) : (setTile s t x).mem = s.mem := rfl
@[simp] theorem setTile_hold (s : State) (t : Nat) (x : Tile) : (setTile s t x).hold = s.hold := rfl
@[simp] theorem setTile_dev (s : State) (t : Nat) (x : Tile) : (setTile s t x).dev = s.dev := rfl
@[simp] theorem setTile_stale (s : State) (t : Nat) (x : Tile) : (setTile s t x).stale = s.stale := rfl
@[simp] theorem setTile_bad (s : State) (t : Nat) (x : Tile) : (setTile s t x).bad = s.bad := rfl
@[simp] theorem setTile_cache (s : State) (t : Nat) (x : Tile) : (setTile s t x).cache = s.cache := rfl
@[simp] theorem setTile_chan (s : State) (t : Nat) (x : Tile) : (setTile s t x).chan = s.chan := rfl
@[simp] theorem setTile_arb (s : State) (t : Nat) (x : Tile) : (setTile s t x).arb = s.arb := rfl
@[simp] theorem setTile_waits (s : State) (t : Nat) (x : Tile) : (setTile s t x).waits = s.waits := rfl
@[simp] theorem setTile_closing (s : State) (t : Nat) (x : Tile) : (setTile s t x).closing = s.closing := rfl
@[simp] theorem setTile_cluster (s : State) (t : Nat) (x : Tile) : (setTile s t x).cluster = s.cluster := rfl
@[simp] theorem setTile_grpPush (s : State) (t : Nat) (x : Tile) : (setTile s t x).grpPush = s.grpPush := rfl
@[simp] theorem setTile_grpCred (s : State) (t : Nat) (x : Tile) : (setTile s t x).grpCred = s.grpCred := rfl
@[simp] theorem setTile_reed (s : State) (t : Nat) (x : Tile) : (setTile s t x).reed = s.reed := rfl
@[simp] theorem setTile_drone (s : State) (t : Nat) (x : Tile) : (setTile s t x).drone = s.drone := rfl
@[simp] theorem setTile_rep (s : State) (t : Nat) (x : Tile) : (setTile s t x).rep = s.rep := rfl
@[simp] theorem setTile_fab (s : State) (t : Nat) (x : Tile) : (setTile s t x).fab = s.fab := rfl
@[simp] theorem setTile_bell (s : State) (t : Nat) (x : Tile) : (setTile s t x).bell = s.bell := rfl
@[simp] theorem setTile_lpLost (s : State) (t : Nat) (x : Tile) : (setTile s t x).lpLost = s.lpLost := rfl
@[simp] theorem setTile_chn (s : State) (t : Nat) (x : Tile) : (setTile s t x).chn = s.chn := rfl
@[simp] theorem setTile_ten (s : State) (t : Nat) (x : Tile) : (setTile s t x).ten = s.ten := rfl
@[simp] theorem setTile_hl (s : State) (t : Nat) (x : Tile) : (setTile s t x).hl = s.hl := rfl
@[simp] theorem setTile_mgt (s : State) (t : Nat) (x : Tile) : (setTile s t x).mgt = s.mgt := rfl
@[simp] theorem setTile_pins (s : State) (t : Nat) (x : Tile) : (setTile s t x).pins = s.pins := rfl
@[simp] theorem setTile_thm (s : State) (t : Nat) (x : Tile) : (setTile s t x).thm = s.thm := rfl
@[simp] theorem setTile_sto (s : State) (t : Nat) (x : Tile) : (setTile s t x).sto = s.sto := rfl
@[simp] theorem setTile_chat (s : State) (t : Nat) (x : Tile) : (setTile s t x).chat = s.chat := rfl
@[simp] theorem setTile_route (s : State) (t : Nat) (x : Tile) : (setTile s t x).route = s.route := rfl

/-! ### setEng -/

@[simp] theorem setEng_pending (s : State) (a : At) (g : Engine) : (setEng s a g).pending = s.pending := rfl
@[simp] theorem setEng_free (s : State) (a : At) (g : Engine) : (setEng s a g).free = s.free := rfl
@[simp] theorem setEng_reply (s : State) (a : At) (g : Engine) : (setEng s a g).reply = s.reply := rfl
@[simp] theorem setEng_regs (s : State) (a : At) (g : Engine) : (setEng s a g).regs = s.regs := rfl
@[simp] theorem setEng_mem (s : State) (a : At) (g : Engine) : (setEng s a g).mem = s.mem := rfl
@[simp] theorem setEng_hold (s : State) (a : At) (g : Engine) : (setEng s a g).hold = s.hold := rfl
@[simp] theorem setEng_dev (s : State) (a : At) (g : Engine) : (setEng s a g).dev = s.dev := rfl
@[simp] theorem setEng_stale (s : State) (a : At) (g : Engine) : (setEng s a g).stale = s.stale := rfl
@[simp] theorem setEng_bad (s : State) (a : At) (g : Engine) : (setEng s a g).bad = s.bad := rfl
@[simp] theorem setEng_cache (s : State) (a : At) (g : Engine) : (setEng s a g).cache = s.cache := rfl
@[simp] theorem setEng_chan (s : State) (a : At) (g : Engine) : (setEng s a g).chan = s.chan := rfl
@[simp] theorem setEng_arb (s : State) (a : At) (g : Engine) : (setEng s a g).arb = s.arb := rfl
@[simp] theorem setEng_waits (s : State) (a : At) (g : Engine) : (setEng s a g).waits = s.waits := rfl
@[simp] theorem setEng_closing (s : State) (a : At) (g : Engine) : (setEng s a g).closing = s.closing := rfl
@[simp] theorem setEng_cluster (s : State) (a : At) (g : Engine) : (setEng s a g).cluster = s.cluster := rfl
@[simp] theorem setEng_grpPush (s : State) (a : At) (g : Engine) : (setEng s a g).grpPush = s.grpPush := rfl
@[simp] theorem setEng_grpCred (s : State) (a : At) (g : Engine) : (setEng s a g).grpCred = s.grpCred := rfl
@[simp] theorem setEng_reed (s : State) (a : At) (g : Engine) : (setEng s a g).reed = s.reed := rfl
@[simp] theorem setEng_drone (s : State) (a : At) (g : Engine) : (setEng s a g).drone = s.drone := rfl
@[simp] theorem setEng_rep (s : State) (a : At) (g : Engine) : (setEng s a g).rep = s.rep := rfl
@[simp] theorem setEng_fab (s : State) (a : At) (g : Engine) : (setEng s a g).fab = s.fab := rfl
@[simp] theorem setEng_bell (s : State) (a : At) (g : Engine) : (setEng s a g).bell = s.bell := rfl
@[simp] theorem setEng_lpLost (s : State) (a : At) (g : Engine) : (setEng s a g).lpLost = s.lpLost := rfl
@[simp] theorem setEng_chn (s : State) (a : At) (g : Engine) : (setEng s a g).chn = s.chn := rfl
@[simp] theorem setEng_ten (s : State) (a : At) (g : Engine) : (setEng s a g).ten = s.ten := rfl
@[simp] theorem setEng_hl (s : State) (a : At) (g : Engine) : (setEng s a g).hl = s.hl := rfl
@[simp] theorem setEng_mgt (s : State) (a : At) (g : Engine) : (setEng s a g).mgt = s.mgt := rfl
@[simp] theorem setEng_pins (s : State) (a : At) (g : Engine) : (setEng s a g).pins = s.pins := rfl
@[simp] theorem setEng_thm (s : State) (a : At) (g : Engine) : (setEng s a g).thm = s.thm := rfl
@[simp] theorem setEng_sto (s : State) (a : At) (g : Engine) : (setEng s a g).sto = s.sto := rfl
@[simp] theorem setEng_chat (s : State) (a : At) (g : Engine) : (setEng s a g).chat = s.chat := rfl
@[simp] theorem setEng_route (s : State) (a : At) (g : Engine) : (setEng s a g).route = s.route := rfl

/-! ### modEng -/

@[simp] theorem modEng_pending (s : State) (a : At) (f : Engine → Engine) : (modEng s a f).pending = s.pending := rfl
@[simp] theorem modEng_free (s : State) (a : At) (f : Engine → Engine) : (modEng s a f).free = s.free := rfl
@[simp] theorem modEng_reply (s : State) (a : At) (f : Engine → Engine) : (modEng s a f).reply = s.reply := rfl
@[simp] theorem modEng_regs (s : State) (a : At) (f : Engine → Engine) : (modEng s a f).regs = s.regs := rfl
@[simp] theorem modEng_mem (s : State) (a : At) (f : Engine → Engine) : (modEng s a f).mem = s.mem := rfl
@[simp] theorem modEng_hold (s : State) (a : At) (f : Engine → Engine) : (modEng s a f).hold = s.hold := rfl
@[simp] theorem modEng_dev (s : State) (a : At) (f : Engine → Engine) : (modEng s a f).dev = s.dev := rfl
@[simp] theorem modEng_stale (s : State) (a : At) (f : Engine → Engine) : (modEng s a f).stale = s.stale := rfl
@[simp] theorem modEng_bad (s : State) (a : At) (f : Engine → Engine) : (modEng s a f).bad = s.bad := rfl
@[simp] theorem modEng_cache (s : State) (a : At) (f : Engine → Engine) : (modEng s a f).cache = s.cache := rfl
@[simp] theorem modEng_chan (s : State) (a : At) (f : Engine → Engine) : (modEng s a f).chan = s.chan := rfl
@[simp] theorem modEng_arb (s : State) (a : At) (f : Engine → Engine) : (modEng s a f).arb = s.arb := rfl
@[simp] theorem modEng_waits (s : State) (a : At) (f : Engine → Engine) : (modEng s a f).waits = s.waits := rfl
@[simp] theorem modEng_closing (s : State) (a : At) (f : Engine → Engine) : (modEng s a f).closing = s.closing := rfl
@[simp] theorem modEng_cluster (s : State) (a : At) (f : Engine → Engine) : (modEng s a f).cluster = s.cluster := rfl
@[simp] theorem modEng_grpPush (s : State) (a : At) (f : Engine → Engine) : (modEng s a f).grpPush = s.grpPush := rfl
@[simp] theorem modEng_grpCred (s : State) (a : At) (f : Engine → Engine) : (modEng s a f).grpCred = s.grpCred := rfl
@[simp] theorem modEng_reed (s : State) (a : At) (f : Engine → Engine) : (modEng s a f).reed = s.reed := rfl
@[simp] theorem modEng_drone (s : State) (a : At) (f : Engine → Engine) : (modEng s a f).drone = s.drone := rfl
@[simp] theorem modEng_rep (s : State) (a : At) (f : Engine → Engine) : (modEng s a f).rep = s.rep := rfl
@[simp] theorem modEng_fab (s : State) (a : At) (f : Engine → Engine) : (modEng s a f).fab = s.fab := rfl
@[simp] theorem modEng_bell (s : State) (a : At) (f : Engine → Engine) : (modEng s a f).bell = s.bell := rfl
@[simp] theorem modEng_lpLost (s : State) (a : At) (f : Engine → Engine) : (modEng s a f).lpLost = s.lpLost := rfl
@[simp] theorem modEng_chn (s : State) (a : At) (f : Engine → Engine) : (modEng s a f).chn = s.chn := rfl
@[simp] theorem modEng_ten (s : State) (a : At) (f : Engine → Engine) : (modEng s a f).ten = s.ten := rfl
@[simp] theorem modEng_hl (s : State) (a : At) (f : Engine → Engine) : (modEng s a f).hl = s.hl := rfl
@[simp] theorem modEng_mgt (s : State) (a : At) (f : Engine → Engine) : (modEng s a f).mgt = s.mgt := rfl
@[simp] theorem modEng_pins (s : State) (a : At) (f : Engine → Engine) : (modEng s a f).pins = s.pins := rfl
@[simp] theorem modEng_thm (s : State) (a : At) (f : Engine → Engine) : (modEng s a f).thm = s.thm := rfl
@[simp] theorem modEng_sto (s : State) (a : At) (f : Engine → Engine) : (modEng s a f).sto = s.sto := rfl
@[simp] theorem modEng_chat (s : State) (a : At) (f : Engine → Engine) : (modEng s a f).chat = s.chat := rfl
@[simp] theorem modEng_route (s : State) (a : At) (f : Engine → Engine) : (modEng s a f).route = s.route := rfl

/-! ### setCluster -/

@[simp] theorem setCluster_pending (s : State) (n : Nat) (x : Cluster) : (setCluster s n x).pending = s.pending := rfl
@[simp] theorem setCluster_free (s : State) (n : Nat) (x : Cluster) : (setCluster s n x).free = s.free := rfl
@[simp] theorem setCluster_reply (s : State) (n : Nat) (x : Cluster) : (setCluster s n x).reply = s.reply := rfl
@[simp] theorem setCluster_regs (s : State) (n : Nat) (x : Cluster) : (setCluster s n x).regs = s.regs := rfl
@[simp] theorem setCluster_mem (s : State) (n : Nat) (x : Cluster) : (setCluster s n x).mem = s.mem := rfl
@[simp] theorem setCluster_hold (s : State) (n : Nat) (x : Cluster) : (setCluster s n x).hold = s.hold := rfl
@[simp] theorem setCluster_dev (s : State) (n : Nat) (x : Cluster) : (setCluster s n x).dev = s.dev := rfl
@[simp] theorem setCluster_stale (s : State) (n : Nat) (x : Cluster) : (setCluster s n x).stale = s.stale := rfl
@[simp] theorem setCluster_bad (s : State) (n : Nat) (x : Cluster) : (setCluster s n x).bad = s.bad := rfl
@[simp] theorem setCluster_cache (s : State) (n : Nat) (x : Cluster) : (setCluster s n x).cache = s.cache := rfl
@[simp] theorem setCluster_chan (s : State) (n : Nat) (x : Cluster) : (setCluster s n x).chan = s.chan := rfl
@[simp] theorem setCluster_arb (s : State) (n : Nat) (x : Cluster) : (setCluster s n x).arb = s.arb := rfl
@[simp] theorem setCluster_waits (s : State) (n : Nat) (x : Cluster) : (setCluster s n x).waits = s.waits := rfl
@[simp] theorem setCluster_closing (s : State) (n : Nat) (x : Cluster) : (setCluster s n x).closing = s.closing := rfl
@[simp] theorem setCluster_tile (s : State) (n : Nat) (x : Cluster) : (setCluster s n x).tile = s.tile := rfl
@[simp] theorem setCluster_grpPush (s : State) (n : Nat) (x : Cluster) : (setCluster s n x).grpPush = s.grpPush := rfl
@[simp] theorem setCluster_grpCred (s : State) (n : Nat) (x : Cluster) : (setCluster s n x).grpCred = s.grpCred := rfl
@[simp] theorem setCluster_reed (s : State) (n : Nat) (x : Cluster) : (setCluster s n x).reed = s.reed := rfl
@[simp] theorem setCluster_drone (s : State) (n : Nat) (x : Cluster) : (setCluster s n x).drone = s.drone := rfl
@[simp] theorem setCluster_rep (s : State) (n : Nat) (x : Cluster) : (setCluster s n x).rep = s.rep := rfl
@[simp] theorem setCluster_fab (s : State) (n : Nat) (x : Cluster) : (setCluster s n x).fab = s.fab := rfl
@[simp] theorem setCluster_bell (s : State) (n : Nat) (x : Cluster) : (setCluster s n x).bell = s.bell := rfl
@[simp] theorem setCluster_lpLost (s : State) (n : Nat) (x : Cluster) : (setCluster s n x).lpLost = s.lpLost := rfl
@[simp] theorem setCluster_chn (s : State) (n : Nat) (x : Cluster) : (setCluster s n x).chn = s.chn := rfl
@[simp] theorem setCluster_ten (s : State) (n : Nat) (x : Cluster) : (setCluster s n x).ten = s.ten := rfl
@[simp] theorem setCluster_hl (s : State) (n : Nat) (x : Cluster) : (setCluster s n x).hl = s.hl := rfl
@[simp] theorem setCluster_mgt (s : State) (n : Nat) (x : Cluster) : (setCluster s n x).mgt = s.mgt := rfl
@[simp] theorem setCluster_pins (s : State) (n : Nat) (x : Cluster) : (setCluster s n x).pins = s.pins := rfl
@[simp] theorem setCluster_thm (s : State) (n : Nat) (x : Cluster) : (setCluster s n x).thm = s.thm := rfl
@[simp] theorem setCluster_sto (s : State) (n : Nat) (x : Cluster) : (setCluster s n x).sto = s.sto := rfl
@[simp] theorem setCluster_chat (s : State) (n : Nat) (x : Cluster) : (setCluster s n x).chat = s.chat := rfl
@[simp] theorem setCluster_route (s : State) (n : Nat) (x : Cluster) : (setCluster s n x).route = s.route := rfl

/-! ### setChan -/

@[simp] theorem setChan_pending (s : State) (n : Nat) (x : Chan) : (setChan s n x).pending = s.pending := rfl
@[simp] theorem setChan_free (s : State) (n : Nat) (x : Chan) : (setChan s n x).free = s.free := rfl
@[simp] theorem setChan_reply (s : State) (n : Nat) (x : Chan) : (setChan s n x).reply = s.reply := rfl
@[simp] theorem setChan_regs (s : State) (n : Nat) (x : Chan) : (setChan s n x).regs = s.regs := rfl
@[simp] theorem setChan_mem (s : State) (n : Nat) (x : Chan) : (setChan s n x).mem = s.mem := rfl
@[simp] theorem setChan_hold (s : State) (n : Nat) (x : Chan) : (setChan s n x).hold = s.hold := rfl
@[simp] theorem setChan_dev (s : State) (n : Nat) (x : Chan) : (setChan s n x).dev = s.dev := rfl
@[simp] theorem setChan_stale (s : State) (n : Nat) (x : Chan) : (setChan s n x).stale = s.stale := rfl
@[simp] theorem setChan_bad (s : State) (n : Nat) (x : Chan) : (setChan s n x).bad = s.bad := rfl
@[simp] theorem setChan_cache (s : State) (n : Nat) (x : Chan) : (setChan s n x).cache = s.cache := rfl
@[simp] theorem setChan_arb (s : State) (n : Nat) (x : Chan) : (setChan s n x).arb = s.arb := rfl
@[simp] theorem setChan_waits (s : State) (n : Nat) (x : Chan) : (setChan s n x).waits = s.waits := rfl
@[simp] theorem setChan_closing (s : State) (n : Nat) (x : Chan) : (setChan s n x).closing = s.closing := rfl
@[simp] theorem setChan_tile (s : State) (n : Nat) (x : Chan) : (setChan s n x).tile = s.tile := rfl
@[simp] theorem setChan_cluster (s : State) (n : Nat) (x : Chan) : (setChan s n x).cluster = s.cluster := rfl
@[simp] theorem setChan_grpPush (s : State) (n : Nat) (x : Chan) : (setChan s n x).grpPush = s.grpPush := rfl
@[simp] theorem setChan_grpCred (s : State) (n : Nat) (x : Chan) : (setChan s n x).grpCred = s.grpCred := rfl
@[simp] theorem setChan_reed (s : State) (n : Nat) (x : Chan) : (setChan s n x).reed = s.reed := rfl
@[simp] theorem setChan_drone (s : State) (n : Nat) (x : Chan) : (setChan s n x).drone = s.drone := rfl
@[simp] theorem setChan_rep (s : State) (n : Nat) (x : Chan) : (setChan s n x).rep = s.rep := rfl
@[simp] theorem setChan_fab (s : State) (n : Nat) (x : Chan) : (setChan s n x).fab = s.fab := rfl
@[simp] theorem setChan_bell (s : State) (n : Nat) (x : Chan) : (setChan s n x).bell = s.bell := rfl
@[simp] theorem setChan_lpLost (s : State) (n : Nat) (x : Chan) : (setChan s n x).lpLost = s.lpLost := rfl
@[simp] theorem setChan_chn (s : State) (n : Nat) (x : Chan) : (setChan s n x).chn = s.chn := rfl
@[simp] theorem setChan_ten (s : State) (n : Nat) (x : Chan) : (setChan s n x).ten = s.ten := rfl
@[simp] theorem setChan_hl (s : State) (n : Nat) (x : Chan) : (setChan s n x).hl = s.hl := rfl
@[simp] theorem setChan_mgt (s : State) (n : Nat) (x : Chan) : (setChan s n x).mgt = s.mgt := rfl
@[simp] theorem setChan_pins (s : State) (n : Nat) (x : Chan) : (setChan s n x).pins = s.pins := rfl
@[simp] theorem setChan_thm (s : State) (n : Nat) (x : Chan) : (setChan s n x).thm = s.thm := rfl
@[simp] theorem setChan_sto (s : State) (n : Nat) (x : Chan) : (setChan s n x).sto = s.sto := rfl
@[simp] theorem setChan_chat (s : State) (n : Nat) (x : Chan) : (setChan s n x).chat = s.chat := rfl
@[simp] theorem setChan_route (s : State) (n : Nat) (x : Chan) : (setChan s n x).route = s.route := rfl

/-! ### drawn -/

@[simp] theorem drawn_pending (s : State) (n : Nat) : (drawn s n).pending = s.pending := rfl
@[simp] theorem drawn_reply (s : State) (n : Nat) : (drawn s n).reply = s.reply := rfl
@[simp] theorem drawn_regs (s : State) (n : Nat) : (drawn s n).regs = s.regs := rfl
@[simp] theorem drawn_mem (s : State) (n : Nat) : (drawn s n).mem = s.mem := rfl
@[simp] theorem drawn_hold (s : State) (n : Nat) : (drawn s n).hold = s.hold := rfl
@[simp] theorem drawn_dev (s : State) (n : Nat) : (drawn s n).dev = s.dev := rfl
@[simp] theorem drawn_stale (s : State) (n : Nat) : (drawn s n).stale = s.stale := rfl
@[simp] theorem drawn_bad (s : State) (n : Nat) : (drawn s n).bad = s.bad := rfl
@[simp] theorem drawn_cache (s : State) (n : Nat) : (drawn s n).cache = s.cache := rfl
@[simp] theorem drawn_chan (s : State) (n : Nat) : (drawn s n).chan = s.chan := rfl
@[simp] theorem drawn_arb (s : State) (n : Nat) : (drawn s n).arb = s.arb := rfl
@[simp] theorem drawn_waits (s : State) (n : Nat) : (drawn s n).waits = s.waits := rfl
@[simp] theorem drawn_closing (s : State) (n : Nat) : (drawn s n).closing = s.closing := rfl
@[simp] theorem drawn_tile (s : State) (n : Nat) : (drawn s n).tile = s.tile := rfl
@[simp] theorem drawn_cluster (s : State) (n : Nat) : (drawn s n).cluster = s.cluster := rfl
@[simp] theorem drawn_grpPush (s : State) (n : Nat) : (drawn s n).grpPush = s.grpPush := rfl
@[simp] theorem drawn_grpCred (s : State) (n : Nat) : (drawn s n).grpCred = s.grpCred := rfl
@[simp] theorem drawn_reed (s : State) (n : Nat) : (drawn s n).reed = s.reed := rfl
@[simp] theorem drawn_drone (s : State) (n : Nat) : (drawn s n).drone = s.drone := rfl
@[simp] theorem drawn_rep (s : State) (n : Nat) : (drawn s n).rep = s.rep := rfl
@[simp] theorem drawn_fab (s : State) (n : Nat) : (drawn s n).fab = s.fab := rfl
@[simp] theorem drawn_bell (s : State) (n : Nat) : (drawn s n).bell = s.bell := rfl
@[simp] theorem drawn_lpLost (s : State) (n : Nat) : (drawn s n).lpLost = s.lpLost := rfl
@[simp] theorem drawn_chn (s : State) (n : Nat) : (drawn s n).chn = s.chn := rfl
@[simp] theorem drawn_ten (s : State) (n : Nat) : (drawn s n).ten = s.ten := rfl
@[simp] theorem drawn_hl (s : State) (n : Nat) : (drawn s n).hl = s.hl := rfl
@[simp] theorem drawn_mgt (s : State) (n : Nat) : (drawn s n).mgt = s.mgt := rfl
@[simp] theorem drawn_pins (s : State) (n : Nat) : (drawn s n).pins = s.pins := rfl
@[simp] theorem drawn_thm (s : State) (n : Nat) : (drawn s n).thm = s.thm := rfl
@[simp] theorem drawn_sto (s : State) (n : Nat) : (drawn s n).sto = s.sto := rfl
@[simp] theorem drawn_chat (s : State) (n : Nat) : (drawn s n).chat = s.chat := rfl
@[simp] theorem drawn_route (s : State) (n : Nat) : (drawn s n).route = s.route := rfl

/-! ### emit -/

@[simp] theorem emit_pending (s : State) (u code : Nat) (i : Info) : (emit s u code i).pending = s.pending := rfl
@[simp] theorem emit_reply (s : State) (u code : Nat) (i : Info) : (emit s u code i).reply = s.reply := rfl
@[simp] theorem emit_regs (s : State) (u code : Nat) (i : Info) : (emit s u code i).regs = s.regs := rfl
@[simp] theorem emit_mem (s : State) (u code : Nat) (i : Info) : (emit s u code i).mem = s.mem := rfl
@[simp] theorem emit_hold (s : State) (u code : Nat) (i : Info) : (emit s u code i).hold = s.hold := rfl
@[simp] theorem emit_dev (s : State) (u code : Nat) (i : Info) : (emit s u code i).dev = s.dev := rfl
@[simp] theorem emit_stale (s : State) (u code : Nat) (i : Info) : (emit s u code i).stale = s.stale := rfl
@[simp] theorem emit_bad (s : State) (u code : Nat) (i : Info) : (emit s u code i).bad = s.bad := rfl
@[simp] theorem emit_cache (s : State) (u code : Nat) (i : Info) : (emit s u code i).cache = s.cache := rfl
@[simp] theorem emit_chan (s : State) (u code : Nat) (i : Info) : (emit s u code i).chan = s.chan := rfl
@[simp] theorem emit_arb (s : State) (u code : Nat) (i : Info) : (emit s u code i).arb = s.arb := rfl
@[simp] theorem emit_waits (s : State) (u code : Nat) (i : Info) : (emit s u code i).waits = s.waits := rfl
@[simp] theorem emit_closing (s : State) (u code : Nat) (i : Info) : (emit s u code i).closing = s.closing := rfl
@[simp] theorem emit_tile (s : State) (u code : Nat) (i : Info) : (emit s u code i).tile = s.tile := rfl
@[simp] theorem emit_cluster (s : State) (u code : Nat) (i : Info) : (emit s u code i).cluster = s.cluster := rfl
@[simp] theorem emit_grpPush (s : State) (u code : Nat) (i : Info) : (emit s u code i).grpPush = s.grpPush := rfl
@[simp] theorem emit_grpCred (s : State) (u code : Nat) (i : Info) : (emit s u code i).grpCred = s.grpCred := rfl
@[simp] theorem emit_reed (s : State) (u code : Nat) (i : Info) : (emit s u code i).reed = s.reed := rfl
@[simp] theorem emit_drone (s : State) (u code : Nat) (i : Info) : (emit s u code i).drone = s.drone := rfl
@[simp] theorem emit_fab (s : State) (u code : Nat) (i : Info) : (emit s u code i).fab = s.fab := rfl
@[simp] theorem emit_bell (s : State) (u code : Nat) (i : Info) : (emit s u code i).bell = s.bell := rfl
@[simp] theorem emit_lpLost (s : State) (u code : Nat) (i : Info) : (emit s u code i).lpLost = s.lpLost := rfl
@[simp] theorem emit_chn (s : State) (u code : Nat) (i : Info) : (emit s u code i).chn = s.chn := rfl
@[simp] theorem emit_ten (s : State) (u code : Nat) (i : Info) : (emit s u code i).ten = s.ten := rfl
@[simp] theorem emit_hl (s : State) (u code : Nat) (i : Info) : (emit s u code i).hl = s.hl := rfl
@[simp] theorem emit_mgt (s : State) (u code : Nat) (i : Info) : (emit s u code i).mgt = s.mgt := rfl
@[simp] theorem emit_pins (s : State) (u code : Nat) (i : Info) : (emit s u code i).pins = s.pins := rfl
@[simp] theorem emit_thm (s : State) (u code : Nat) (i : Info) : (emit s u code i).thm = s.thm := rfl
@[simp] theorem emit_sto (s : State) (u code : Nat) (i : Info) : (emit s u code i).sto = s.sto := rfl
@[simp] theorem emit_chat (s : State) (u code : Nat) (i : Info) : (emit s u code i).chat = s.chat := rfl
@[simp] theorem emit_route (s : State) (u code : Nat) (i : Info) : (emit s u code i).route = s.route := rfl

/-! ### replied -/

@[simp] theorem replied_pending (s : State) (c : Nat) (bs : List Byte) : (replied s c bs).pending = s.pending := rfl
@[simp] theorem replied_free (s : State) (c : Nat) (bs : List Byte) : (replied s c bs).free = s.free := rfl
@[simp] theorem replied_regs (s : State) (c : Nat) (bs : List Byte) : (replied s c bs).regs = s.regs := rfl
@[simp] theorem replied_mem (s : State) (c : Nat) (bs : List Byte) : (replied s c bs).mem = s.mem := rfl
@[simp] theorem replied_hold (s : State) (c : Nat) (bs : List Byte) : (replied s c bs).hold = s.hold := rfl
@[simp] theorem replied_dev (s : State) (c : Nat) (bs : List Byte) : (replied s c bs).dev = s.dev := rfl
@[simp] theorem replied_stale (s : State) (c : Nat) (bs : List Byte) : (replied s c bs).stale = s.stale := rfl
@[simp] theorem replied_bad (s : State) (c : Nat) (bs : List Byte) : (replied s c bs).bad = s.bad := rfl
@[simp] theorem replied_cache (s : State) (c : Nat) (bs : List Byte) : (replied s c bs).cache = s.cache := rfl
@[simp] theorem replied_chan (s : State) (c : Nat) (bs : List Byte) : (replied s c bs).chan = s.chan := rfl
@[simp] theorem replied_arb (s : State) (c : Nat) (bs : List Byte) : (replied s c bs).arb = s.arb := rfl
@[simp] theorem replied_waits (s : State) (c : Nat) (bs : List Byte) : (replied s c bs).waits = s.waits := rfl
@[simp] theorem replied_closing (s : State) (c : Nat) (bs : List Byte) : (replied s c bs).closing = s.closing := rfl
@[simp] theorem replied_tile (s : State) (c : Nat) (bs : List Byte) : (replied s c bs).tile = s.tile := rfl
@[simp] theorem replied_cluster (s : State) (c : Nat) (bs : List Byte) : (replied s c bs).cluster = s.cluster := rfl
@[simp] theorem replied_grpPush (s : State) (c : Nat) (bs : List Byte) : (replied s c bs).grpPush = s.grpPush := rfl
@[simp] theorem replied_grpCred (s : State) (c : Nat) (bs : List Byte) : (replied s c bs).grpCred = s.grpCred := rfl
@[simp] theorem replied_reed (s : State) (c : Nat) (bs : List Byte) : (replied s c bs).reed = s.reed := rfl
@[simp] theorem replied_drone (s : State) (c : Nat) (bs : List Byte) : (replied s c bs).drone = s.drone := rfl
@[simp] theorem replied_rep (s : State) (c : Nat) (bs : List Byte) : (replied s c bs).rep = s.rep := rfl
@[simp] theorem replied_fab (s : State) (c : Nat) (bs : List Byte) : (replied s c bs).fab = s.fab := rfl
@[simp] theorem replied_bell (s : State) (c : Nat) (bs : List Byte) : (replied s c bs).bell = s.bell := rfl
@[simp] theorem replied_lpLost (s : State) (c : Nat) (bs : List Byte) : (replied s c bs).lpLost = s.lpLost := rfl
@[simp] theorem replied_chn (s : State) (c : Nat) (bs : List Byte) : (replied s c bs).chn = s.chn := rfl
@[simp] theorem replied_ten (s : State) (c : Nat) (bs : List Byte) : (replied s c bs).ten = s.ten := rfl
@[simp] theorem replied_hl (s : State) (c : Nat) (bs : List Byte) : (replied s c bs).hl = s.hl := rfl
@[simp] theorem replied_mgt (s : State) (c : Nat) (bs : List Byte) : (replied s c bs).mgt = s.mgt := rfl
@[simp] theorem replied_pins (s : State) (c : Nat) (bs : List Byte) : (replied s c bs).pins = s.pins := rfl
@[simp] theorem replied_thm (s : State) (c : Nat) (bs : List Byte) : (replied s c bs).thm = s.thm := rfl
@[simp] theorem replied_sto (s : State) (c : Nat) (bs : List Byte) : (replied s c bs).sto = s.sto := rfl
@[simp] theorem replied_chat (s : State) (c : Nat) (bs : List Byte) : (replied s c bs).chat = s.chat := rfl
@[simp] theorem replied_route (s : State) (c : Nat) (bs : List Byte) : (replied s c bs).route = s.route := rfl

/-! ### setLines -/

@[simp] theorem setLines_pending (s : State) (d : Nat) (ls : List Line) : (setLines s d ls).pending = s.pending := rfl
@[simp] theorem setLines_free (s : State) (d : Nat) (ls : List Line) : (setLines s d ls).free = s.free := rfl
@[simp] theorem setLines_reply (s : State) (d : Nat) (ls : List Line) : (setLines s d ls).reply = s.reply := rfl
@[simp] theorem setLines_regs (s : State) (d : Nat) (ls : List Line) : (setLines s d ls).regs = s.regs := rfl
@[simp] theorem setLines_mem (s : State) (d : Nat) (ls : List Line) : (setLines s d ls).mem = s.mem := rfl
@[simp] theorem setLines_hold (s : State) (d : Nat) (ls : List Line) : (setLines s d ls).hold = s.hold := rfl
@[simp] theorem setLines_dev (s : State) (d : Nat) (ls : List Line) : (setLines s d ls).dev = s.dev := rfl
@[simp] theorem setLines_stale (s : State) (d : Nat) (ls : List Line) : (setLines s d ls).stale = s.stale := rfl
@[simp] theorem setLines_bad (s : State) (d : Nat) (ls : List Line) : (setLines s d ls).bad = s.bad := rfl
@[simp] theorem setLines_chan (s : State) (d : Nat) (ls : List Line) : (setLines s d ls).chan = s.chan := rfl
@[simp] theorem setLines_arb (s : State) (d : Nat) (ls : List Line) : (setLines s d ls).arb = s.arb := rfl
@[simp] theorem setLines_waits (s : State) (d : Nat) (ls : List Line) : (setLines s d ls).waits = s.waits := rfl
@[simp] theorem setLines_closing (s : State) (d : Nat) (ls : List Line) : (setLines s d ls).closing = s.closing := rfl
@[simp] theorem setLines_tile (s : State) (d : Nat) (ls : List Line) : (setLines s d ls).tile = s.tile := rfl
@[simp] theorem setLines_cluster (s : State) (d : Nat) (ls : List Line) : (setLines s d ls).cluster = s.cluster := rfl
@[simp] theorem setLines_grpPush (s : State) (d : Nat) (ls : List Line) : (setLines s d ls).grpPush = s.grpPush := rfl
@[simp] theorem setLines_grpCred (s : State) (d : Nat) (ls : List Line) : (setLines s d ls).grpCred = s.grpCred := rfl
@[simp] theorem setLines_reed (s : State) (d : Nat) (ls : List Line) : (setLines s d ls).reed = s.reed := rfl
@[simp] theorem setLines_drone (s : State) (d : Nat) (ls : List Line) : (setLines s d ls).drone = s.drone := rfl
@[simp] theorem setLines_rep (s : State) (d : Nat) (ls : List Line) : (setLines s d ls).rep = s.rep := rfl
@[simp] theorem setLines_fab (s : State) (d : Nat) (ls : List Line) : (setLines s d ls).fab = s.fab := rfl
@[simp] theorem setLines_bell (s : State) (d : Nat) (ls : List Line) : (setLines s d ls).bell = s.bell := rfl
@[simp] theorem setLines_lpLost (s : State) (d : Nat) (ls : List Line) : (setLines s d ls).lpLost = s.lpLost := rfl
@[simp] theorem setLines_chn (s : State) (d : Nat) (ls : List Line) : (setLines s d ls).chn = s.chn := rfl
@[simp] theorem setLines_ten (s : State) (d : Nat) (ls : List Line) : (setLines s d ls).ten = s.ten := rfl
@[simp] theorem setLines_hl (s : State) (d : Nat) (ls : List Line) : (setLines s d ls).hl = s.hl := rfl
@[simp] theorem setLines_mgt (s : State) (d : Nat) (ls : List Line) : (setLines s d ls).mgt = s.mgt := rfl
@[simp] theorem setLines_pins (s : State) (d : Nat) (ls : List Line) : (setLines s d ls).pins = s.pins := rfl
@[simp] theorem setLines_thm (s : State) (d : Nat) (ls : List Line) : (setLines s d ls).thm = s.thm := rfl
@[simp] theorem setLines_sto (s : State) (d : Nat) (ls : List Line) : (setLines s d ls).sto = s.sto := rfl
@[simp] theorem setLines_chat (s : State) (d : Nat) (ls : List Line) : (setLines s d ls).chat = s.chat := rfl
@[simp] theorem setLines_route (s : State) (d : Nat) (ls : List Line) : (setLines s d ls).route = s.route := rfl

/-! ### setArb -/

@[simp] theorem setArb_pending (s : State) (p : Nat) (x : Arb) : (setArb s p x).pending = s.pending := rfl
@[simp] theorem setArb_free (s : State) (p : Nat) (x : Arb) : (setArb s p x).free = s.free := rfl
@[simp] theorem setArb_reply (s : State) (p : Nat) (x : Arb) : (setArb s p x).reply = s.reply := rfl
@[simp] theorem setArb_regs (s : State) (p : Nat) (x : Arb) : (setArb s p x).regs = s.regs := rfl
@[simp] theorem setArb_mem (s : State) (p : Nat) (x : Arb) : (setArb s p x).mem = s.mem := rfl
@[simp] theorem setArb_hold (s : State) (p : Nat) (x : Arb) : (setArb s p x).hold = s.hold := rfl
@[simp] theorem setArb_dev (s : State) (p : Nat) (x : Arb) : (setArb s p x).dev = s.dev := rfl
@[simp] theorem setArb_stale (s : State) (p : Nat) (x : Arb) : (setArb s p x).stale = s.stale := rfl
@[simp] theorem setArb_bad (s : State) (p : Nat) (x : Arb) : (setArb s p x).bad = s.bad := rfl
@[simp] theorem setArb_cache (s : State) (p : Nat) (x : Arb) : (setArb s p x).cache = s.cache := rfl
@[simp] theorem setArb_chan (s : State) (p : Nat) (x : Arb) : (setArb s p x).chan = s.chan := rfl
@[simp] theorem setArb_waits (s : State) (p : Nat) (x : Arb) : (setArb s p x).waits = s.waits := rfl
@[simp] theorem setArb_closing (s : State) (p : Nat) (x : Arb) : (setArb s p x).closing = s.closing := rfl
@[simp] theorem setArb_tile (s : State) (p : Nat) (x : Arb) : (setArb s p x).tile = s.tile := rfl
@[simp] theorem setArb_cluster (s : State) (p : Nat) (x : Arb) : (setArb s p x).cluster = s.cluster := rfl
@[simp] theorem setArb_grpPush (s : State) (p : Nat) (x : Arb) : (setArb s p x).grpPush = s.grpPush := rfl
@[simp] theorem setArb_grpCred (s : State) (p : Nat) (x : Arb) : (setArb s p x).grpCred = s.grpCred := rfl
@[simp] theorem setArb_reed (s : State) (p : Nat) (x : Arb) : (setArb s p x).reed = s.reed := rfl
@[simp] theorem setArb_drone (s : State) (p : Nat) (x : Arb) : (setArb s p x).drone = s.drone := rfl
@[simp] theorem setArb_rep (s : State) (p : Nat) (x : Arb) : (setArb s p x).rep = s.rep := rfl
@[simp] theorem setArb_fab (s : State) (p : Nat) (x : Arb) : (setArb s p x).fab = s.fab := rfl
@[simp] theorem setArb_bell (s : State) (p : Nat) (x : Arb) : (setArb s p x).bell = s.bell := rfl
@[simp] theorem setArb_lpLost (s : State) (p : Nat) (x : Arb) : (setArb s p x).lpLost = s.lpLost := rfl
@[simp] theorem setArb_chn (s : State) (p : Nat) (x : Arb) : (setArb s p x).chn = s.chn := rfl
@[simp] theorem setArb_ten (s : State) (p : Nat) (x : Arb) : (setArb s p x).ten = s.ten := rfl
@[simp] theorem setArb_hl (s : State) (p : Nat) (x : Arb) : (setArb s p x).hl = s.hl := rfl
@[simp] theorem setArb_mgt (s : State) (p : Nat) (x : Arb) : (setArb s p x).mgt = s.mgt := rfl
@[simp] theorem setArb_pins (s : State) (p : Nat) (x : Arb) : (setArb s p x).pins = s.pins := rfl
@[simp] theorem setArb_thm (s : State) (p : Nat) (x : Arb) : (setArb s p x).thm = s.thm := rfl
@[simp] theorem setArb_sto (s : State) (p : Nat) (x : Arb) : (setArb s p x).sto = s.sto := rfl
@[simp] theorem setArb_chat (s : State) (p : Nat) (x : Arb) : (setArb s p x).chat = s.chat := rfl
@[simp] theorem setArb_route (s : State) (p : Nat) (x : Arb) : (setArb s p x).route = s.route := rfl

/-! ### setReed -/

@[simp] theorem setReed_pending (s : State) (n : Nat) (x : Reed) : (setReed s n x).pending = s.pending := rfl
@[simp] theorem setReed_free (s : State) (n : Nat) (x : Reed) : (setReed s n x).free = s.free := rfl
@[simp] theorem setReed_reply (s : State) (n : Nat) (x : Reed) : (setReed s n x).reply = s.reply := rfl
@[simp] theorem setReed_regs (s : State) (n : Nat) (x : Reed) : (setReed s n x).regs = s.regs := rfl
@[simp] theorem setReed_mem (s : State) (n : Nat) (x : Reed) : (setReed s n x).mem = s.mem := rfl
@[simp] theorem setReed_hold (s : State) (n : Nat) (x : Reed) : (setReed s n x).hold = s.hold := rfl
@[simp] theorem setReed_dev (s : State) (n : Nat) (x : Reed) : (setReed s n x).dev = s.dev := rfl
@[simp] theorem setReed_stale (s : State) (n : Nat) (x : Reed) : (setReed s n x).stale = s.stale := rfl
@[simp] theorem setReed_bad (s : State) (n : Nat) (x : Reed) : (setReed s n x).bad = s.bad := rfl
@[simp] theorem setReed_cache (s : State) (n : Nat) (x : Reed) : (setReed s n x).cache = s.cache := rfl
@[simp] theorem setReed_chan (s : State) (n : Nat) (x : Reed) : (setReed s n x).chan = s.chan := rfl
@[simp] theorem setReed_arb (s : State) (n : Nat) (x : Reed) : (setReed s n x).arb = s.arb := rfl
@[simp] theorem setReed_waits (s : State) (n : Nat) (x : Reed) : (setReed s n x).waits = s.waits := rfl
@[simp] theorem setReed_closing (s : State) (n : Nat) (x : Reed) : (setReed s n x).closing = s.closing := rfl
@[simp] theorem setReed_tile (s : State) (n : Nat) (x : Reed) : (setReed s n x).tile = s.tile := rfl
@[simp] theorem setReed_cluster (s : State) (n : Nat) (x : Reed) : (setReed s n x).cluster = s.cluster := rfl
@[simp] theorem setReed_grpPush (s : State) (n : Nat) (x : Reed) : (setReed s n x).grpPush = s.grpPush := rfl
@[simp] theorem setReed_grpCred (s : State) (n : Nat) (x : Reed) : (setReed s n x).grpCred = s.grpCred := rfl
@[simp] theorem setReed_drone (s : State) (n : Nat) (x : Reed) : (setReed s n x).drone = s.drone := rfl
@[simp] theorem setReed_rep (s : State) (n : Nat) (x : Reed) : (setReed s n x).rep = s.rep := rfl
@[simp] theorem setReed_fab (s : State) (n : Nat) (x : Reed) : (setReed s n x).fab = s.fab := rfl
@[simp] theorem setReed_bell (s : State) (n : Nat) (x : Reed) : (setReed s n x).bell = s.bell := rfl
@[simp] theorem setReed_lpLost (s : State) (n : Nat) (x : Reed) : (setReed s n x).lpLost = s.lpLost := rfl
@[simp] theorem setReed_chn (s : State) (n : Nat) (x : Reed) : (setReed s n x).chn = s.chn := rfl
@[simp] theorem setReed_ten (s : State) (n : Nat) (x : Reed) : (setReed s n x).ten = s.ten := rfl
@[simp] theorem setReed_hl (s : State) (n : Nat) (x : Reed) : (setReed s n x).hl = s.hl := rfl
@[simp] theorem setReed_mgt (s : State) (n : Nat) (x : Reed) : (setReed s n x).mgt = s.mgt := rfl
@[simp] theorem setReed_pins (s : State) (n : Nat) (x : Reed) : (setReed s n x).pins = s.pins := rfl
@[simp] theorem setReed_thm (s : State) (n : Nat) (x : Reed) : (setReed s n x).thm = s.thm := rfl
@[simp] theorem setReed_sto (s : State) (n : Nat) (x : Reed) : (setReed s n x).sto = s.sto := rfl
@[simp] theorem setReed_chat (s : State) (n : Nat) (x : Reed) : (setReed s n x).chat = s.chat := rfl
@[simp] theorem setReed_route (s : State) (n : Nat) (x : Reed) : (setReed s n x).route = s.route := rfl

/-! ### setBell -/

@[simp] theorem setBell_pending (s : State) (n : Nat) (x : Bell) : (setBell s n x).pending = s.pending := rfl
@[simp] theorem setBell_free (s : State) (n : Nat) (x : Bell) : (setBell s n x).free = s.free := rfl
@[simp] theorem setBell_reply (s : State) (n : Nat) (x : Bell) : (setBell s n x).reply = s.reply := rfl
@[simp] theorem setBell_regs (s : State) (n : Nat) (x : Bell) : (setBell s n x).regs = s.regs := rfl
@[simp] theorem setBell_mem (s : State) (n : Nat) (x : Bell) : (setBell s n x).mem = s.mem := rfl
@[simp] theorem setBell_hold (s : State) (n : Nat) (x : Bell) : (setBell s n x).hold = s.hold := rfl
@[simp] theorem setBell_dev (s : State) (n : Nat) (x : Bell) : (setBell s n x).dev = s.dev := rfl
@[simp] theorem setBell_stale (s : State) (n : Nat) (x : Bell) : (setBell s n x).stale = s.stale := rfl
@[simp] theorem setBell_bad (s : State) (n : Nat) (x : Bell) : (setBell s n x).bad = s.bad := rfl
@[simp] theorem setBell_cache (s : State) (n : Nat) (x : Bell) : (setBell s n x).cache = s.cache := rfl
@[simp] theorem setBell_chan (s : State) (n : Nat) (x : Bell) : (setBell s n x).chan = s.chan := rfl
@[simp] theorem setBell_arb (s : State) (n : Nat) (x : Bell) : (setBell s n x).arb = s.arb := rfl
@[simp] theorem setBell_waits (s : State) (n : Nat) (x : Bell) : (setBell s n x).waits = s.waits := rfl
@[simp] theorem setBell_closing (s : State) (n : Nat) (x : Bell) : (setBell s n x).closing = s.closing := rfl
@[simp] theorem setBell_tile (s : State) (n : Nat) (x : Bell) : (setBell s n x).tile = s.tile := rfl
@[simp] theorem setBell_cluster (s : State) (n : Nat) (x : Bell) : (setBell s n x).cluster = s.cluster := rfl
@[simp] theorem setBell_grpPush (s : State) (n : Nat) (x : Bell) : (setBell s n x).grpPush = s.grpPush := rfl
@[simp] theorem setBell_grpCred (s : State) (n : Nat) (x : Bell) : (setBell s n x).grpCred = s.grpCred := rfl
@[simp] theorem setBell_reed (s : State) (n : Nat) (x : Bell) : (setBell s n x).reed = s.reed := rfl
@[simp] theorem setBell_drone (s : State) (n : Nat) (x : Bell) : (setBell s n x).drone = s.drone := rfl
@[simp] theorem setBell_rep (s : State) (n : Nat) (x : Bell) : (setBell s n x).rep = s.rep := rfl
@[simp] theorem setBell_fab (s : State) (n : Nat) (x : Bell) : (setBell s n x).fab = s.fab := rfl
@[simp] theorem setBell_lpLost (s : State) (n : Nat) (x : Bell) : (setBell s n x).lpLost = s.lpLost := rfl
@[simp] theorem setBell_chn (s : State) (n : Nat) (x : Bell) : (setBell s n x).chn = s.chn := rfl
@[simp] theorem setBell_ten (s : State) (n : Nat) (x : Bell) : (setBell s n x).ten = s.ten := rfl
@[simp] theorem setBell_hl (s : State) (n : Nat) (x : Bell) : (setBell s n x).hl = s.hl := rfl
@[simp] theorem setBell_mgt (s : State) (n : Nat) (x : Bell) : (setBell s n x).mgt = s.mgt := rfl
@[simp] theorem setBell_pins (s : State) (n : Nat) (x : Bell) : (setBell s n x).pins = s.pins := rfl
@[simp] theorem setBell_thm (s : State) (n : Nat) (x : Bell) : (setBell s n x).thm = s.thm := rfl
@[simp] theorem setBell_sto (s : State) (n : Nat) (x : Bell) : (setBell s n x).sto = s.sto := rfl
@[simp] theorem setBell_chat (s : State) (n : Nat) (x : Bell) : (setBell s n x).chat = s.chat := rfl
@[simp] theorem setBell_route (s : State) (n : Nat) (x : Bell) : (setBell s n x).route = s.route := rfl

/-! ### setLane -/

@[simp] theorem setLane_pending (s : State) (n : Nat) (x : Lane) : (setLane s n x).pending = s.pending := rfl
@[simp] theorem setLane_free (s : State) (n : Nat) (x : Lane) : (setLane s n x).free = s.free := rfl
@[simp] theorem setLane_reply (s : State) (n : Nat) (x : Lane) : (setLane s n x).reply = s.reply := rfl
@[simp] theorem setLane_regs (s : State) (n : Nat) (x : Lane) : (setLane s n x).regs = s.regs := rfl
@[simp] theorem setLane_mem (s : State) (n : Nat) (x : Lane) : (setLane s n x).mem = s.mem := rfl
@[simp] theorem setLane_hold (s : State) (n : Nat) (x : Lane) : (setLane s n x).hold = s.hold := rfl
@[simp] theorem setLane_dev (s : State) (n : Nat) (x : Lane) : (setLane s n x).dev = s.dev := rfl
@[simp] theorem setLane_stale (s : State) (n : Nat) (x : Lane) : (setLane s n x).stale = s.stale := rfl
@[simp] theorem setLane_bad (s : State) (n : Nat) (x : Lane) : (setLane s n x).bad = s.bad := rfl
@[simp] theorem setLane_cache (s : State) (n : Nat) (x : Lane) : (setLane s n x).cache = s.cache := rfl
@[simp] theorem setLane_chan (s : State) (n : Nat) (x : Lane) : (setLane s n x).chan = s.chan := rfl
@[simp] theorem setLane_arb (s : State) (n : Nat) (x : Lane) : (setLane s n x).arb = s.arb := rfl
@[simp] theorem setLane_waits (s : State) (n : Nat) (x : Lane) : (setLane s n x).waits = s.waits := rfl
@[simp] theorem setLane_closing (s : State) (n : Nat) (x : Lane) : (setLane s n x).closing = s.closing := rfl
@[simp] theorem setLane_tile (s : State) (n : Nat) (x : Lane) : (setLane s n x).tile = s.tile := rfl
@[simp] theorem setLane_cluster (s : State) (n : Nat) (x : Lane) : (setLane s n x).cluster = s.cluster := rfl
@[simp] theorem setLane_grpPush (s : State) (n : Nat) (x : Lane) : (setLane s n x).grpPush = s.grpPush := rfl
@[simp] theorem setLane_grpCred (s : State) (n : Nat) (x : Lane) : (setLane s n x).grpCred = s.grpCred := rfl
@[simp] theorem setLane_reed (s : State) (n : Nat) (x : Lane) : (setLane s n x).reed = s.reed := rfl
@[simp] theorem setLane_drone (s : State) (n : Nat) (x : Lane) : (setLane s n x).drone = s.drone := rfl
@[simp] theorem setLane_rep (s : State) (n : Nat) (x : Lane) : (setLane s n x).rep = s.rep := rfl
@[simp] theorem setLane_fab (s : State) (n : Nat) (x : Lane) : (setLane s n x).fab = s.fab := rfl
@[simp] theorem setLane_bell (s : State) (n : Nat) (x : Lane) : (setLane s n x).bell = s.bell := rfl
@[simp] theorem setLane_lpLost (s : State) (n : Nat) (x : Lane) : (setLane s n x).lpLost = s.lpLost := rfl
@[simp] theorem setLane_ten (s : State) (n : Nat) (x : Lane) : (setLane s n x).ten = s.ten := rfl
@[simp] theorem setLane_hl (s : State) (n : Nat) (x : Lane) : (setLane s n x).hl = s.hl := rfl
@[simp] theorem setLane_mgt (s : State) (n : Nat) (x : Lane) : (setLane s n x).mgt = s.mgt := rfl
@[simp] theorem setLane_pins (s : State) (n : Nat) (x : Lane) : (setLane s n x).pins = s.pins := rfl
@[simp] theorem setLane_thm (s : State) (n : Nat) (x : Lane) : (setLane s n x).thm = s.thm := rfl
@[simp] theorem setLane_sto (s : State) (n : Nat) (x : Lane) : (setLane s n x).sto = s.sto := rfl
@[simp] theorem setLane_chat (s : State) (n : Nat) (x : Lane) : (setLane s n x).chat = s.chat := rfl
@[simp] theorem setLane_route (s : State) (n : Nat) (x : Lane) : (setLane s n x).route = s.route := rfl

/-! ### setFlow -/

@[simp] theorem setFlow_pending (s : State) (n : Nat) (x : Flow) : (setFlow s n x).pending = s.pending := rfl
@[simp] theorem setFlow_free (s : State) (n : Nat) (x : Flow) : (setFlow s n x).free = s.free := rfl
@[simp] theorem setFlow_reply (s : State) (n : Nat) (x : Flow) : (setFlow s n x).reply = s.reply := rfl
@[simp] theorem setFlow_regs (s : State) (n : Nat) (x : Flow) : (setFlow s n x).regs = s.regs := rfl
@[simp] theorem setFlow_mem (s : State) (n : Nat) (x : Flow) : (setFlow s n x).mem = s.mem := rfl
@[simp] theorem setFlow_hold (s : State) (n : Nat) (x : Flow) : (setFlow s n x).hold = s.hold := rfl
@[simp] theorem setFlow_dev (s : State) (n : Nat) (x : Flow) : (setFlow s n x).dev = s.dev := rfl
@[simp] theorem setFlow_stale (s : State) (n : Nat) (x : Flow) : (setFlow s n x).stale = s.stale := rfl
@[simp] theorem setFlow_bad (s : State) (n : Nat) (x : Flow) : (setFlow s n x).bad = s.bad := rfl
@[simp] theorem setFlow_cache (s : State) (n : Nat) (x : Flow) : (setFlow s n x).cache = s.cache := rfl
@[simp] theorem setFlow_chan (s : State) (n : Nat) (x : Flow) : (setFlow s n x).chan = s.chan := rfl
@[simp] theorem setFlow_arb (s : State) (n : Nat) (x : Flow) : (setFlow s n x).arb = s.arb := rfl
@[simp] theorem setFlow_waits (s : State) (n : Nat) (x : Flow) : (setFlow s n x).waits = s.waits := rfl
@[simp] theorem setFlow_closing (s : State) (n : Nat) (x : Flow) : (setFlow s n x).closing = s.closing := rfl
@[simp] theorem setFlow_tile (s : State) (n : Nat) (x : Flow) : (setFlow s n x).tile = s.tile := rfl
@[simp] theorem setFlow_cluster (s : State) (n : Nat) (x : Flow) : (setFlow s n x).cluster = s.cluster := rfl
@[simp] theorem setFlow_grpPush (s : State) (n : Nat) (x : Flow) : (setFlow s n x).grpPush = s.grpPush := rfl
@[simp] theorem setFlow_grpCred (s : State) (n : Nat) (x : Flow) : (setFlow s n x).grpCred = s.grpCred := rfl
@[simp] theorem setFlow_reed (s : State) (n : Nat) (x : Flow) : (setFlow s n x).reed = s.reed := rfl
@[simp] theorem setFlow_drone (s : State) (n : Nat) (x : Flow) : (setFlow s n x).drone = s.drone := rfl
@[simp] theorem setFlow_rep (s : State) (n : Nat) (x : Flow) : (setFlow s n x).rep = s.rep := rfl
@[simp] theorem setFlow_bell (s : State) (n : Nat) (x : Flow) : (setFlow s n x).bell = s.bell := rfl
@[simp] theorem setFlow_lpLost (s : State) (n : Nat) (x : Flow) : (setFlow s n x).lpLost = s.lpLost := rfl
@[simp] theorem setFlow_chn (s : State) (n : Nat) (x : Flow) : (setFlow s n x).chn = s.chn := rfl
@[simp] theorem setFlow_ten (s : State) (n : Nat) (x : Flow) : (setFlow s n x).ten = s.ten := rfl
@[simp] theorem setFlow_hl (s : State) (n : Nat) (x : Flow) : (setFlow s n x).hl = s.hl := rfl
@[simp] theorem setFlow_mgt (s : State) (n : Nat) (x : Flow) : (setFlow s n x).mgt = s.mgt := rfl
@[simp] theorem setFlow_pins (s : State) (n : Nat) (x : Flow) : (setFlow s n x).pins = s.pins := rfl
@[simp] theorem setFlow_thm (s : State) (n : Nat) (x : Flow) : (setFlow s n x).thm = s.thm := rfl
@[simp] theorem setFlow_sto (s : State) (n : Nat) (x : Flow) : (setFlow s n x).sto = s.sto := rfl
@[simp] theorem setFlow_chat (s : State) (n : Nat) (x : Flow) : (setFlow s n x).chat = s.chat := rfl
@[simp] theorem setFlow_route (s : State) (n : Nat) (x : Flow) : (setFlow s n x).route = s.route := rfl

/-! ### setDq -/

@[simp] theorem setDq_pending (s : State) (n : Nat) (x : DmaQ) : (setDq s n x).pending = s.pending := rfl
@[simp] theorem setDq_free (s : State) (n : Nat) (x : DmaQ) : (setDq s n x).free = s.free := rfl
@[simp] theorem setDq_reply (s : State) (n : Nat) (x : DmaQ) : (setDq s n x).reply = s.reply := rfl
@[simp] theorem setDq_regs (s : State) (n : Nat) (x : DmaQ) : (setDq s n x).regs = s.regs := rfl
@[simp] theorem setDq_mem (s : State) (n : Nat) (x : DmaQ) : (setDq s n x).mem = s.mem := rfl
@[simp] theorem setDq_hold (s : State) (n : Nat) (x : DmaQ) : (setDq s n x).hold = s.hold := rfl
@[simp] theorem setDq_dev (s : State) (n : Nat) (x : DmaQ) : (setDq s n x).dev = s.dev := rfl
@[simp] theorem setDq_stale (s : State) (n : Nat) (x : DmaQ) : (setDq s n x).stale = s.stale := rfl
@[simp] theorem setDq_bad (s : State) (n : Nat) (x : DmaQ) : (setDq s n x).bad = s.bad := rfl
@[simp] theorem setDq_cache (s : State) (n : Nat) (x : DmaQ) : (setDq s n x).cache = s.cache := rfl
@[simp] theorem setDq_chan (s : State) (n : Nat) (x : DmaQ) : (setDq s n x).chan = s.chan := rfl
@[simp] theorem setDq_arb (s : State) (n : Nat) (x : DmaQ) : (setDq s n x).arb = s.arb := rfl
@[simp] theorem setDq_waits (s : State) (n : Nat) (x : DmaQ) : (setDq s n x).waits = s.waits := rfl
@[simp] theorem setDq_closing (s : State) (n : Nat) (x : DmaQ) : (setDq s n x).closing = s.closing := rfl
@[simp] theorem setDq_tile (s : State) (n : Nat) (x : DmaQ) : (setDq s n x).tile = s.tile := rfl
@[simp] theorem setDq_cluster (s : State) (n : Nat) (x : DmaQ) : (setDq s n x).cluster = s.cluster := rfl
@[simp] theorem setDq_grpPush (s : State) (n : Nat) (x : DmaQ) : (setDq s n x).grpPush = s.grpPush := rfl
@[simp] theorem setDq_grpCred (s : State) (n : Nat) (x : DmaQ) : (setDq s n x).grpCred = s.grpCred := rfl
@[simp] theorem setDq_reed (s : State) (n : Nat) (x : DmaQ) : (setDq s n x).reed = s.reed := rfl
@[simp] theorem setDq_drone (s : State) (n : Nat) (x : DmaQ) : (setDq s n x).drone = s.drone := rfl
@[simp] theorem setDq_rep (s : State) (n : Nat) (x : DmaQ) : (setDq s n x).rep = s.rep := rfl
@[simp] theorem setDq_fab (s : State) (n : Nat) (x : DmaQ) : (setDq s n x).fab = s.fab := rfl
@[simp] theorem setDq_bell (s : State) (n : Nat) (x : DmaQ) : (setDq s n x).bell = s.bell := rfl
@[simp] theorem setDq_lpLost (s : State) (n : Nat) (x : DmaQ) : (setDq s n x).lpLost = s.lpLost := rfl
@[simp] theorem setDq_chn (s : State) (n : Nat) (x : DmaQ) : (setDq s n x).chn = s.chn := rfl
@[simp] theorem setDq_ten (s : State) (n : Nat) (x : DmaQ) : (setDq s n x).ten = s.ten := rfl
@[simp] theorem setDq_mgt (s : State) (n : Nat) (x : DmaQ) : (setDq s n x).mgt = s.mgt := rfl
@[simp] theorem setDq_pins (s : State) (n : Nat) (x : DmaQ) : (setDq s n x).pins = s.pins := rfl
@[simp] theorem setDq_thm (s : State) (n : Nat) (x : DmaQ) : (setDq s n x).thm = s.thm := rfl
@[simp] theorem setDq_sto (s : State) (n : Nat) (x : DmaQ) : (setDq s n x).sto = s.sto := rfl
@[simp] theorem setDq_chat (s : State) (n : Nat) (x : DmaQ) : (setDq s n x).chat = s.chat := rfl
@[simp] theorem setDq_route (s : State) (n : Nat) (x : DmaQ) : (setDq s n x).route = s.route := rfl

/-! ### setEnd -/

@[simp] theorem setEnd_pending (s : State) (n : Nat) (x : TEnd) : (setEnd s n x).pending = s.pending := rfl
@[simp] theorem setEnd_free (s : State) (n : Nat) (x : TEnd) : (setEnd s n x).free = s.free := rfl
@[simp] theorem setEnd_reply (s : State) (n : Nat) (x : TEnd) : (setEnd s n x).reply = s.reply := rfl
@[simp] theorem setEnd_regs (s : State) (n : Nat) (x : TEnd) : (setEnd s n x).regs = s.regs := rfl
@[simp] theorem setEnd_mem (s : State) (n : Nat) (x : TEnd) : (setEnd s n x).mem = s.mem := rfl
@[simp] theorem setEnd_hold (s : State) (n : Nat) (x : TEnd) : (setEnd s n x).hold = s.hold := rfl
@[simp] theorem setEnd_dev (s : State) (n : Nat) (x : TEnd) : (setEnd s n x).dev = s.dev := rfl
@[simp] theorem setEnd_stale (s : State) (n : Nat) (x : TEnd) : (setEnd s n x).stale = s.stale := rfl
@[simp] theorem setEnd_bad (s : State) (n : Nat) (x : TEnd) : (setEnd s n x).bad = s.bad := rfl
@[simp] theorem setEnd_cache (s : State) (n : Nat) (x : TEnd) : (setEnd s n x).cache = s.cache := rfl
@[simp] theorem setEnd_chan (s : State) (n : Nat) (x : TEnd) : (setEnd s n x).chan = s.chan := rfl
@[simp] theorem setEnd_arb (s : State) (n : Nat) (x : TEnd) : (setEnd s n x).arb = s.arb := rfl
@[simp] theorem setEnd_waits (s : State) (n : Nat) (x : TEnd) : (setEnd s n x).waits = s.waits := rfl
@[simp] theorem setEnd_closing (s : State) (n : Nat) (x : TEnd) : (setEnd s n x).closing = s.closing := rfl
@[simp] theorem setEnd_tile (s : State) (n : Nat) (x : TEnd) : (setEnd s n x).tile = s.tile := rfl
@[simp] theorem setEnd_cluster (s : State) (n : Nat) (x : TEnd) : (setEnd s n x).cluster = s.cluster := rfl
@[simp] theorem setEnd_grpPush (s : State) (n : Nat) (x : TEnd) : (setEnd s n x).grpPush = s.grpPush := rfl
@[simp] theorem setEnd_grpCred (s : State) (n : Nat) (x : TEnd) : (setEnd s n x).grpCred = s.grpCred := rfl
@[simp] theorem setEnd_reed (s : State) (n : Nat) (x : TEnd) : (setEnd s n x).reed = s.reed := rfl
@[simp] theorem setEnd_drone (s : State) (n : Nat) (x : TEnd) : (setEnd s n x).drone = s.drone := rfl
@[simp] theorem setEnd_rep (s : State) (n : Nat) (x : TEnd) : (setEnd s n x).rep = s.rep := rfl
@[simp] theorem setEnd_fab (s : State) (n : Nat) (x : TEnd) : (setEnd s n x).fab = s.fab := rfl
@[simp] theorem setEnd_bell (s : State) (n : Nat) (x : TEnd) : (setEnd s n x).bell = s.bell := rfl
@[simp] theorem setEnd_lpLost (s : State) (n : Nat) (x : TEnd) : (setEnd s n x).lpLost = s.lpLost := rfl
@[simp] theorem setEnd_chn (s : State) (n : Nat) (x : TEnd) : (setEnd s n x).chn = s.chn := rfl
@[simp] theorem setEnd_hl (s : State) (n : Nat) (x : TEnd) : (setEnd s n x).hl = s.hl := rfl
@[simp] theorem setEnd_mgt (s : State) (n : Nat) (x : TEnd) : (setEnd s n x).mgt = s.mgt := rfl
@[simp] theorem setEnd_pins (s : State) (n : Nat) (x : TEnd) : (setEnd s n x).pins = s.pins := rfl
@[simp] theorem setEnd_thm (s : State) (n : Nat) (x : TEnd) : (setEnd s n x).thm = s.thm := rfl
@[simp] theorem setEnd_sto (s : State) (n : Nat) (x : TEnd) : (setEnd s n x).sto = s.sto := rfl
@[simp] theorem setEnd_chat (s : State) (n : Nat) (x : TEnd) : (setEnd s n x).chat = s.chat := rfl
@[simp] theorem setEnd_route (s : State) (n : Nat) (x : TEnd) : (setEnd s n x).route = s.route := rfl

end Sys2Proof.Machine
end

