-- ==== Sys2Proof/Laws/Table.lean ====
section
/-! SUPPORT. Laws of sparse tables: a read after a write, and the canonical form. They hold of every table unless they
name the form. -/

namespace Sys2Proof.Machine

variable {α : Type}

/-! ### Reads after writes -/

theorem tget_terase_self (d : α) (m : Tbl α) (k : Nat) : tget d (terase m k) k = d := by
  induction m with
  | nil => rfl
  | cons p r ih =>
    obtain ⟨j, v⟩ := p
    by_cases h : j = k <;> simp [terase, tget, h, ih]

theorem tget_terase_ne (d : α) (m : Tbl α) {k l : Nat} (h : l ≠ k) : tget d (terase m k) l = tget d m l := by
  induction m with
  | nil => rfl
  | cons p r ih =>
    obtain ⟨j, v⟩ := p
    by_cases hj : j = k
    · subst hj; simp [terase, tget, ih, Ne.symm h]
    · simp [terase, tget, ih, hj]

theorem tget_tinsert_self (d : α) (m : Tbl α) (k : Nat) (v : α) : tget d (tinsert m k v) k = v := by
  induction m with
  | nil => simp [tinsert, tget]
  | cons p r ih =>
    obtain ⟨j, w⟩ := p
    unfold tinsert
    split
    · simp [tget]
    · split
      · simp [tget]
      · simp [tget, ih]; intro h; omega

theorem tget_tinsert_ne (d : α) (m : Tbl α) {k l : Nat} (v : α) (h : l ≠ k) :
    tget d (tinsert m k v) l = tget d m l := by
  induction m with
  | nil => simp [tinsert, tget, Ne.symm h]
  | cons p r ih =>
    obtain ⟨j, w⟩ := p
    unfold tinsert
    split
    · simp [tget, Ne.symm h]
    · split
      · rename_i h1 h2; subst h2; simp [tget, Ne.symm h]
      · simp [tget, ih]

theorem tget_unlisted (d : α) {m : Tbl α} {k : Nat} (h : m.any (fun p => p.1 = k) = false) : tget d m k = d := by
  induction m with
  | nil => rfl
  | cons p r ih =>
    obtain ⟨j, v⟩ := p
    simp only [List.any_cons, Bool.or_eq_false_iff, decide_eq_false_iff_not] at h
    simp [tget, h.1, ih h.2]

variable [DecidableEq α]

@[simp] theorem tget_tset_self (d : α) (m : Tbl α) (k : Nat) (v : α) : tget d (tset d m k v) k = v := by
  unfold tset
  split
  · rename_i h; subst h; exact tget_terase_self _ _ _
  · exact tget_tinsert_self _ _ _ _

theorem tget_tset_ne (d : α) (m : Tbl α) {k l : Nat} (v : α) (h : l ≠ k) :
    tget d (tset d m k v) l = tget d m l := by
  unfold tset
  split
  · exact tget_terase_ne _ _ h
  · exact tget_tinsert_ne _ _ _ h

/-- A read after a write, at any key. -/
theorem tget_tset (d : α) (m : Tbl α) (k l : Nat) (v : α) :
    tget d (tset d m k v) l = if l = k then v else tget d m l := by
  split
  · rename_i h; subst h; exact tget_tset_self _ _ _ _
  · rename_i h; exact tget_tset_ne _ _ _ h

/-! ### The canonical form -/

theorem twfFrom_mono (d : α) {m : Tbl α} {a b : Nat} (hab : a ≤ b) (h : twfFrom d b m = true) :
    twfFrom d a m = true := by
  cases m with
  | nil => rfl
  | cons p r =>
    obtain ⟨k, v⟩ := p
    simp only [twfFrom, Bool.and_eq_true, decide_eq_true_eq] at h ⊢
    exact ⟨⟨by omega, h.1.2⟩, h.2⟩

theorem twfFrom_terase (d : α) (k : Nat) {m : Tbl α} {lo : Nat} (h : twfFrom d lo m = true) :
    twfFrom d lo (terase m k) = true := by
  induction m generalizing lo with
  | nil => rfl
  | cons p r ih =>
    obtain ⟨j, v⟩ := p
    simp only [twfFrom, Bool.and_eq_true, decide_eq_true_eq] at h
    unfold terase
    split
    · exact twfFrom_mono d (by omega) (ih h.2)
    · simp only [twfFrom, Bool.and_eq_true, decide_eq_true_eq]
      exact ⟨h.1, ih h.2⟩

theorem twfFrom_tinsert (d : α) {k : Nat} {v : α} (hv : v ≠ d) {m : Tbl α} {lo : Nat} (hk : lo ≤ k)
    (h : twfFrom d lo m = true) : twfFrom d lo (tinsert m k v) = true := by
  induction m generalizing lo with
  | nil => simp [tinsert, twfFrom, hv, hk]
  | cons p r ih =>
    obtain ⟨j, w⟩ := p
    simp only [twfFrom, Bool.and_eq_true, decide_eq_true_eq] at h
    obtain ⟨⟨h1, h2⟩, h3⟩ := h
    unfold tinsert
    split
    · simp only [twfFrom, Bool.and_eq_true, decide_eq_true_eq]
      exact ⟨⟨hk, hv⟩, ⟨by omega, h2⟩, h3⟩
    · split
      · rename_i hj; subst hj
        simp only [twfFrom, Bool.and_eq_true, decide_eq_true_eq]
        exact ⟨⟨hk, hv⟩, h3⟩
      · simp only [twfFrom, Bool.and_eq_true, decide_eq_true_eq]
        exact ⟨⟨h1, h2⟩, ih (by omega) h3⟩

/-- A write keeps the canonical form. -/
theorem twf_tset (d : α) (k : Nat) (v : α) {m : Tbl α} (h : twf d m = true) : twf d (tset d m k v) = true := by
  unfold twf tset at *
  split
  · exact twfFrom_terase d k h
  · rename_i hv; exact twfFrom_tinsert d hv (Nat.zero_le k) h

theorem twf_tmapOn (d : α) (f : Nat → α → α) (m ks : Tbl α) {out : Tbl α} (h : twf d out = true) :
    twf d (tmapOn d f m ks out) = true := by
  induction ks generalizing out with
  | nil => exact h
  | cons p r ih => exact ih (twf_tset d _ _ h)

/-- Whatever the table, its image is in canonical form. -/
theorem twf_tmap (d : α) (f : Nat → α → α) (m : Tbl α) : twf d (tmap d f m) = true := twf_tmapOn d f m m rfl

theorem tget_tmapOn (d : α) (f : Nat → α → α) (m ks out : Tbl α) (k : Nat) :
    tget d (tmapOn d f m ks out) k =
      if ks.any (fun p => p.1 = k) then f k (tget d m k) else tget d out k := by
  induction ks generalizing out with
  | nil => rfl
  | cons p r ih =>
    obtain ⟨j, v⟩ := p
    by_cases hj : j = k
    · subst hj; simp [tmapOn, ih]
    · simp only [tmapOn, ih, tget_tset_ne _ _ _ (Ne.symm hj), List.any_cons, decide_eq_false hj, Bool.false_or]

/-- The image under a function that keeps the default, read at a key. -/
theorem tget_tmap (d : α) (f : Nat → α → α) (m : Tbl α) (k : Nat) (hf : f k d = d) :
    tget d (tmap d f m) k = f k (tget d m k) := by
  unfold tmap
  rw [tget_tmapOn]
  split
  · rfl
  · rename_i h
    rw [tget_unlisted d (Bool.eq_false_iff.2 h), hf]; rfl

theorem twfFrom_tkeep (d : α) (p : Nat → Bool) {m : Tbl α} {lo : Nat} (h : twfFrom d lo m = true) :
    twfFrom d lo (tkeep p m) = true := by
  induction m generalizing lo with
  | nil => rfl
  | cons q r ih =>
    obtain ⟨j, v⟩ := q
    simp only [twfFrom, Bool.and_eq_true, decide_eq_true_eq] at h
    unfold tkeep
    split
    · simp only [twfFrom, Bool.and_eq_true, decide_eq_true_eq]
      exact ⟨h.1, ih h.2⟩
    · exact twfFrom_mono d (by omega) (ih h.2)

theorem twf_tkeep (d : α) (p : Nat → Bool) {m : Tbl α} (h : twf d m = true) : twf d (tkeep p m) = true :=
  twfFrom_tkeep d p h

theorem twf_nil (d : α) : twf d ([] : Tbl α) = true := rfl

/-! ### Bytes -/

theorem twf_wrLE (n : Nat) {m : Tbl Byte} (a v : Nat) (h : twf 0 m = true) : twf 0 (wrLE m a v n) = true := by
  induction n generalizing m a v with
  | zero => exact h
  | succ n ih => exact ih _ _ (twf_tset 0 _ _ h)

theorem twf_wrBytes (bs : List Byte) {m : Tbl Byte} (a : Nat) (h : twf 0 m = true) :
    twf 0 (wrBytes m a bs) = true := by
  induction bs generalizing m a with
  | nil => exact h
  | cons b bs ih => exact ih _ (twf_tset 0 _ _ h)

/-- A write of bytes leaves every byte outside them alone. -/
theorem rdByte_wrBytes_out (bs : List Byte) (m : Tbl Byte) (a x : Nat) (h : x < a ∨ a + bs.length ≤ x) :
    rdByte (wrBytes m a bs) x = rdByte m x := by
  induction bs generalizing m a with
  | nil => rfl
  | cons b bs ih =>
    simp only [List.length_cons] at h
    rw [wrBytes, ih _ _ (by omega)]
    exact tget_tset_ne _ _ _ (by omega)

/-- A byte written reads back. -/
theorem rdByte_wrBytes_in (bs : List Byte) (m : Tbl Byte) (a i : Nat) (h : i < bs.length) :
    rdByte (wrBytes m a bs) (a + i) = bs[i] := by
  induction bs generalizing m a i with
  | nil => exact absurd h (Nat.not_lt_zero _)
  | cons b bs ih =>
    cases i with
    | zero =>
      rw [wrBytes, rdByte_wrBytes_out _ _ _ _ (by omega)]
      simp [rdByte]
    | succ i =>
      simp only [List.length_cons] at h
      have := ih (tset 0 m a b) (a + 1) i (by omega)
      rw [wrBytes, show a + (i + 1) = a + 1 + i by omega, this]
      simp

@[simp] theorem length_rdBytes (m : Tbl Byte) (a n : Nat) : (rdBytes m a n).length = n := by
  induction n generalizing a with
  | zero => rfl
  | succ n ih => simp [rdBytes, ih]

/-- Bytes read back after they are written. -/
theorem rdBytes_wrBytes (bs : List Byte) (m : Tbl Byte) (a : Nat) : rdBytes (wrBytes m a bs) a bs.length = bs := by
  induction bs generalizing m a with
  | nil => rfl
  | cons b bs ih =>
    simp only [List.length_cons, rdBytes]
    rw [wrBytes, ih, rdByte_wrBytes_out _ _ _ _ (by omega)]
    simp [rdByte]

end Sys2Proof.Machine
end

