-- ==== Sys2Proof/Laws/Engine.lean ====
section
/-! SUPPORT. Laws of tiles and engines, and of the issue of a bundle by a ready engine. -/

namespace Sys2Proof.Machine

/-! ### Tiles and engines -/

@[simp] theorem getTile_setTile_self (s : State) (t : Nat) (x : Tile) : getTile (setTile s t x) t = x := by
  simp [getTile, setTile]

theorem getTile_setTile_ne (s : State) {t u : Nat} (x : Tile) (h : u ≠ t) :
    getTile (setTile s t x) u = getTile s u := by
  simp [getTile, setTile, tget_tset_ne _ _ _ h]

@[simp] theorem engine_setEngine_self (x : Tile) (e : Nat) (g : Engine) : (x.setEngine e g).engine e = g := by
  simp [Tile.engine, Tile.setEngine]

theorem engine_setEngine_ne (x : Tile) {e f : Nat} (g : Engine) (h : f ≠ e) :
    (x.setEngine e g).engine f = x.engine f := by
  simp [Tile.engine, Tile.setEngine, tget_tset_ne _ _ _ h]

@[simp] theorem getEng_setEng_self (s : State) (a : At) (g : Engine) : getEng (setEng s a g) a = g := by
  simp [getEng, setEng]

@[simp] theorem getEng_modEng_self (s : State) (a : At) (f : Engine → Engine) :
    getEng (modEng s a f) a = f (getEng s a) := by
  simp [modEng]

theorem onlyEngine_refl (s : State) (a : At) : OnlyEngine s s a :=
  ⟨⟨rfl, fun _ _ => rfl⟩, rfl, fun _ _ => rfl⟩

theorem onlyEngine_setEng (s : State) (a : At) (g : Engine) : OnlyEngine s (setEng s a g) a := by
  refine ⟨⟨by simp [setEng, setTile], fun u h => ?_⟩, ?_, fun e h => ?_⟩
  · simp [setEng, getTile_setTile_ne _ _ h]
  · simp [setEng, Tile.setEngine]
  · simp [setEng, engine_setEngine_ne _ _ h]

theorem onlyEngine_modEng (s : State) (a : At) (f : Engine → Engine) : OnlyEngine s (modEng s a f) a :=
  onlyEngine_setEng _ _ _

theorem onlyEngine_trans {s t u : State} {a : At} (h : OnlyEngine s t a) (k : OnlyEngine t u a) :
    OnlyEngine s u a := by
  obtain ⟨⟨h1, h2⟩, h3, h4⟩ := h
  obtain ⟨⟨k1, k2⟩, k3, k4⟩ := k
  exact ⟨⟨by rw [k1, h1], fun w hw => (k2 w hw).trans (h2 w hw)⟩, by rw [k3, h3], fun e he => (k4 e he).trans (h4 e he)⟩

theorem becomes_setEng (s : State) (a : At) (g : Engine) : Becomes s (setEng s a g) a g :=
  ⟨onlyEngine_setEng _ _ _, by simp⟩

theorem becomes_modEng (s : State) (a : At) (f : Engine → Engine) : Becomes s (modEng s a f) a (f (getEng s a)) :=
  ⟨onlyEngine_setEng _ _ _, by simp⟩

theorem becomes_trans {s t u : State} {a : At} {g k : Engine} (h : Becomes s t a g) (i : Becomes t u a k) :
    Becomes s u a k :=
  ⟨onlyEngine_trans h.1 i.1, i.2⟩

/-- A control step that falls through (R118). -/
theorem becomes_fallThrough (s : State) (a : At) (len : Nat) (h : (getEng s a).Falls len) :
    Becomes s (fallThrough s a len) a ((getEng s a).fall len) := by
  unfold Engine.Falls Engine.after at h
  have hn := Nat.not_le.2 h
  unfold fallThrough moveOn passTo
  simp only [hn, if_false]
  exact ⟨onlyEngine_trans (onlyEngine_setEng _ _ _) (onlyEngine_modEng _ _ _), by simp [Engine.fall, Engine.after]⟩

/-- A taken jump. -/
theorem becomes_jumpTo (s : State) (a : At) (target : Nat) :
    Becomes s (jumpTo s a target) a
      { getEng s a with loops := closeFor target (getEng s a).loops, pc := BitVec.ofNat 12 target } :=
  becomes_modEng _ _ _

/-! ### Issue -/

theorem popPends_nil (s : State) (a : At) (u : Use) (h : (getEng s a).results = []) :
    popPends a (pendCount u (getEng s a).results) s = s := by
  rw [h]; rfl

/-- A ready engine issues a bundle that shows no fault and waits for nothing. -/
theorem runBundle_ready {s : State} {a : At} {b : Bundle} (h : Ready s a (bundleLen b))
    (hs : bundleStatic a.eng.toNat b = [])
    (hc : conflictCodes ((b.op.map (opStreams s a.tile.toNat)).getD []) b = [])
    (hk : (b.ctl.map (ctlCodes (getEng s a) (bundleLen b))).getD [] = [])
    (hx : xfersFull (getEng s a) b = false) (hr : ctlReady s a b.ctl = true)
    (hh : heldBack s (sclSpans s (getEng s a) b) = false) :
    runBundle a b s = .next (issueNow s a b) := by
  obtain ⟨h1, h2, h3, -, -, h4⟩ := h
  unfold runBundle
  simp only [h1, if_true]
  unfold issue checked
  simp only [popPends_nil s a _ h2, hs, hc, hk, hx, hr, hh, Nat.not_lt.2 h4, and_false, if_false, List.append_nil, mets,
    List.map_nil, lowestMet, Bool.not_true, Bool.false_eq_true]

theorem go_ready {s : State} {a : At} {len : Nat} (h : Ready s a len) : (getEng s a).go = getEng s a := by
  obtain ⟨h1, h2, h3, h5, h6, h4⟩ := h
  simp only [mayIssue, Bool.and_eq_true, decide_eq_true_eq, Option.isNone_iff_eq_none] at h1
  obtain ⟨⟨hp, hh⟩, -⟩ := h1
  unfold Engine.go
  rw [← hp, ← hh, ← h3, ← h5, ← h6]

/-- The start of an issue changes nothing of a ready engine. -/
theorem issue_start {s : State} {a : At} {len : Nat} (h : Ready s a len) :
    Becomes s (modEng s a Engine.go) a (getEng s a) := by
  have := becomes_modEng s a Engine.go
  rwa [go_ready h] at this

/-- A bundle of one control operation that is ready and shows no fault comes to slot 0's effect. -/
theorem runBundle_ctl {s : State} {a : At} {c : Ctl} {len : Nat} (hl : bundleLen { ctl := some c } = len)
    (hr : Ready s a len) (hk : ctlCodes (getEng s a) len c = []) (hw : ctlReady s a (some c) = true)
    (hn : ∀ sem n, c ≠ .wait sem n) :
    ∃ s', runBundle a { ctl := some c } s =
        .next (finish s' a len (ctlXaOf (getEng s a) c) (some (settleCtl (getEng s a) c))) ∧
      Becomes s s' a (getEng s a) := by
  subst hl
  rw [runBundle_ready hr rfl (by simp [conflictCodes, optUse, writesMeet, meets]) hk rfl hw rfl]
  have h0 := issue_start hr
  refine ⟨_, ?_, h0⟩
  have hm : bundleMets s a { ctl := some c } none = ([], {}, s) := rfl
  have ht : trapMets { ctl := some c } [] = [] := by cases c <;> rfl
  have hw : takeWait s a { ctl := some c } = s := by
    cases c <;> first | rfl | exact absurd rfl (hn _ _)
  have hl : landWrites (modEng s a Engine.go) a (some c) = modEng s a Engine.go := by
    unfold landWrites
    rw [h0.2, hr.quiet]
    cases c <;> rfl
  simp only [issueNow, hm, ht, List.append_nil, lowestMet, Option.bind_none, hw, actBundle, actSlots, hl, h0.2,
    Option.map_some, Option.getD_some]

/-- The engine faults, and nothing else of the state changes but its report. -/
theorem stops_faultEngine (s : State) (a : At) (code : Nat) (addr trap : Word) (p : Nat) :
    Stops s (faultEngine s a code addr trap (p, false)) a code := by
  have e : getEng (faultEngine s a code addr trap (p, false)) a =
      { getEng s a with phase := .faulted, fault := BitVec.ofNat 16 code, held := none, full := false, answer := none, plan := none } := by
    show getEng (setEng s a _) a = _
    simp
  constructor
  · simp [e]
  · simp [e]
  · simp [e]
  · simp [e]
  · exact onlyEngine_setEng _ _ _
  · exact ⟨_, rfl, rfl, rfl, rfl⟩

/-- A condition that a bundle meets stops the engine. -/
theorem stops_meetFault (s : State) (a : At) (b : Bundle) (m : Met) : Stops s (meetFault s a b m) a m.code := by
  have h (n : Nat) : faultOrigin m.code n false = (if m.code = 0x4022 then n else 0, false) := by
    unfold faultOrigin; split <;> rfl
  unfold meetFault
  rw [h]
  exact stops_faultEngine _ _ _ _ _ _

/-- A ready engine that meets conditions stops with the lowest code. -/
theorem runBundle_stops {s : State} {a : At} {b : Bundle} (h : Ready s a (bundleLen b)) {m : Met}
    (hc : lowestMet (mets (bundleStatic a.eng.toNat b ++
      conflictCodes ((b.op.map (opStreams s a.tile.toNat)).getD []) b ++
      ((b.ctl.map (ctlCodes (getEng s a) (bundleLen b))).getD []))) = some m) :
    ∃ t, runBundle a b s = .next t ∧ Stops s t a m.code := by
  obtain ⟨h1, h2, h3, -, -, h4⟩ := h
  refine ⟨meetFault s a b m, ?_, stops_meetFault _ _ _ _⟩
  simp only [runBundle, h1, if_true, issue, checked, popPends_nil s a _ h2, Nat.not_lt.2 h4, and_false, if_false, List.nil_append,
    List.append_nil, hc]

theorem becomes_fall {s s' : State} {a : At} {g : Engine} {len : Nat} (h : Becomes s s' a g) (hf : g.Falls len) :
    Becomes s (fallThrough s' a len) a (g.fall len) := by
  have := becomes_fallThrough s' a len (by rw [h.2]; exact hf)
  rw [h.2] at this
  exact becomes_trans h this

theorem closeFor_eq (t : Nat) (ls : List Loop) :
    closeFor t ls = ls.dropWhile (fun l => !decide (l.start ≤ t ∧ t < l.exit)) := by
  induction ls with
  | nil => rfl
  | cons l ls ih => by_cases h : l.start ≤ t ∧ t < l.exit <;> simp [closeFor, List.dropWhile, h, ih]

theorem becomes_jump {s s' : State} {a : At} {g : Engine} (h : Becomes s s' a g) (t : Nat) :
    Becomes s (jumpTo s' a t) a (g.jump t) := by
  have := becomes_jumpTo s' a t
  rw [closeFor_eq, h.2] at this
  exact becomes_trans h this

end Sys2Proof.Machine
end

