-- ==== Sys2Proof/Laws/Ops.lean ====
section
/-! SUPPORT. What stamps, reports, wakes and tokens do: registers read back as written, and everything each shared operation of
Machine/Ops.lean can change. -/

namespace Sys2Proof.Machine

/-! ### Registers -/

@[simp] theorem regGet_regPut_self (s : State) (a : Nat) (w : Word) : regGet (regPut s a w) a = w := by
  simp [regGet, regPut]

theorem regGet_regPut_ne (s : State) {a b : Nat} (w : Word) (h : b ≠ a) : regGet (regPut s a w) b = regGet s b := by
  unfold regGet regPut tset
  simp only
  split
  · exact tget_terase_ne _ _ h
  · exact tget_tinsert_ne _ _ _ h

/-! ### Stamps and reports -/

/-- What a stamp or a report changes: records, counters and free draws, and the registers of storms and notices. -/
def Reported (s t : State) : Prop := t = { s with rep := t.rep, free := t.free, regs := t.regs }

theorem reported_refl (s : State) : Reported s s := rfl

theorem reported_trans {s t u : State} (h : Reported s t) (k : Reported t u) : Reported s u := by
  unfold Reported at *
  rw [k, h]

/-- A stamp changes its unit's last stamp and a draw, and raises nothing. -/
theorem takeStamp_frame (s : State) (u : Nat) :
    (takeStamp s u).2 = { s with free := s.free + 1, rep := (takeStamp s u).2.rep } ∧
    (takeStamp s u).2.rep.raised = s.rep.raised := ⟨rfl, rfl⟩

/-- A record emitted is the last of those raised; it carries its code, unit and arguments (R476). -/
theorem emit_raises (s : State) (u code : Nat) (i : Info) :
    ∃ r, (emit s u code i).rep.raised = s.rep.raised ++ [r] ∧ r.code = BitVec.ofNat 16 code ∧ r.unit = u ∧
      r.a0 = i.a0 ∧ r.a1 = i.a1 ∧ r.a2 = i.a2 ∧ r.a3 = i.a3 ∧ r.tag = i.tag ∧ r.peer = i.peer ∧ r.remote = i.remote :=
  ⟨_, rfl, rfl, rfl, rfl, rfl, rfl, rfl, rfl, rfl, rfl⟩

theorem emit_frame (s : State) (u code : Nat) (i : Info) : Reported s (emit s u code i) := rfl

theorem regPut_frame (s : State) (a : Nat) (w : Word) : Reported s (regPut s a w) := rfl

/-- A local report is one emission. -/
theorem report_local (s : State) (u code : Nat) (i : Info) (h : i.remote = false) : report s u code i = emit s u code i := by
  simp [report, h]

/-- Everything a report can change. -/
theorem report_frame (s : State) (u code : Nat) (i : Info) : Reported s (report s u code i) := by
  unfold report reportRemote
  split
  · split
    · rfl
    · split
      · rfl
      · split
        · rfl
        · split
          · rfl
          · rfl
  · rfl

/-! ### Wakes and tokens -/

/-- A wake changes the clock states of one tile and its cluster. -/
theorem wakeTile_frame (s : State) (t : Nat) :
    wakeTile s t = { s with tile := (wakeTile s t).tile, cluster := (wakeTile s t).cluster } := by
  unfold wakeTile
  dsimp only
  split <;> split <;> (try split) <;> rfl

/-- A wake leaves every semaphore and engine as it was. -/
theorem wakeTile_tile (s : State) (t u : Nat) :
    ∃ g w, getTile (wakeTile s t) u = { getTile s u with gated := g, waking := w } := by
  have other (s : State) (x : Tile) (h : ∃ g w, x = { getTile s t with gated := g, waking := w }) :
      ∃ g w, getTile (setTile s t x) u = { getTile s u with gated := g, waking := w } := by
    obtain ⟨g, w, rfl⟩ := h
    by_cases hu : u = t
    · subst hu; exact ⟨g, w, by simp [getTile, setTile]⟩
    · exact ⟨(getTile s u).gated, (getTile s u).waking, by simp [getTile, setTile, tget_tset_ne _ _ _ hu]⟩
  unfold wakeTile
  dsimp only
  split <;> split <;> (try split)
  all_goals first
    | exact ⟨_, _, rfl⟩
    | exact other s _ ⟨_, _, rfl⟩
    | exact other (setCluster s _ _) _ ⟨_, _, rfl⟩

/-- What an arrival changes: tiles, clusters, what waits for their clocks, and what a report changes. -/
def Arrived (s t : State) : Prop :=
  t = { s with tile := t.tile, cluster := t.cluster, waits := t.waits, rep := t.rep, free := t.free, regs := t.regs }

theorem arrived_trans {s t u : State} (h : Arrived s t) (k : Arrived t u) : Arrived s u := by
  unfold Arrived at *
  rw [k, h]

theorem arrived_of_reported {s t : State} (h : Reported s t) : Arrived s t := by
  unfold Arrived Reported at *
  rw [h]

theorem wakeTile_arrived (s : State) (t : Nat) : Arrived s (wakeTile s t) := by
  unfold Arrived
  rw [wakeTile_frame]

theorem semAdd_arrived (s : State) (t sem n : Nat) : Arrived s (semAdd s t sem n) := by
  unfold semAdd
  dsimp only
  split
  · rfl
  · exact arrived_trans (t := rsetb (setTile s t _) _ _ _) rfl (arrived_of_reported (report_frame _ _ _ _))

theorem callTiles_arrived (s : State) (xs : List (Nat × Nat)) : Arrived s (callTiles s xs) := by
  unfold callTiles
  generalize xs.flatMap spanTiles = ts
  induction ts generalizing s with
  | nil => rfl
  | cons t ts ih =>
    refine arrived_trans (t := if tileStops s t = true then wakeTile s t else s) ?_ (ih _)
    split
    · exact wakeTile_arrived s t
    · rfl

/-- Held work joins the line, and starts the clocks that it waits for (R95). -/
theorem holdWork_arrived (s : State) (xs : List (Nat × Nat)) (w : Work) : Arrived s (holdWork s xs w) :=
  arrived_trans (callTiles_arrived s xs) rfl

/-- Everything a token can change. -/
theorem token_arrived (s : State) (t sem n : Nat) : Arrived s (token s t sem n) := by
  unfold token
  split
  · rfl
  · split
    · exact arrived_of_reported (report_frame _ _ _ _)
    · split
      · exact holdWork_arrived _ _ _
      · exact arrived_trans (wakeTile_arrived _ _) (semAdd_arrived _ _ _ _)

/-- A token at an awake tile of a running cluster is one sum (R81, R86). -/
theorem token_awake (s : State) (t sem n : Nat) (hn : n ≠ 0) (hd : tileDeaf s t = false) (hg : (getTile s t).gated = false)
    (hc : (getCluster s (clusterOf t)).clk = .running) : token s t sem n = semAdd s t sem n := by
  have hw : wakeTile s t = s := by simp [wakeTile, hg, hc]
  simp [token, tileStops, hn, hd, hw, hc]

/-- A sum that does not saturate sets the one semaphore. -/
theorem semAdd_value (s : State) (t sem n : Nat) (h : (getTile s t).semVal sem + n ≤ 65535) :
    semAdd s t sem n = setTile s t ((getTile s t).setSem sem ((getTile s t).semVal sem + n)) := by
  simp [semAdd, h]

/-- An engine's fault changes its tile and what a report changes (R100). -/
theorem faultEngine_arrived (s : State) (a : At) (code : Nat) (addr trap : Word) (w : Nat × Bool) :
    Arrived s (faultEngine s a code addr trap w) := by
  unfold faultEngine
  exact arrived_trans (t := setEng s a _) rfl (arrived_of_reported (report_frame _ _ _ _))

end Sys2Proof.Machine
end

