-- ==== Sys2Proof/Laws/Memory.lean ====
section
/-! SUPPORT. What memory operations do: HBM touches no tile memory, and every memory keeps its canonical form. -/

namespace Sys2Proof.Machine

/-! ### HBM -/

/-- What an HBM access changes: devices, caches, channels, their arbiters, and what a report changes. -/
def InHbm (s t : State) : Prop :=
  t = { s with dev := t.dev, bad := t.bad, cache := t.cache, chan := t.chan, arb := t.arb, rep := t.rep, free := t.free
               regs := t.regs }

theorem inHbm_refl (s : State) : InHbm s s := rfl

theorem inHbm_trans {s t u : State} (h : InHbm s t) (k : InHbm t u) : InHbm s u := by
  unfold InHbm at *
  rw [k, h]

theorem inHbm_of_reported {s t : State} (h : Reported s t) : InHbm s t := by
  unfold InHbm Reported at *
  rw [h]

theorem inHbm_devPut (s : State) (k : Nat) (bs : List Byte) : InHbm s (devPut s k bs) := by
  induction bs generalizing s k with
  | nil => rfl
  | cons b bs ih => exact inHbm_trans (t := { s with dev := _ }) rfl (ih _ _)

theorem inHbm_devWrite (s : State) (k : Nat) (bs : List Byte) : InHbm s (devWrite s k bs) :=
  inHbm_trans (inHbm_devPut s k bs) rfl

theorem inHbm_queue (p : Spot) (s : State) (cls n : Nat) : InHbm s (p.queue s cls n) := by
  unfold Spot.queue
  dsimp only
  split <;> rfl

theorem inHbm_writeBack (s : State) (l : Line) : InHbm s (writeBack s l) := by
  unfold writeBack
  split
  · split
    · exact inHbm_of_reported (report_frame _ _ _ _)
    · exact inHbm_trans (inHbm_queue _ _ _ _) (inHbm_devWrite _ _ _)
  · rfl

theorem inHbm_putLine (s : State) (d : Nat) (l : Line) : InHbm s (putLine s d l) := by
  unfold putLine
  dsimp only
  split
  · split
    · exact inHbm_trans (t := setLines s d _) rfl (inHbm_writeBack _ _)
    · rfl
  · rfl

theorem inHbm_reportUe (s : State) (c g : Nat) (tell : Bool) : InHbm s (reportUe s c g tell) := by
  unfold reportUe
  dsimp only
  split
  · rfl
  · exact inHbm_trans (t := rsetb s _ _ _) rfl (inHbm_of_reported (report_frame _ _ _ _))

theorem inHbm_drainEntry (s : State) (c : Nat) (e : WcEntry) : InHbm s (drainEntry s c e) := by
  unfold drainEntry
  dsimp only
  have h : InHbm s (removeWc s c e.gran) := rfl
  split
  · exact h
  · rename_i p _
    split
    · exact inHbm_trans h (inHbm_of_reported (report_frame _ _ _ _))
    · have k := inHbm_trans h (inHbm_queue p _ 4 (if e.mask.toNat = fullMask then 1 else 2))
      generalize p.queue (removeWc s c e.gran) 4 (if e.mask.toNat = fullMask then 1 else 2) = y at *
      split
      · exact inHbm_trans k (inHbm_devWrite _ _ _)
      · split
        · exact inHbm_trans k (inHbm_reportUe _ _ _ _)
        · exact inHbm_trans k (inHbm_devWrite _ _ _)

theorem inHbm_drainGran (s : State) (c g : Nat) : InHbm s (drainGran s c g) := by
  unfold drainGran
  split
  · exact inHbm_drainEntry _ _ _
  · rfl

theorem inHbm_combine (s : State) (c g mask : Nat) (bs : List Byte) : InHbm s (combine s c g mask bs) := by
  unfold combine
  split
  · dsimp only
    split
    · exact inHbm_trans (t := setChan s c _) rfl (inHbm_drainEntry _ _ _)
    · rfl
  · dsimp only
    split
    · rfl
    · split
      · exact inHbm_trans (inHbm_drainEntry _ _ _) rfl
      · rfl

/-- Everything a read of one granule can change (R249, R250). -/
theorem inHbm_readGran (s : State) (g : Nat) (alloc : Bool) (cls : Nat) (tell : Bool) : InHbm s (readGran s g alloc cls tell).2.2 := by
  unfold readGran
  split
  · rfl
  · dsimp only
    split
    · rfl
    · split
      · dsimp only; split
        · exact inHbm_putLine _ _ _
        · rfl
      · split
        · exact inHbm_trans (inHbm_queue _ _ _ _) (inHbm_reportUe _ _ _ _)
        · split
          · exact inHbm_trans (inHbm_queue _ _ _ _) (inHbm_putLine _ _ _)
          · exact inHbm_queue _ _ _ _

/-- Everything a write of one granule can change (R249, R252, R254). -/
theorem inHbm_writeGran (s : State) (g mask : Nat) (bs : List Byte) (cls : Nat) : InHbm s (writeGran s g mask bs cls).2 := by
  unfold writeGran
  split
  · rfl
  · dsimp only
    split
    · rfl
    · split
      · split
        · exact inHbm_trans (inHbm_drainGran _ _ _) (inHbm_putLine _ _ _)
        · exact inHbm_trans (inHbm_drainGran _ _ _) (inHbm_trans (inHbm_queue _ _ _ _) (inHbm_devWrite _ _ _))
      · split
        · dsimp only
          split
          · exact inHbm_putLine _ _ _
          · exact inHbm_trans (inHbm_putLine _ _ _) (inHbm_combine _ _ _ _ _)
        · exact inHbm_combine _ _ _ _ _

theorem inHbm_readGrans (n : Nat) (s : State) (g : Nat) (alloc : Bool) (cls : Nat) (tell : Bool) :
    InHbm s (readGrans s g alloc cls tell n).2.2 := by
  induction n generalizing s g with
  | zero => rfl
  | succ n ih => exact inHbm_trans (inHbm_readGran s g alloc cls tell) (ih _ _)

theorem inHbm_hbmRead (s : State) (a len : Nat) (alloc : Bool) (cls : Nat) (tell : Bool) :
    InHbm s (hbmRead s a len alloc cls tell).2.2 := by
  unfold hbmRead
  split
  · rfl
  · dsimp only
    split
    · exact inHbm_readGrans _ _ _ _ _ _
    · exact inHbm_readGrans _ _ _ _ _ _

theorem inHbm_hbmWriteFrom (cls n : Nat) (s : State) (a : Nat) (bs : List Byte) :
    InHbm s (hbmWriteFrom cls n s a bs).2 := by
  induction n generalizing s a bs with
  | zero => rfl
  | succ n ih =>
    unfold hbmWriteFrom
    split
    · rfl
    · exact inHbm_trans (inHbm_writeGran _ _ _ _ _) (ih _ _ _)

theorem inHbm_hbmWrite (s : State) (a : Nat) (bs : List Byte) (cls : Nat) : InHbm s (hbmWrite s a bs cls).2 :=
  inHbm_hbmWriteFrom _ _ _ _ _

/-- Everything a record can change (R255 to R259). -/
theorem inHbm_performRecord (s : State) (w0 w1 w2 w3 : Word) (tell : Bool) : InHbm s (performRecord s w0 w1 w2 w3 tell).2 := by
  unfold performRecord
  dsimp only
  split
  · rfl
  · split
    · rfl
    · rename_i rg p _
      split
      · rfl
      · have h0 := inHbm_drainGran s p.chan (fld w0 47 0 / 64)
        generalize drainGran s p.chan (fld w0 47 0 / 64) = y at *
        by_cases hc : rgnCacheSite y rg = true
        · simp only [hc, if_true]
          split
          · exact inHbm_trans h0 (inHbm_reportUe _ _ _ _)
          · exact inHbm_trans h0 (inHbm_trans (inHbm_putLine _ _ _) rfl)
        · simp only [hc, if_false, Bool.false_eq_true]
          have hq := inHbm_trans h0 (inHbm_queue p y 2 2)
          generalize p.queue y 2 2 = v at *
          cases hl : findLine v (homeDie p.chan) (fld w0 47 0 / 64) with
          | none =>
            simp only
            split
            · exact inHbm_trans hq (inHbm_reportUe _ _ _ _)
            · exact inHbm_trans hq (inHbm_trans (inHbm_devWrite _ _ _) rfl)
          | some l =>
            simp only
            have h1 : InHbm s (dropLine (if l.dirty = true then writeBack v l else v) (homeDie p.chan) (fld w0 47 0 / 64)) := by
              refine inHbm_trans hq ?_
              split
              · exact inHbm_trans (inHbm_writeBack _ _) rfl
              · rfl
            generalize dropLine (if l.dirty = true then writeBack v l else v) (homeDie p.chan) (fld w0 47 0 / 64) = z at *
            split
            · exact inHbm_trans h1 (inHbm_reportUe _ _ _ _)
            · exact inHbm_trans h1 (inHbm_trans (inHbm_devWrite _ _ _) rfl)

theorem reportLost_reported (s : State) (req : Req) (d : Nat) : Reported s (reportLost s req d) := by
  unfold reportLost
  split
  · rfl
  · exact report_frame _ _ _ _

theorem reportAccess_reported (s : State) (req : Req) (code a : Nat) : Reported s (reportAccess s req code a) := by
  unfold reportAccess
  split
  · rfl
  · dsimp only
    split <;> first | rfl | exact report_frame _ _ _ _ | exact reportLost_reported _ _ _ | (split <;> first | rfl | exact report_frame _ _ _ _)

theorem reportWindow_reported (s : State) (req : Req) (code a : Nat) : Reported s (reportWindow s req code a) := by
  unfold reportWindow
  split
  · rfl
  · split
    · exact report_frame _ _ _ _
    · exact reportAccess_reported _ _ _ _

theorem inHbm_ownRecord (s : State) (req : Req) (w0 w1 w2 w3 : Word) : InHbm s (ownRecord s req w0 w1 w2 w3).2 := by
  unfold ownRecord
  dsimp only
  split
  · exact inHbm_trans (inHbm_performRecord _ _ _ _ _ _) (inHbm_of_reported (reportWindow_reported _ _ _ _))
  · exact inHbm_performRecord _ _ _ _ _ _

/-- Everything a write to the atomic window can change (R255, R256). -/
theorem inHbm_performRecords (req : Req) (n : Nat) (s : State) (bs : List Byte) : InHbm s (performRecords req n s bs).2 := by
  induction n generalizing s bs with
  | zero => rfl
  | succ n ih =>
    unfold performRecords
    split
    · rfl
    · exact inHbm_trans (inHbm_ownRecord _ _ _ _ _ _) (ih _ _)

/-! ### Tile memories -/

theorem memories_reset : MemoryCanonical State.reset := ⟨rfl, rfl, rfl⟩

theorem memories_of_eq {s t : State} (hm : t.mem = s.mem) (hh : t.hold = s.hold) (hf : t.sto = s.sto) (h : MemoryCanonical s) :
    MemoryCanonical t := by
  unfold MemoryCanonical at *
  rw [hm, hh, hf]
  exact h

theorem memories_inHbm {s t : State} (k : InHbm s t) (h : MemoryCanonical s) : MemoryCanonical t := by
  unfold InHbm at k
  exact memories_of_eq (by rw [k]) (by rw [k]) (by rw [k]) h

theorem memories_reported {s t : State} (k : Reported s t) (h : MemoryCanonical s) : MemoryCanonical t := memories_inHbm (inHbm_of_reported k) h

theorem memories_arrived {s t : State} (k : Arrived s t) (h : MemoryCanonical s) : MemoryCanonical t := by
  unfold Arrived at k
  exact memories_of_eq (by rw [k]) (by rw [k]) (by rw [k]) h

/-- Bytes put into the tile stores keep the form. -/
theorem memories_wrBytes {s : State} (a : Nat) (bs : List Byte) (h : MemoryCanonical s) : MemoryCanonical { s with mem := wrBytes s.mem a bs } :=
  ⟨twf_wrBytes bs a h.1, h.2⟩

/-- Bytes put into the hold buffers keep the form. -/
theorem memories_wrHold {s : State} (a : Nat) (bs : List Byte) (h : MemoryCanonical s) : MemoryCanonical { s with hold := wrBytes s.hold a bs } :=
  ⟨h.1, twf_wrBytes bs a h.2.1, h.2.2⟩

theorem wakeTiles_arrived (ts : List Nat) (s : State) : Arrived s (wakeTiles s ts) := by
  induction ts generalizing s with
  | nil => rfl
  | cons t ts ih => exact arrived_trans (wakeTile_arrived s t) (ih _)

/-- A read of memory keeps every memory. -/
theorem memories_memReadAs {s : State} (cls : Nat) (req : Req) (a len : Nat) (h : MemoryCanonical s) :
    MemoryCanonical (memReadAs cls s req a len).2.2 := by
  have hr (t : State) (k : MemoryCanonical t) (c b : Nat) : MemoryCanonical (reportAccess t req c b) :=
    memories_reported (reportAccess_reported _ _ _ _) k
  unfold memReadAs
  split
  · have hb := memories_inHbm (inHbm_hbmRead s a len true cls (!isRemote req)) h
    dsimp only
    split
    · exact hr _ hb _ _
    · exact hb
  · dsimp only; split
    · exact hr _ h _ _
    · exact memories_arrived (wakeTiles_arrived _ _) h
  · dsimp only; split
    · exact hr _ h _ _
    · exact memories_arrived (wakeTiles_arrived _ _) h
  · exact hr _ h _ _
  · exact hr _ h _ _

theorem memories_memRead {s : State} (req : Req) (a len : Nat) (h : MemoryCanonical s) :
    MemoryCanonical (memRead s req a len).2.2 :=
  memories_memReadAs _ req a len h

theorem imemWrite_cons (tell : Bool) (s : State) (a : Nat) (b : Byte) (bs : List Byte) (said : Option Nat) :
    ∃ (c : Bool) (x : State) (y : Option Nat), imemWrite tell s a (b :: bs) said =
      (if c then imemWrite tell x (a + 1) bs y else imemWrite tell { s with mem := tset 0 s.mem a b } (a + 1) bs said) ∧
      Reported s x := by
  let t := (a - imemBase) / 0x8000
  by_cases h : said = some t
  · exact ⟨decide (activeBank s t ≤ a ∧ a < activeBank s t + 0x4000), s, said, by simp [imemWrite, h, t], rfl⟩
  · refine ⟨decide (activeBank s t ≤ a ∧ a < activeBank s t + 0x4000),
      if tell then report (rsetb s (aTileIbank t) 8 true) (unitOfTile t) 0x10A0 { a0 := tileArg t, a1 := BitVec.ofNat 64 a }
      else rsetb s (aTileIbank t) 8 true, some t, ?_, ?_⟩
    · simp only [imemWrite, t] at h ⊢
      simp only [h, if_false, decide_eq_true_eq]
    · split
      · exact reported_trans (regPut_frame s _ _) (report_frame _ _ _ _)
      · exact regPut_frame s _ _

theorem memories_imemWrite (tell : Bool) (bs : List Byte) {s : State} (a : Nat) (said : Option Nat) (h : MemoryCanonical s) :
    MemoryCanonical (imemWrite tell s a bs said).2 := by
  induction bs generalizing s a said with
  | nil => exact h
  | cons b bs ih =>
    obtain ⟨c, x, y, e, k⟩ := imemWrite_cons tell s a b bs said
    rw [e]
    split
    · exact ih _ _ (memories_reported k h)
    · exact ih _ _ ⟨twf_tset 0 _ _ h.1, h.2⟩

/-- A write of memory keeps the form of every memory. -/
theorem memories_memWrite {s : State} (req : Req) (a : Nat) (bs : List Byte) (h : MemoryCanonical s) :
    MemoryCanonical (memWrite s req a bs).2 := by
  have hr (t : State) (k : MemoryCanonical t) (c b : Nat) : MemoryCanonical (reportAccess t req c b) :=
    memories_reported (reportAccess_reported _ _ _ _) k
  unfold memWrite
  split
  · have hb := memories_inHbm (inHbm_hbmWrite s a bs 3) h
    dsimp only
    split
    · exact hr _ hb _ _
    · exact hb
  · dsimp only; split
    · exact hr _ h _ _
    · exact memories_wrBytes _ _ (memories_arrived (wakeTiles_arrived _ _) h)
  · dsimp only; split
    · exact hr _ h _ _
    · exact memories_imemWrite _ _ _ _ (memories_arrived (wakeTiles_arrived _ _) h)
  · exact hr _ h _ _
  · exact hr _ h _ _

theorem memories_dataWrite {s : State} (req : Req) (a : Nat) (bs : List Byte) (refuse : Nat) (h : MemoryCanonical s) :
    MemoryCanonical (dataWrite s req a bs refuse).2 := by
  unfold dataWrite
  split
  · unfold windowWrite
    split
    · exact memories_reported (reportWindow_reported _ _ _ _) h
    · exact memories_inHbm (inHbm_performRecords _ _ _ _) h
  · split
    · dsimp only; split
      · exact h
      · exact memories_reported (report_frame _ _ _ _) h
    · exact memories_memWrite _ _ _ h

/-! ### Flash -/

theorem flashRead_length (s : State) (a n : Nat) : (flashRead s a n).length = n := by
  induction n generalizing a with
  | zero => rfl
  | succ n ih => simp [flashRead, ih]

theorem flashRead_take (s : State) (a k n : Nat) : (flashRead s a (k + n)).take k = flashRead s a k := by
  induction k generalizing a with
  | zero => simp [flashRead]
  | succ k ih => rw [Nat.succ_add]; simp [flashRead, ih]

theorem tget_flashPut (bs : List Byte) (m : Tbl Byte) (a k : Nat) :
    tget 0xFF (flashPut m a bs) k = if a ≤ k ∧ k < a + bs.length then bs.getD (k - a) 0 else tget 0xFF m k := by
  induction bs generalizing m a with
  | nil => rw [if_neg (by simp only [List.length_nil]; omega)]; rfl
  | cons b bs ih =>
    rw [flashPut, ih, tget_tset, List.length_cons]
    by_cases h : k = a
    · subst h; rw [if_neg (by omega), if_pos rfl, if_pos (by omega), Nat.sub_self]; rfl
    · by_cases h2 : a + 1 ≤ k ∧ k < a + 1 + bs.length
      · have e : k - a = (k - (a + 1)) + 1 := by omega
        rw [if_pos h2, if_pos (by omega), e, List.getD_cons_succ]
      · rw [if_neg h2, if_neg h, if_neg (by omega)]

theorem flashRead_of {s : State} (bs : List Byte) (a : Nat) (h : ∀ i < bs.length, flashByte s (a + i) = bs.getD i 0) :
    flashRead s a bs.length = bs := by
  induction bs generalizing a with
  | nil => rfl
  | cons b bs ih =>
    rw [List.length_cons, flashRead, ih (a + 1) (fun i hi => by
      rw [Nat.add_right_comm, Nat.add_assoc]; exact h (i + 1) (by simpa using hi))]
    rw [show flashByte s a = b from h 0 (by simp)]

/-- Flash reads back what is written beside the manufacture area. -/
theorem flashRead_flashWrite (s : State) (a : Nat) (bs : List Byte) (h : a + bs.length ≤ 0x2000000) :
    flashRead (flashWrite s a bs) a bs.length = bs := by
  refine flashRead_of bs a (fun i hi => ?_)
  rw [flashByte, if_neg (by omega), flashWrite, tget_flashPut, if_pos (by omega), Nat.add_sub_cancel_left]

theorem twf_flashPut (bs : List Byte) {m : Tbl Byte} (a : Nat) (h : twf 0xFF m = true) : twf 0xFF (flashPut m a bs) = true := by
  induction bs generalizing m a with
  | nil => exact h
  | cons b bs ih => exact ih _ (twf_tset _ _ _ h)

theorem memories_flashWrite {s : State} (a : Nat) (bs : List Byte) (h : MemoryCanonical s) : MemoryCanonical (flashWrite s a bs) :=
  ⟨h.1, h.2.1, twf_flashPut bs a h.2.2⟩

theorem memories_flashErase {s : State} (a n : Nat) (h : MemoryCanonical s) : MemoryCanonical (flashErase s a n) :=
  ⟨h.1, h.2.1, twf_tkeep _ _ h.2.2⟩

/-- A commit keeps the form of flash (R462). -/
theorem memories_commitRec {s : State} (kind : Nat) (p : List Byte) (h : MemoryCanonical s) : MemoryCanonical (commitRec s kind p) := by
  unfold commitRec
  exact memories_flashErase _ _ (memories_flashWrite _ _ (memories_flashWrite _ _ (memories_flashErase _ _ h)))

theorem memories_clearRec {s : State} (h : MemoryCanonical s) : MemoryCanonical (clearRec s) := by
  unfold clearRec
  split
  · exact memories_flashWrite _ _ h
  · exact h

end Sys2Proof.Machine
end

