-- ==== Sys2Proof/Laws/SlhDsa.lean ====
section
/-! SUPPORT. How many bytes SHAKE256 and the parts of an SLH-DSA signature have, and that what is signed verifies. -/

namespace Sys2Proof.Machine

theorem natLE_length (n v : Nat) : (natLE n v).length = n := by
  induction n generalizing v with
  | zero => rfl
  | succ n ih => simp [natLE, ih]

theorem keccakF_length (a : List Nat) (h : a.length = 25) : (keccakF a).length = 25 := by
  have key : ∀ (rs : List Nat) (a : List Nat), a.length = 25 →
      (rs.foldl (fun a rc => kChi (kRhoPi (kTheta a)) rc) a).length = 25 := by
    intro rs
    induction rs with
    | nil => intro a h; exact h
    | cons r rs ih => intro a _; exact ih _ (by simp [kChi, lanes25])
  exact key _ a h

theorem kAbsorbAll_length (n : Nat) (a : List Nat) (bs : List Byte) (h : a.length = 25) :
    (kAbsorbAll n a bs).length = 25 := by
  induction n generalizing a bs with
  | zero => exact h
  | succ n ih => exact ih _ _ (keccakF_length _ (by simp))

theorem flatMap_length_const {α β : Type} (f : α → List β) (k : Nat) (xs : List α) (h : ∀ x ∈ xs, (f x).length = k) :
    (xs.flatMap f).length = xs.length * k := by
  induction xs with
  | nil => simp
  | cons x xs ih =>
    rw [List.flatMap_cons, List.length_append, h x (by simp), ih (fun y m => h y (by simp [m])), List.length_cons, Nat.add_mul]
    omega

theorem flatten_length_const {β : Type} (k : Nat) (xs : List (List β)) (h : ∀ x ∈ xs, x.length = k) :
    xs.flatten.length = xs.length * k := by
  simpa using flatMap_length_const id k xs h

theorem kSqueeze_length (n : Nat) (a : List Nat) (h : a.length = 25) : (kSqueeze n a).length = n * 136 := by
  induction n generalizing a with
  | zero => simp [kSqueeze]
  | succ n ih =>
    rw [kSqueeze, List.length_append, ih _ (keccakF_length a h), flatMap_length_const _ 8 _ (fun x _ => natLE_length 8 x),
      List.length_take, h]
    omega

@[simp] theorem shake256_length (bs : List Byte) (n : Nat) : (shake256 bs n).length = n := by
  unfold shake256
  simp only [List.length_take]
  rw [kSqueeze_length _ _ (kAbsorbAll_length _ _ _ (by simp))]
  simp only [shakeRate]
  omega

@[simp] theorem slhHash_length (p : SlhSet) (pk m : List Byte) (x : Adrs) : (slhHash p pk x m).length = p.n :=
  shake256_length _ _

theorem wotsChain_length (p : SlhSet) (pk v : List Byte) (x : Adrs) (steps i : Nat) (h : v.length = p.n) :
    (wotsChain p pk x steps i v).length = p.n := by
  induction steps generalizing i v with
  | zero => exact h
  | succ n ih => exact ih _ _ (slhHash_length ..)

theorem wotsDigits_length (p : SlhSet) (m : List Byte) : (wotsDigits p m).length = p.len := by
  simp [wotsDigits, digitsOf, SlhSet.len]

theorem wotsSign_length (p : SlhSet) (sk pk m : List Byte) (x : Adrs) :
    (wotsSign p sk pk x m).length = p.len * p.n := by
  unfold wotsSign
  rw [flatten_length_const p.n _ (by
    intro y h
    obtain ⟨d, -, rfl⟩ := List.mem_map.mp h
    exact wotsChain_length _ _ _ _ _ _ (slhHash_length ..))]
  rw [List.length_map, List.length_zipIdx, wotsDigits_length]

theorem slhNode_length (p : SlhSet) {leaf : Nat → List Byte} {join : Nat → Nat → List Byte → List Byte}
    (hl : ∀ i, (leaf i).length = p.n) (hj : ∀ z i m, (join z i m).length = p.n) (z i : Nat) :
    (slhNode leaf join z i).length = p.n := by
  cases z with
  | zero => exact hl i
  | succ z => exact hj ..

theorem slhPath_length (p : SlhSet) {leaf : Nat → List Byte} {join : Nat → Nat → List Byte → List Byte}
    (hl : ∀ i, (leaf i).length = p.n) (hj : ∀ z i m, (join z i m).length = p.n) (z i : Nat) :
    (slhPath leaf join z i).flatten.length = z * p.n := by
  unfold slhPath
  rw [flatten_length_const p.n _ (by
    intro y h
    obtain ⟨j, -, rfl⟩ := List.mem_map.mp h
    exact slhNode_length p hl hj ..)]
  simp

theorem xmssSign_length (p : SlhSet) (sk pk m : List Byte) (x : Adrs) (i : Nat) :
    (xmssSign p sk pk x i m).length = p.layerLen := by
  unfold xmssSign
  rw [List.length_append, wotsSign_length,
    slhPath_length p (leaf := xmssLeaf p sk pk x) (join := x.join p pk) (fun _ => slhHash_length ..)
      (fun _ _ _ => slhHash_length ..), SlhSet.layerLen, Nat.add_mul]

theorem htSign_length (p : SlhSet) (sk pk m : List Byte) (left layer tree leaf : Nat) :
    (htSign p sk pk left layer tree leaf m).length = left * p.layerLen := by
  induction left generalizing layer tree leaf m with
  | zero => simp [htSign]
  | succ n ih => rw [htSign]; simp only [List.length_append]; rw [ih, xmssSign_length, Nat.add_mul]; omega

theorem forsSign_length (p : SlhSet) (sk pk md : List Byte) (x : Adrs) :
    (forsSign p sk pk x md).length = p.k * ((1 + p.a) * p.n) := by
  unfold forsSign
  rw [flatMap_length_const _ ((1 + p.a) * p.n) _ (by
    intro i _
    rw [List.length_append, slhPath_length p (leaf := forsLeaf p sk pk x) (join := x.forsJoin p pk)
      (fun _ => slhHash_length ..) (fun _ _ _ => slhHash_length ..), Nat.add_mul]
    simp [forsSecret])]
  simp [forsLeaves, digitsOf]

/-- A signature has the bytes of its randomizer, of its FORS trees and of its layers. -/
theorem slhSign_length (p : SlhSet) (sk prf pk rnd m : List Byte) :
    (slhSign p sk prf pk rnd m).length = p.n + p.k * ((1 + p.a) * p.n) + p.d * p.layerLen := by
  unfold slhSign
  simp only [List.length_append, shake256_length]
  rw [htSign_length, forsSign_length]

/-- A quote's signature has 35,664 bytes (R468). -/
theorem slhSign_192f_length (sk prf pk rnd m : List Byte) : (slhSign slh192f sk prf pk rnd m).length = 35664 := by
  rw [slhSign_length]; rfl

/-! ### What is signed verifies -/

theorem piecesOf_flatten (n : Nat) (xs : List (List Byte)) (rest : List Byte) (h : ∀ x ∈ xs, x.length = n) :
    piecesOf n xs.length (xs.flatten ++ rest) = xs := by
  induction xs with
  | nil => rfl
  | cons x xs ih =>
    have hx : x.length = n := h x (by simp)
    rw [List.length_cons, piecesOf, List.flatten_cons, List.append_assoc, ← hx, List.take_left, List.drop_left, hx,
      ih (fun y m => h y (by simp [m]))]

theorem xor_one (m : Nat) : Nat.xor m 1 = if m % 2 = 0 then m + 1 else m - 1 := by
  have h1 : (m ^^^ 1) / 2 = m / 2 := by rw [Nat.xor_div_two]; simp
  have h2 : (m ^^^ 1) % 2 = (m + 1) % 2 := by
    have hx : (m ^^^ 1) % 2 = m % 2 ^^^ 1 % 2 := Nat.xor_mod_two_pow (n := 1)
    rw [hx, Nat.add_mod]
    rcases Nat.mod_two_eq_zero_or_one m with h | h <;> rw [h] <;> rfl
  change m ^^^ 1 = _
  split <;> omega

theorem slhClimb_path (leaf : Nat → List Byte) (join : Nat → Nat → List Byte → List Byte) (i k j : Nat) :
    slhClimb join j (i / 2 ^ j) (slhNode leaf join j (i / 2 ^ j))
        ((List.range' j k).map (fun j => slhNode leaf join j (Nat.xor (i / 2 ^ j) 1)))
      = slhNode leaf join (j + k) (i / 2 ^ (j + k)) := by
  induction k generalizing j with
  | zero => rfl
  | succ k ih =>
    rw [List.range'_succ, List.map_cons, slhClimb]
    have hd : i / 2 ^ j / 2 = i / 2 ^ (j + 1) := by rw [Nat.div_div_eq_div_mul, ← Nat.pow_succ]
    have hn : join (j + 1) (i / 2 ^ j / 2)
        (if i / 2 ^ j % 2 = 0 then slhNode leaf join j (i / 2 ^ j) ++ slhNode leaf join j (Nat.xor (i / 2 ^ j) 1)
          else slhNode leaf join j (Nat.xor (i / 2 ^ j) 1) ++ slhNode leaf join j (i / 2 ^ j))
        = slhNode leaf join (j + 1) (i / 2 ^ (j + 1)) := by
      rw [hd, slhNode]
      generalize hm : i / 2 ^ j = m at hd ⊢
      have hx : Nat.xor m 1 = if m % 2 = 0 then m + 1 else m - 1 := xor_one m
      split
      next h0 => rw [hx, if_pos h0, show 2 * (i / 2 ^ (j + 1)) = m by omega]
      next h0 => rw [hx, if_neg h0, show 2 * (i / 2 ^ (j + 1)) = m - 1 by omega, show m - 1 + 1 = m by omega]
    rw [hn, hd, ih (j + 1), show j + 1 + k = j + (k + 1) by omega]

theorem wotsChain_add (p : SlhSet) (pk : List Byte) (x : Adrs) (a b i : Nat) (v : List Byte) :
    wotsChain p pk x b (i + a) (wotsChain p pk x a i v) = wotsChain p pk x (a + b) i v := by
  induction a generalizing i v with
  | zero => simp [wotsChain]
  | succ a ih => rw [show a + 1 + b = (a + b) + 1 by omega, wotsChain, wotsChain, ← ih, show i + (a + 1) = i + 1 + a by omega]

theorem wotsDigits_le (p : SlhSet) (m : List Byte) (d : Nat) (h : d ∈ wotsDigits p m) : d ≤ 15 := by
  have key : ∀ (c : Nat) (bs : List Byte), d ∈ digitsOf 4 c bs → d ≤ 15 := by
    intro c bs h
    obtain ⟨i, -, rfl⟩ := List.mem_map.mp h
    exact Nat.le_of_lt_succ (Nat.mod_lt _ (by decide))
  rcases List.mem_append.mp h with h | h
  · exact key _ _ h
  · exact key _ _ h

/-- The key that a signature comes from is the key that signed. -/
theorem wotsFrom_sign (p : SlhSet) (sk pk m rest : List Byte) (x : Adrs) :
    wotsFrom p pk x (wotsSign p sk pk x m ++ rest) m = wotsGen p sk pk x := by
  unfold wotsFrom wotsSign wotsGen
  simp only
  congr 1
  have hl : ((wotsDigits p m).zipIdx.map (fun d =>
      wotsChain p pk { x with w2 := d.2 } d.1 0 (wotsSecret p sk pk x d.2))).length = p.len := by
    rw [List.length_map, List.length_zipIdx, wotsDigits_length]
  rw [← hl, piecesOf_flatten p.n _ rest (by
    intro y h
    obtain ⟨d, -, rfl⟩ := List.mem_map.mp h
    exact wotsChain_length _ _ _ _ _ _ (slhHash_length ..))]
  apply List.ext_getElem
  · simp
  · intro i h1 h2
    have hi : i < (wotsDigits p m).length := by simpa using h1
    have hd := wotsDigits_le p m _ (List.getElem_mem hi)
    simp only [List.getElem_map, List.getElem_zipIdx, List.getElem_range, Nat.zero_add, List.getD_eq_getElem?_getD,
      List.getElem?_map, List.getElem?_zipIdx, List.getElem?_eq_getElem hi, Option.map_some, Option.getD_some]
    have := wotsChain_add p pk { x with w2 := i } (wotsDigits p m)[i] (15 - (wotsDigits p m)[i]) 0 (wotsSecret p sk pk x i)
    rwa [Nat.zero_add, Nat.add_sub_cancel' hd] at this

/-- The root that one layer's signature leads to is the root of the tree that signed. -/
theorem xmssFrom_sign (p : SlhSet) (sk pk m : List Byte) (x : Adrs) (i : Nat) (hi : i < 2 ^ p.hp) :
    xmssFrom p pk x i (xmssSign p sk pk x i m) m = slhNode (xmssLeaf p sk pk x) (x.join p pk) p.hp 0 := by
  unfold xmssFrom xmssSign
  rw [wotsFrom_sign, ← wotsSign_length p sk pk m (x.wots i), List.drop_left]
  have hp := piecesOf_flatten p.n (slhPath (xmssLeaf p sk pk x) (x.join p pk) p.hp i) [] (by
    intro y h
    obtain ⟨j, -, rfl⟩ := List.mem_map.mp h
    exact slhNode_length p (fun _ => slhHash_length ..) (fun _ _ _ => slhHash_length ..) j _)
  rw [List.append_nil, show (slhPath (xmssLeaf p sk pk x) (x.join p pk) p.hp i).length = p.hp by simp [slhPath]] at hp
  rw [hp]
  have hc := slhClimb_path (xmssLeaf p sk pk x) (x.join p pk) i p.hp 0
  rw [Nat.zero_add, Nat.div_eq_of_lt hi, Nat.pow_zero, Nat.div_one, ← List.range_eq_range'] at hc
  exact hc

/-- The layers' signatures lead to the root of the last layer's tree. -/
theorem htFrom_sign (p : SlhSet) (sk pk : List Byte) (left layer tree leaf : Nat) (m rest : List Byte)
    (hl : leaf < 2 ^ p.hp) (ht : tree < 2 ^ (left * p.hp)) :
    htFrom p pk (left + 1) layer tree leaf (htSign p sk pk (left + 1) layer tree leaf m ++ rest) m
      = slhNode (xmssLeaf p sk pk { layer := layer + left })
          (({ layer := layer + left } : Adrs).join p pk) p.hp 0 := by
  induction left generalizing layer tree leaf m with
  | zero =>
    obtain rfl : tree = 0 := by simpa using ht
    rw [htSign, htFrom]
    simp only [List.append_assoc]
    rw [← xmssSign_length p sk pk m { layer := layer } leaf, List.take_left, htFrom, xmssFrom_sign _ _ _ _ _ _ hl]
    rfl
  | succ n ih =>
    rw [htSign, htFrom]
    simp only [List.append_assoc]
    rw [← xmssSign_length p sk pk m { layer := layer, tree := tree } leaf, List.take_left, List.drop_left,
      ih _ _ _ _ (Nat.mod_lt _ (Nat.two_pow_pos _)) (by
        rw [Nat.div_lt_iff_lt_mul (Nat.two_pow_pos _), ← Nat.pow_add]; rwa [Nat.add_mul, Nat.one_mul] at ht)]
    rw [show layer + 1 + n = layer + (n + 1) by omega]

/-- What is signed verifies under the signer's public key. -/
theorem slhVerify_sign (p : SlhSet) (sk prf pk rnd m : List Byte) (hd : 0 < p.d) (hh : p.h = p.d * p.hp)
    (hpk : pk.length = p.n) :
    slhVerify p (pk ++ slhRoot p sk pk) m (slhSign p sk prf pk rnd m) = true := by
  obtain ⟨n, hn⟩ := Nat.exists_eq_succ_of_ne_zero (Nat.pos_iff_ne_zero.mp hd)
  have hsub : p.h - p.hp = n * p.hp := by rw [hh, hn, Nat.succ_mul]; omega
  have hroot : (slhRoot p sk pk).length = p.n :=
    slhNode_length p (fun _ => slhHash_length ..) (fun _ _ _ => slhHash_length ..) _ _
  have hlen : (slhSign p sk prf pk rnd m).length = p.sigLen := by
    rw [slhSign_length, SlhSet.sigLen, SlhSet.layerLen, hh]
    simp only [Nat.add_mul, Nat.mul_add, Nat.one_mul, Nat.mul_assoc]
    omega
  unfold slhVerify
  simp only [hlen, List.length_append, hpk, hroot, ← Nat.two_mul, decide_true, Bool.true_and, decide_eq_true_eq]
  rw [show (pk ++ slhRoot p sk pk).take p.n = pk by rw [← hpk, List.take_left],
    show (pk ++ slhRoot p sk pk).drop p.n = slhRoot p sk pk by rw [← hpk, List.drop_left]]
  unfold slhSign
  simp only
  generalize hr : shake256 (prf ++ rnd ++ slhPure m) p.n = r
  have hrl : r.length = p.n := by rw [← hr, shake256_length]
  simp only [List.append_assoc]
  rw [show ∀ ys : List Byte, (r ++ ys).take p.n = r from fun ys => by rw [← hrl, List.take_left]]
  generalize hg : slhDigest p r pk (slhRoot p sk pk) m = g
  obtain ⟨md, tree, leaf⟩ := g
  have hleaf : leaf < 2 ^ p.hp := by
    have := congrArg (fun g : List Byte × Nat × Nat => g.2.2) hg
    simp only [slhDigest] at this
    rw [← this]; exact Nat.mod_lt _ (Nat.two_pow_pos _)
  have htree : tree < 2 ^ (n * p.hp) := by
    have := congrArg (fun g : List Byte × Nat × Nat => g.2.1) hg
    simp only [slhDigest] at this
    rw [← this, ← hsub]; exact Nat.mod_lt _ (Nat.two_pow_pos _)
  simp only
  have hf := forsSign_length p sk pk md (forsAdrs tree leaf)
  have e1 : ∀ ys : List Byte, (r ++ ys).drop p.n = ys := fun ys => by rw [← hrl, List.drop_left]
  have e2 : ∀ ys : List Byte, (forsSign p sk pk (forsAdrs tree leaf) md ++ ys).take (p.k * (1 + p.a) * p.n)
      = forsSign p sk pk (forsAdrs tree leaf) md := fun ys => by
    rw [Nat.mul_assoc, ← hf, List.take_left]
  have e3 : ∀ ys : List Byte, (r ++ (forsSign p sk pk (forsAdrs tree leaf) md ++ ys)).drop (p.n + p.k * (1 + p.a) * p.n)
      = ys := fun ys => by
    rw [← List.drop_drop, e1, Nat.mul_assoc, ← hf, List.drop_left]
  rw [e1, e2, e3, hn]
  have hk := htFrom_sign p sk pk n 0 tree leaf (forsFrom p pk (forsAdrs tree leaf) (forsSign p sk pk (forsAdrs tree leaf) md) md)
    [] hleaf htree
  rw [List.append_nil, Nat.zero_add] at hk
  rw [hk, slhRoot]
  simp only [hn, Nat.succ_sub_one]

end Sys2Proof.Machine
end

