-- ==== Sys2Proof/WellFormed.lean ====
section
/-! DEFINITION. When a command's data have the shape that the spec gives them: lengths, counts and slots. The meanings do
not ask for it: they are total. -/

namespace Sys2Proof

/-- Bits [lo + n - 1 : lo] of a word. -/
def wordBits {w : Nat} (x : BitVec w) (lo n : Nat) : Nat := x.toNat / 2 ^ lo % 2 ^ n

/-- A packet's payload has LEN bytes (Table 11.3). -/
def Packet.wf (p : Packet) : Bool := p.payload.length = wordBits p.w1 22 10

/-- A Tenon message has LEN body bytes; RD and CRD have none (Tables 10.3 and 10.4). -/
def TMsg.wf (m : TMsg) : Bool :=
  let o := wordBits m.head 176 8
  m.body.length = (if o = 1 ∨ o = 0x40 then 0 else wordBits m.head 134 10)

/-- A frame's body has LEN bytes, and none where the type asks the host for data (Table 14.2). -/
def Frame.wf (f : Frame) : Bool :=
  let tt := wordBits f.w0 58 6
  f.body.length = (if tt = 0x18 ∨ tt = 0x19 then 0 else wordBits f.w0 48 10)

/-- Four control messages of 72 B, 85 cells of 64 B (Table 12.7), and nine codewords at most (R353). -/
def LaneBlock.wf (b : LaneBlock) : Bool :=
  b.ctl.length = 4 && b.ctl.all (fun m => m.length = 72) && b.cells.length = 85 && b.cells.all (fun c => c.length = 64) &&
  decide (b.errs.length ≤ 9)

/-- Eight dies of 64 sensors, four of 16, sixteen stacks, seven Bells (R429). -/
def Sample.wf (x : Sample) : Bool :=
  x.dies.length = 12 && (x.dies.take 8).all (fun d => d.length = 64) && (x.dies.drop 8).all (fun d => d.length = 16) &&
  x.stackT.length = 16 && x.bells.length = 7

/-- The link end exists: dies 0 to 11, ports 0 to 2 (R274). -/
def LinkEnd.wf (e : LinkEnd) : Bool := decide (e.die.toNat < 12) && decide (e.port.toNat < 3)

def Bundle.noCtl (b : Bundle) : Bool := b.ctl.isNone
def Bundle.noAgu (b : Bundle) : Bool := b.agu.isNone
def Bundle.noOp (b : Bundle) : Bool := b.op.isNone
def Bundle.noScl (b : Bundle) : Bool := b.scl.isNone

/-- The shape of a command. The bundle that an instruction carries beside itself leaves its own slot empty. -/
def Instr.wf : Instr → Bool
  | .inputRise46v => true
  | .bulkCapacitanceCharged _ => true
  | .inputLowBand => true
  | .inputHighBand => true
  | .inputOvervoltage _ => true
  | .powerLoss => true
  | .holdUpExpiry => true
  | .modResetNLow => true
  | .modResetNHigh => true
  | .coreRailsInRegulation => true
  | .railRegulationTimeout => true
  | .railOutOfRegulation => true
  | .mreset _ => true
  | .bootSequence b => decide (b.seed.length = 32)
  | .ident => true
  | .smbusStatus => true
  | .temps => true
  | .trdata => true
  | .troff m => decide (m.code = 4 ∨ 5 < m.code.toNat)
  | .alertmask m => decide (m.code = 5 ∨ 5 < m.code.toNat)
  | .alertResponseAddress => true
  | .timeAlignmentFrameSend => true
  | .time _ _ => true
  | .launchPush _ _ _ _ _ _ _ => true
  | .groupPush _ _ _ _ _ _ _ => true
  | .entryStart _ => true
  | .entrySignal _ => true
  | .semaphoreWaitGrant _ => true
  | .tokenArrival _ _ _ => true
  | .tileSemaddWrite _ _ _ => true
  | .tileSemWrite _ _ _ _ => true
  | .engineAbort _ _ _ => true
  | .engineAbortComplete _ => true
  | .tileReset _ _ => true
  | .tileGrpWrite _ _ _ => true
  | .gbarRelease _ _ => true
  | .tileClockGate _ => true
  | .tileActivation _ => true
  | .clusterClockStop _ => true
  | .clusterClockStart _ => true
  | .endOp _ rest => rest.noCtl
  | .j _ _ rest => rest.noCtl
  | .jal _ _ _ rest => rest.noCtl
  | .jr _ _ rest => rest.noCtl
  | .beq _ _ _ _ rest => rest.noCtl
  | .bne _ _ _ _ rest => rest.noCtl
  | .blt _ _ _ _ rest => rest.noCtl
  | .bge _ _ _ _ rest => rest.noCtl
  | .bltu _ _ _ _ rest => rest.noCtl
  | .bgeu _ _ _ _ rest => rest.noCtl
  | .loop _ _ _ _ rest => rest.noCtl
  | .loopi _ _ _ _ rest => rest.noCtl
  | .lcset _ _ _ rest => rest.noCtl
  | .wait _ _ _ rest => rest.noCtl
  | .signal _ _ _ rest => rest.noCtl
  | .signalt _ _ _ _ rest => rest.noCtl
  | .drain _ rest => rest.noCtl
  | .gbar _ rest => rest.noCtl
  | .swapb _ _ rest => rest.noCtl
  | .bankSwap _ => true
  | .hostBankSwap _ _ => true
  | .trap _ _ rest => rest.noCtl
  | .agbase _ _ _ rest => rest.noAgu
  | .agdim _ _ _ _ _ rest => rest.noAgu
  | .agstep _ _ _ rest => rest.noAgu
  | .agrst _ _ rest => rest.noAgu
  | .agbasex _ _ _ rest => rest.noAgu
  | .add _ _ _ _ rest => rest.noScl
  | .sub _ _ _ _ rest => rest.noScl
  | .and _ _ _ _ rest => rest.noScl
  | .or _ _ _ _ rest => rest.noScl
  | .xor _ _ _ _ rest => rest.noScl
  | .shl _ _ _ _ rest => rest.noScl
  | .shr _ _ _ _ rest => rest.noScl
  | .sra _ _ _ _ rest => rest.noScl
  | .mul _ _ _ _ rest => rest.noScl
  | .slt _ _ _ _ rest => rest.noScl
  | .sltu _ _ _ _ rest => rest.noScl
  | .min _ _ _ _ rest => rest.noScl
  | .max _ _ _ _ rest => rest.noScl
  | .addi _ _ _ _ rest => rest.noScl
  | .andi _ _ _ _ rest => rest.noScl
  | .ori _ _ _ _ rest => rest.noScl
  | .xori _ _ _ _ rest => rest.noScl
  | .shli _ _ _ _ rest => rest.noScl
  | .shri _ _ _ _ rest => rest.noScl
  | .srai _ _ _ _ rest => rest.noScl
  | .movi _ _ _ rest => rest.noScl
  | .movhi _ _ _ rest => rest.noScl
  | .rdlc _ _ _ rest => rest.noScl
  | .agrd _ _ _ rest => rest.noScl
  | .ldx _ _ _ rest => rest.noScl
  | .stx _ _ _ rest => rest.noScl
  | .ldg _ _ _ rest => rest.noScl
  | .stg _ _ _ rest => rest.noScl
  | .ldma _ _ _ _ _ _ _ rest => rest.noOp
  | .ldma2 _ _ _ _ _ _ _ _ _ rest => rest.noOp
  | .lgath _ _ _ _ _ _ _ _ _ rest => rest.noOp
  | .sdma _ _ _ _ _ _ _ _ _ _ rest => rest.noOp
  | .msg _ _ _ _ _ _ rest => rest.noOp
  | .lpush _ _ _ _ rest => rest.noOp
  | .transferComplete _ _ => true
  | .cmma _ _ _ _ _ _ _ _ _ rest => rest.noOp
  | .ccvt _ _ _ _ _ rest => rest.noOp
  | .csta _ _ _ rest => rest.noOp
  | .clda _ _ _ rest => rest.noOp
  | .czero _ _ rest => rest.noOp
  | .canch _ _ _ rest => rest.noOp
  | .canchs _ _ _ rest => rest.noOp
  | .cfin _ _ _ _ rest => rest.noOp
  | .resultReady _ => true
  | .valu _ _ _ _ _ _ rest => rest.noOp
  | .vfma _ _ _ _ _ _ rest => rest.noOp
  | .vcmp _ _ _ _ _ _ rest => rest.noOp
  | .vlogic _ _ _ _ _ rest => rest.noOp
  | .vshift _ _ _ _ _ _ rest => rest.noOp
  | .vcvt _ _ _ _ _ rest => rest.noOp
  | .vfnExp2 _ _ _ _ rest => rest.noOp
  | .vfnLog2 _ _ _ _ rest => rest.noOp
  | .vfnReciprocal _ _ _ _ rest => rest.noOp
  | .vfnReciprocalSquareRoot _ _ _ _ rest => rest.noOp
  | .vfnSigmoid _ _ _ _ rest => rest.noOp
  | .vred _ _ _ _ _ rest => rest.noOp
  | .vbcast _ _ _ _ rest => rest.noOp
  | .vsel _ _ _ _ _ _ rest => rest.noOp
  | .vld _ _ _ rest => rest.noOp
  | .vst _ _ _ rest => rest.noOp
  | .emptyBundle _ => true
  | .reedRingWrite _ _ _ => true
  | .reedTailWrite _ _ _ => true
  | .reedAbort _ _ => true
  | .vload _ => true
  | .mv _ => true
  | .reedSignal _ => true
  | .reedBlockDelivery _ => true
  | .reedToken _ => true
  | .hbmRead _ _ _ _ => true
  | .hbmWrite _ _ _ => true
  | .wcDrain _ _ => true
  | .atomicRecord _ _ _ _ _ => true
  | .arbiterRound _ _ => true
  | .refreshDue _ => true
  | .stackTemperatureReading _ _ => true
  | .ceWindowStart => true
  | .regionEnable _ _ _ => true
  | .regionDisable _ _ _ => true
  | .regionCloseComplete _ => true
  | .hbmExclWrite _ _ _ => true
  | .channelPolicyWrite _ _ _ => true
  | .retrain _ _ => true
  | .retrainingStart _ => true
  | .retrainingEnd _ _ => true
  | .retrainingFailure _ => true
  | .flush _ _ => true
  | .flushComplete _ => true
  | .tenonFlitReceive e _ _ => e.wf
  | .tenonNak e _ _ => e.wf
  | .tenonMessageSend e m => e.wf && m.wf
  | .tenonRd m => m.wf
  | .tenonWr m => m.wf
  | .tenonAtom m => m.wf
  | .tenonPush m => m.wf
  | .tenonToken m => m.wf
  | .tenonRdrsp m => m.wf
  | .tenonWrack m => m.wf
  | .tenonCol m => m.wf
  | .tenonFabin m => m.wf
  | .tenonFabout m => m.wf
  | .tenonCrd m => m.wf
  | .tenonCwr m => m.wf
  | .laneRetest _ _ => true
  | .laneRetestComplete _ _ _ => true
  | .linkRetrainComplete _ => true
  | .clockLoss die => decide (die.toNat < 12)
  | .routesInForce die => decide (die.toNat < 12)
  | .dresetSet _ die => decide (die.toNat < 12)
  | .dresetClear _ die => decide (die.toNat < 12)
  | .test _ die => decide (die.toNat < 12)
  | .train _ die => decide (die.toNat < 12)
  | .admitOp _ die => decide (die.toNat < 12)
  | .dieBooted die _ => decide (die.toNat < 12)
  | .dieTested die _ _ => decide (die.toNat < 12)
  | .dieTrained die => decide (die.toNat < 12)
  | .dieAdmitted die _ _ => decide (die.toNat < 12)
  | .packetSend _ => true
  | .routerForward _ p => p.wf
  | .multicastPacket _ p => p.wf
  | .put _ p => p.wf
  | .putend _ p => p.wf
  | .get _ p => p.wf
  | .ld _ p => p.wf
  | .st _ p => p.wf
  | .getdata _ p => p.wf
  | .getend _ p => p.wf
  | .opack _ p => p.wf
  | .ldrsp _ p => p.wf
  | .fack _ p => p.wf
  | .colPacket _ p => p.wf
  | .msgPacket _ p => p.wf
  | .fackSend _ => true
  | .retransmit _ _ => true
  | .answerTimeout _ _ => true
  | .portDown _ => true
  | .routeEntryWrite _ _ _ _ => true
  | .injWrite _ _ => true
  | .multicastEntryWrite _ _ _ => true
  | .flowEnable _ _ _ => true
  | .flowRst _ _ => true
  | .mqHeadWrite _ _ _ => true
  | .fabCfgWrite _ _ => true
  | .laserMeasurement _ uw => decide (uw.length = 8)
  | .laserLineReturn _ _ => true
  | .bellEnable _ b _ => decide (b.toNat < 7)
  | .bellDisable _ b _ => decide (b.toNat < 7)
  | .bellRetrain _ b => decide (b.toNat < 7)
  | .lockIteration b steps => decide (b.toNat < 7) && decide (steps.length = 64)
  | .txRingLock b _ _ _ => decide (b.toNat < 7)
  | .rxRingScan b _ _ _ _ => decide (b.toNat < 7)
  | .ringStep b _ => decide (b.toNat < 7)
  | .ringStepComplete b _ _ _ => decide (b.toNat < 7)
  | .laneBlock b _ blk => decide (b.toNat < 7) && blk.wf
  | .stat b _ => decide (b.toNat < 7)
  | .credit b freed => decide (b.toNat < 7) && decide (freed.length = 8)
  | .laneLeavesService b _ _ => decide (b.toNat < 7)
  | .laneServiceSample b => decide (b.toNat < 7)
  | .trainingTimeout b => decide (b.toNat < 7)
  | .failedRetry b => decide (b.toNat < 7)
  | .eyehUpdate b _ _ => decide (b.toNat < 7)
  | .chanterPush _ _ _ _ _ _ => true
  | .allreduce _ => true
  | .reduceScatter _ => true
  | .allgather _ => true
  | .broadcast _ => true
  | .reduce _ => true
  | .alltoall _ => true
  | .barrier _ => true
  | .reshard _ => true
  | .collectiveComplete _ _ => true
  | .chk _ p => p.wf
  | .rel _ p => p.wf
  | .data1 _ p => p.wf
  | .cred _ p => p.wf
  | .data2 _ p => p.wf
  | .resend _ p => p.wf
  | .fail _ p => p.wf
  | .xdata _ p => p.wf
  | .phaseGapTimeout _ _ _ _ => true
  | .groupEnable _ _ _ => true
  | .groupDisable _ _ _ => true
  | .laneAbort _ _ => true
  | .nop f => f.wf
  | .nak f => f.wf
  | .cwr f => f.wf
  | .crd f => f.wf
  | .cack => true
  | .crsp => true
  | .push f => f.wf
  | .pstat => true
  | .dbell f => f.wf
  | .dfetch _ => true
  | .hrd _ => true
  | .hdata f => f.wf
  | .hwr _ => true
  | .event => true
  | .fab f => f.wf
  | .linkReplayTimeout => true
  | .nopTimer => true
  | .hostLinkHoldTimeout => true
  | .h2m _ => true
  | .m2h _ => true
  | .dmaDescriptorComplete _ => true
  | .dqTailWrite _ _ _ => true
  | .dqAbort _ _ => true
  | .eventHeadWrite _ _ => true
  | .siteDone _ _ => true
  | .hello => true
  | .mgtRead d => decide (d.data.length ≤ 1232)
  | .mgtWrite _ _ data => decide (data.length ≤ 1232)
  | .trec d => decide (d.data.length ≤ 1232)
  | .neighbourSolicitation _ => true
  | .domainPowerOff _ _ => true
  | .domainPowerOn _ _ => true
  | .domainSwitchComplete _ => true
  | .calipersSample x => x.wf
  | .thermalTrip => true
  | .divisionTakesEffect _ => true
  | .thermalCoalesceWindowEnd die _ => decide (die.toNat < 12)
  | .bellowsHold _ => true
  | .bellowsRelease => true
  | .softWrite _ _ => true
  | .capWrite _ _ => true
  | .keyWrite _ _ => true
  | .thermalHoldCleared => true
  | .standbyGo _ _ => true
  | .standbyEntered => true
  | .wakeTime => true
  | .update _ => true
  | .confirm _ => true
  | .minver _ => true
  | .calwr _ _ => true
  | .read _ _ => true
  | .nvsCommandDone _ => true
  | .recordCommit => true
  | .ext _ _ => true
  | .quote _ => true
  | .quoteDone => true
  | .lock _ => true
  | .remoteWindowEnd _ _ => true
  | .kfnPost _ _ => true
  | .kfnWithdraw _ _ => true
  | .chatterGo _ _ => true
  | .chatterTileDone _ _ => true
  | .pairEnable _ _ _ => true
  | .registerWrite _ _ _ => true

end Sys2Proof
end

