-- ==== Sys2Proof/Tests/Slice0.lean ====
section
/-! SUPPORT. Tests of one step each, ill-formed commands, and for every statement with hypotheses a state and operands that
meet them. Expected values come from the spec's tables and worked examples. -/

namespace Sys2Proof.Tests

set_option Elab.async false

open Sys2Proof Sys2Proof.Machine

/-- The state after a command; the state itself where it answers none. -/
def run (c : Instr) (s : State) : State :=
  match exec c s with
  | .next t => t
  | _ => s

/-- A module whose one engine stands as given. -/
def withEng (a : At) (g : Engine) : State := setEng State.reset a g

def isReady (s : State) (a : At) (len : Nat) : Bool :=
  mayIssue s a && (getEng s a).results.isEmpty && !(getEng s a).full && (getEng s a).answer.isNone && (getEng s a).plan.isNone &&
    decide ((getEng s a).pc.toNat + len ≤ 4096)

theorem ready_of {s : State} {a : At} {len : Nat} (h : isReady s a len = true) : Ready s a len := by
  simp only [isReady, Bool.and_eq_true, List.isEmpty_iff, Bool.not_eq_true', decide_eq_true_eq, Option.isNone_iff_eq_none] at h
  exact ⟨h.1.1.1.1.1, h.1.1.1.1.2, h.1.1.1.2, h.1.1.2, h.1.2, h.2⟩

/-- The codes reported, oldest first. -/
def codes (s : State) : List Nat := s.rep.raised.map (fun r => r.code.toNat)

/-! ### Instruction streams (chapter 04) -/

/-- Engine C of the last tile, at the bank's end. -/
def cLast : At := ⟨8191, 1⟩
def gLast : Engine := { phase := .run, pc := 4092, x := [(1, 5), (2, 0xFFFFFFFFFFFFFFFD)] }
def sLast : State := withEng cLast gLast

theorem witness_register_rows_scalar :
    ∀ r ∈ scalarRows cLast 31 1 2 0x3FFF 63 0xFFFFFFFF 3 7 gLast,
      isReady sLast cLast r.2.1 = true ∧ ((gLast.setX 31 r.2.2).after r.2.1).2.1 < 4096 := by decide

theorem witness_register_rows_generator :
    ∀ r ∈ aguRows cLast 7 0xFFFFF 3 0xFFFF 0xFFFFFF 3 1 gLast,
      isReady sLast cLast r.2.1 = true ∧
      (({ gLast with ag := tset {} gLast.ag 7 r.2.2 } : Engine).after r.2.1).2.1 < 4096 := by decide

theorem witness_branches_taken :
    (∃ r ∈ branchRows cLast 1 2 3 gLast, r.2 ∧ gLast.pc.toNat + (3 : BitVec 13).toInt = 4095) ∧
    (∃ r ∈ branchRows cLast 1 2 4 gLast, r.2 ∧ gLast.pc.toNat + (4 : BitVec 13).toInt = 4096) ∧
    (∃ r ∈ branchRows cLast 1 2 3 gLast, ¬r.2) ∧ isReady sLast cLast 2 = true ∧ (gLast.after 2).2.1 < 4096 :=
  ⟨⟨_, List.mem_cons_self, trivial, by decide⟩, ⟨_, List.mem_cons_self, trivial, by decide⟩,
    ⟨_, List.mem_cons_of_mem _ List.mem_cons_self, by decide⟩, by decide, by decide⟩

/-- Table 4.3: BLT compares as signed: 0xFFFF_FFFF_FFFF_FFFD is below 5, so control goes to PC + 2. -/
theorem test_blt_signed : (getEng (run (.blt cLast 2 1 2 {}) sLast) cLast).pc = 4094 := by decide
theorem test_bltu_unsigned : (getEng (run (.bltu cLast 2 1 1 {}) sLast) cLast).pc = 4094 ∧
    (getEng (run (.bltu cLast 1 2 1 {}) sLast) cLast).pc = 4093 := by decide
theorem test_branch_out : codes (run (.j cLast 4 {}) sLast) = [0x1004] ∧
    codes (run (.j cLast 0x1003 {}) sLast) = [0x1004] := by decide
theorem test_jal : (getEng (run (.jal cLast 3 0x1FFF {}) sLast) cLast).xr 3 = 4094 ∧
    (getEng (run (.jal cLast 3 0x1FFF {}) sLast) cLast).pc = 4091 := by decide
theorem test_x0 : (getEng (run (.addi cLast 0 1 1 {}) sLast) cLast).x = gLast.x := by decide
theorem test_addi_negative : (getEng (run (.addi cLast 1 1 0x3FFF {}) sLast) cLast).xr 1 = 4 := by decide
theorem test_sra : (getEng (run (.sra cLast 3 2 1 {}) sLast) cLast).xr 3 = 0xFFFFFFFFFFFFFFFF := by decide
theorem test_movhi : (getEng (run (.movhi cLast 2 7 {}) sLast) cLast).xr 2 = 0x7FFFFFFFD := by decide

/-- R118, R119: the engine of a loop of one bundle, two passes left. -/
def gLoop : Engine := { phase := .run, pc := 10, lc := [(2, 2)], loops := [⟨2, 10, 12⟩], x := [(1, 5)] }
def sLoop : State := withEng cLast gLoop

theorem witness_loops_nest :
    (∀ l ∈ gLoop.loops, l.lc ≠ 1) ∧ 1 < (2 : BitVec 12).toNat ∧
    (∀ l, gLoop.loops.head? = some l → gLoop.pc.toNat + (2 : BitVec 12).toNat ≤ l.exit) ∧
    isReady (withEng cLast { gLoop with loops := [⟨2, 10, 14⟩] }) cLast 3 = true :=
  ⟨by decide, by decide, by intro l h; cases h; decide, by decide⟩

/-- A loop opened at the bank's end: the exit at 4,096 is the last that R117 admits; one more word is too far. -/
theorem test_loop_exit_bound :
    (getEng (run (.loopi cLast 0 4 1 {}) sLast) cLast).loops = [⟨0, 4095, 4096⟩] ∧
    codes (run (.loopi cLast 0 5 1 {}) sLast) = [0x1004] ∧ codes (run (.loopi cLast 0 3 1 {}) sLast) = [0x1009] := by decide
theorem test_loop_zero : (getEng (run (.loopi cLast 0 9 0 {}) (withEng cLast { phase := .run })) cLast).pc = 9 := by decide

theorem test_loop_turns :
    (getEng (run (.addi cLast 1 1 0 {}) sLoop) cLast).pc = 10 ∧
    (getEng (run (.addi cLast 1 1 0 {}) sLoop) cLast).lc = [(2, 1)] ∧
    (getEng (run (.addi cLast 1 1 0 {}) (withEng cLast { gLoop with lc := [(2, 1)] })) cLast).pc = 12 := by decide

/-- R119: LCSET in the loop's last bundle: the test uses the written 5. -/
theorem test_lcset : (getEng (run (.lcset cLast 1 2 {}) sLoop) cLast).lc = [(2, 4)] := by decide

/-- R109: both slots read the registers as they stood before the bundle. -/
theorem test_bundle_reads_before :
    let t := run (.agbasex cLast 0 1 { scl := some (.r .add 1 1 1) }) sLast
    ((getEng t cLast).gen 0).base = 5 ∧ (getEng t cLast).xr 1 = 10 := by decide

theorem test_conflict : codes (run (.agstep cLast 0 1 { scl := some (.ldx 1 64) }) sLast) = [0x1008] := by decide

theorem test_agdim : ((getEng (run (.agdim cLast 1 2 9 0xFFFFFF {}) sLast) cLast).gen 1).d2 = ⟨9, 0xFFFFFF, 0⟩ := by decide

/-- R82: 255 of 255 is taken; 255 of 254 waits. -/
def sSem (n : BitVec 16) : State :=
  setTile (withEng cLast gLast) 8191 { getTile (withEng cLast gLast) 8191 with sem := [(15, n)] }

theorem witness_waits :
    isReady (sSem 255) cLast 2 = true ∧ 255 ≤ (getTile (sSem 255) 8191).semVal 15 ∧
    earlierWait (getTile (sSem 255) 8191) 1 15 = false ∧ (gLast.after 2).2.1 < 4096 ∧
    isReady (sSem 254) cLast 2 = true ∧ (getTile (sSem 254) 8191).semVal 15 < 255 := by decide
theorem test_wait :
    (getTile (run (.wait cLast 15 255 {}) (sSem 255)) 8191).semVal 15 = 0 ∧
    (getEng (run (.wait cLast 15 255 {}) (sSem 254)) cLast).phase = .streamWait := by decide

def gWait : Engine := { gLast with phase := .streamWait, held := some { ctl := some (.wait 15 255) } }
def sWait (n : BitVec 16) : State := setTile (withEng cLast gWait) 8191 { getTile (withEng cLast gWait) 8191 with sem := [(15, n)] }

theorem witness_wait_granted :
    let g := getEng (sWait 255) cLast
    g.phase = .streamWait ∧ g.held = some { ctl := some (.wait 15 255) } ∧ g.full = false ∧ g.answer = none ∧ g.results = [] ∧
    g.pc.toNat + 2 ≤ 4096 ∧ (g.after 2).2.1 < 4096 ∧ tileRuns (sWait 255) 8191 = true ∧
    255 ≤ (getTile (sWait 255) 8191).semVal 15 ∧ earlierWait (getTile (sWait 255) 8191) 1 15 = false := by decide
theorem test_wait_granted :
    (getEng (run (.semaphoreWaitGrant cLast) (sWait 256)) cLast).phase = .run ∧
    (getTile (run (.semaphoreWaitGrant cLast) (sWait 256)) 8191).semVal 15 = 1 := by decide

theorem witness_signals :
    isReady (sSem 65280) cLast 3 = true ∧ (gLast.after 3).2.1 < 4096 ∧
    (getTile (sSem 65280) 8191).semVal 15 + 255 ≤ 65535 ∧ 65535 < (getTile (sSem 65281) 8191).semVal 15 + 255 ∧
    tileDeaf (sSem 65280) 0 = false ∧ (getTile (sSem 65280) 0).gated = false ∧
    (getCluster (sSem 65280) (clusterOf 0)).clk = .running ∧ (0 : TileId) ≠ cLast.tile ∧
    (getTile (sSem 65280) 0).semVal 0 + 255 ≤ 65535 := by decide
theorem test_signal :
    (getTile (run (.signal cLast 15 255 {}) (sSem 65280)) 8191).semVal 15 = 65535 ∧
    codes (run (.signal cLast 15 255 {}) (sSem 65281)) = [0x1041] := by decide
theorem test_signalt : (getTile (run (.signalt cLast 3 255 0 {}) (sSem 1)) 0).semVal 3 = 255 := by decide

/-- A tile whose domain the host has turned off. -/
def sOff : State := rset State.reset (aPwrDom 0) 63 62 1
theorem witness_tokens :
    tileDeaf State.reset 0 = false ∧ (getTile State.reset 0).semVal 0 + 255 ≤ 65535 ∧ HostServed State.reset ∧
    tileDeaf sOff 0 = true ∧ (255 : BitVec 8) ≠ 0 ∧ Awake State.reset 0 :=
  ⟨by decide, by decide, ⟨by decide, by decide⟩, by decide, by decide, ⟨by decide, by decide, by decide⟩⟩
theorem test_tokens :
    (getTile (run (.tokenArrival 0 9 1) State.reset) 0).semVal 9 = 1 ∧ codes (run (.tokenArrival 0 9 1) sOff) = [0x1042] ∧
    (getTile (run (.tileSemaddWrite .host 0 0x90001) State.reset) 0).semVal 9 = 1 ∧
    (getTile (run (.tileSemWrite .host 0 9 7) State.reset) 0).semVal 9 = 7 := by decide

/-! ### Memory of a tile, transfers, entries and pushes (chapters 03 and 04) -/

/-- The V engine of the last tile: x1 an address operand's index, x2 data. The scalar form of a MODE 0 operand is x0 + offset. -/
def vLast : At := ⟨8191, 2⟩
def gMem (base : BitVec 20) : Engine :=
  { phase := .run, x := [(2, 0x8877665544332211)], ag := [(1, { base := base, d0 := ⟨1, 64, 0⟩ })] }
def sMem (base : BitVec 20) : State := withEng vLast (gMem base)

/-- MODE 1 of generator 1 (Table 4.5). -/
def gen1 : BitVec 8 := 65

theorem witness_local_access :
    isReady (sMem 0x4FFF8) vLast 2 = true ∧ operandBad gen1 = false ∧ OpenTo 2 (operandAddr (gMem 0x4FFF8) gen1) 8 ∧
    operandAddr (gMem 0x4FFF8) gen1 % 8 = 0 ∧ (gMem 0x4FFF8).writing = [] ∧
    ((((gMem 0x4FFF8).setX 31 0).used gen1).after 2).2.1 < 4096 ∧ (((gMem 0x4FFF8).used gen1).after 2).2.1 < 4096 ∧
    pairedEngine (sMem 0x4FFF8) vLast = none ∧
    ¬OpenTo 2 (operandAddr (gMem 0x4FFF9) gen1) 8 ∧
    (OpenTo 2 (operandAddr (gMem 0x3FFF4) gen1) 8 ∧ operandAddr (gMem 0x3FFF4) gen1 % 8 ≠ 0) := by
  unfold OpenTo; decide

theorem test_stx_ldx :
    let t := run (.stx vLast 2 gen1 {}) (sMem 0x4FFF8)
    localByte t 8191 0x4FFF8 = 0x11 ∧ localByte t 8191 0x4FFFF = 0x88 ∧ ((getEng t vLast).gen 1).d0.idx = 1 ∧
    (getEng (run (.ldx vLast 3 gen1 {}) (run (.agrst vLast 1 {}) t)) vLast).xr 3 = 0x8877665544332211 := by decide
theorem test_local_faults :
    codes (run (.ldx vLast 3 gen1 {}) (sMem 0x4FFF9)) = [0x2020] ∧ codes (run (.stx vLast 3 gen1 {}) (sMem 0x3FFF4)) = [0x2021] ∧
    codes (run (.ldx cLast 3 gen1 {}) (withEng cLast (gMem 0x40000))) = [] := by decide

/-- A fabric address of the module's own tile 0, its last eight bytes; the module's ID is 0x0113. -/
def sFab (x : Word) : State := rset (withEng vLast { gMem 0 with x := [(1, x), (2, 0x8877665544332211)] }) aFabCfg 15 0 0x113

theorem witness_module_access :
    (let g := getEng (sFab 0x011302000003FFF8) vLast
     isReady (sFab 0x011302000003FFF8) vLast 2 = true ∧ fld (g.xr 1) 63 48 = moduleId (sFab 0x011302000003FFF8) ∧
     fld (g.xr 1) 47 0 = 0x020000000000 + 0x7FFF * 8 ∧ (g.after 2).2.1 < 4096) ∧
    Awake (sFab 0x011302000003FFF8) 0 ∧
    (let g := getEng (sFab 0xFFFF02000003FFF8) vLast
     (g.xr 1).toNat % 8 = 0 ∧ fld (g.xr 1) 63 48 ≠ moduleId (sFab 0xFFFF02000003FFF8) ∧
     ∀ i < 4, rf (sFab 0xFFFF02000003FFF8) aFabBoard (16 * i + 15) (16 * i) ≠ fld (g.xr 1) 63 48) ∧
    ((getEng (sFab 0xFFFF02000003FFF9) vLast).xr 1).toNat % 8 ≠ 0 :=
  ⟨by decide, ⟨by decide, by decide, by decide⟩, by decide, by decide⟩
theorem test_stg :
    localByte (run (.stg vLast 1 2 {}) (sFab 0x011302000003FFF8)) 0 0x3FFFF = 0x88 ∧
    codes (run (.stg vLast 1 2 {}) (sFab 0xFFFF02000003FFF8)) = [0x4010] ∧
    codes (run (.ldg vLast 2 1 {}) (sFab 0x011302000003FFF9)) = [0x2021] := by decide

/-- The L engine of tile 0: two rows of 16 bytes from tile 8191's store to the end of the staging store. -/
def lFirst : At := ⟨0, 0⟩
def gLoad : Engine :=
  { phase := .run, x := [(1, 0x02007FFC0000), (2, 16), (3, 2), (4, 0x100)], ag := [(1, { base := 0x87FE0 }), (2, { base := 0 })] }
def sLoad : State := withEng lFirst gLoad

theorem witness_transfers_issue :
    isReady sLoad lFirst 3 = true ∧ operandBad gen1 = false ∧ operandBad 66 = false ∧ gLoad.xfers.length < 64 ∧
    0x80000 ≤ operandAddr gLoad gen1 ∧ operandAddr gLoad gen1 + ((2 * 16 : Nat) : Int) ≤ 0x88000 ∧
    ((gLoad.used gen1).after 3).2.1 < 4096 ∧ (((gLoad.used gen1).used 66).after 3).2.1 < 4096 ∧
    gLoad.writing = [] := by decide
theorem test_ldma2 :
    (getEng (run (.ldma2 0 gen1 1 2 5 1 3 4 true {}) sLoad) lFirst).xfers.map (fun x => x.kind) =
      [.load [(0x02007FFC0000, 0x87FE0, 16), (0x02007FFC0100, 0x87FF0, 16)]] := by decide
theorem test_lgath :
    (getEng (run (.lgath 0 gen1 1 2 5 1 66 3 true {}) sLoad) lFirst).xfers.map (fun x => x.kind) =
      [.load [(0x02007FFC0000, 0x87FE0, 16), (0x02007FFC0000, 0x87FF0, 16)]] := by decide
theorem test_ldma_limit : codes (run (.ldma2 0 gen1 1 2 5 1 2 4 true {}) sLoad) = [0x2020] := by decide

def sFirst : At := ⟨0, 3⟩
def gStore : Engine := { gLoad with x := [(1, 0x02007FFC0000), (2, 16)], ag := [(1, { base := 0x3FFF0 })] }
theorem witness_sdma_issue :
    isReady (withEng sFirst gStore) sFirst 3 = true ∧ pairedEngine (withEng sFirst gStore) sFirst = none ∧
    0 ≤ operandAddr gStore gen1 ∧ operandAddr gStore gen1 + 16 ≤ 0x40000 ∧ ((gStore.used gen1).after 3).2.1 < 4096 := by decide
theorem test_sdma :
    (getEng (run (.sdma 0 gen1 1 2 5 1 2 6 3 true {}) (withEng sFirst gStore)) sFirst).xfers.map (fun x => x.kind) =
      [.store 0x3FFF0 0x02007FFC0000 16 2 6 0] := by decide

/-- An outstanding load of 2 bytes to the end of tile 0's store, and the same bytes there to be read. -/
def gXfer (k : XKind) : Engine := { phase := .run, xfers := [{ id := 7, kind := k, sem := 5, tcnt := 255 }], nextX := 8 }
def sXfer (k : XKind) : State := { withEng lFirst (gXfer k) with mem := [(0x02007FFFFFFE, 0xAB), (0x02007FFFFFFF, 0xCD)] }
def loadEnd : XKind := .load [(0x02007FFFFFFE, 0x3FFFE, 2)]

theorem witness_transfer_completes :
    let g := getEng (sXfer loadEnd) lFirst
    g.xfers = [{ id := 7, kind := loadEnd, sem := 5, tcnt := 255 }] ∧ g.held = none ∧ 0x3FFFE + 2 ≤ 0x40000 ∧
    Awake (sXfer loadEnd) 8191 ∧ TakesTokens (sXfer loadEnd) 0 ∧ (getTile (sXfer loadEnd) 0).semVal 5 + 255 ≤ 65535 :=
  ⟨by decide, by decide, by decide, ⟨by decide, by decide, by decide⟩, ⟨by decide, by decide, by decide⟩, by decide⟩
theorem test_transfer :
    let t := run (.transferComplete lFirst 7) (sXfer loadEnd)
    localByte t 0 0x3FFFF = 0xCD ∧ (getTile t 0).semVal 5 = 255 ∧ (getEng t lFirst).xfers = [] := by decide
theorem test_transfer_store :
    let t := run (.transferComplete lFirst 7) (sXfer (.store 0x3FFFE 0x02007FFFFFFE 2 0 0 0))
    localByte t 8191 0x3FFFF = 0 ∧ (getTile t 0).semVal 5 = 255 := by decide

/-- Table 3.4's words: RUN, no wait, signal of 3 to sem4, entry point 0xFFE. -/
def runWord : Word := 0x0000403000000FFE
def headEntry : Entry := { w0 := runWord, w1 := 0x0052000000000077, w2 := 2, w3 := 3, stamp := 0 }
def sEntry : State := withEng cLast { queue := [headEntry], x := [(9, 9)] }

theorem witness_entry_starts :
    CanStart sEntry cLast headEntry [] ∧ fld headEntry.w0 35 34 = 0 ∧
    fld headEntry.w0 55 48 ≤ (getTile sEntry 8191).semVal (fld headEntry.w0 59 56) ∧
    earlierWait (getTile sEntry 8191) 1 (fld headEntry.w0 59 56) = false ∧
    (getTile sEntry 8191).semVal 0 < fld (0x0001000000000000 : Word) 55 48 :=
  ⟨⟨by decide, by decide, by decide, by decide, by decide⟩, by decide, by decide, by decide, by decide⟩
theorem test_entry_starts :
    let g := getEng (run (.entryStart cLast) sEntry) cLast
    g.pc = 0xFFE ∧ g.xr 1 = 0x77 ∧ g.xr 2 = 2 ∧ g.xr 9 = 9 ∧ g.queue = [] ∧ g.phase = .run := by decide

/-- The same head with CRET 1, with CRET 2 to sem15 of tile 0, and with a wait for 1 of sem0. -/
def sEntryW (w : Word) : State := withEng cLast { queue := [{ headEntry with w0 := w }] }
theorem witness_credits :
    CanStart (sEntryW 0x0000000400000000) cLast { headEntry with w0 := 0x0000000400000000 } [] ∧
    fld (0x0000000400000000 : Word) 35 34 = 1 ∧ fld (0x0000000BC0000000 : Word) 35 34 = 2 ∧
    TakesTokens (sEntryW 0x0000000BC0000000) (fld (0x0000000BC0000000 : Word) 29 17) ∧
    (getTile (sEntryW 0x0000000BC0000000) 0).semVal 15 < 65535 :=
  ⟨⟨by decide, by decide, by decide, by decide, by decide⟩, by decide, by decide, ⟨by decide, by decide, by decide⟩, by decide⟩
theorem test_credits :
    ((run (.entryStart cLast) (sEntryW 0x0000000400000000)).rep.raised.map (fun r => (r.unit, r.tag))) = [(0xBFFF, 0x52)] ∧
    (getTile (run (.entryStart cLast) (sEntryW 0x0000000BC0000000)) 0).semVal 15 = 1 ∧
    run (.entryStart cLast) (sEntryW 0x0001000000000000) = sEntryW 0x0001000000000000 := by decide

theorem test_end_and_trap :
    (getEng (run (.endOp cLast {}) sLast) cLast).phase = .drain ∧
    ((run (.trap cLast 0xBEEF {}) sLast).rep.raised.map (fun r => (r.code.toNat, r.a2))) = [(0x10F0, 0xBEEF)] := by decide

def gEnds : Engine := { phase := .drain, running := some headEntry }
theorem witness_entry_signals :
    let s := withEng cLast gEnds
    tileRuns s 8191 = true ∧ pairedEngine s cLast = none ∧
    (getTile s 8191).semVal (fld runWord 47 44) + fld runWord 43 36 ≤ 65535 := by decide
theorem test_entry_signals :
    let t := run (.entrySignal cLast) (withEng cLast gEnds)
    (getTile t 8191).semVal 4 = 3 ∧ (getEng t cLast).phase = .idle := by decide

/-- A queue of 16 entries is full; one of 15 takes one more (R73). -/
def sQueue (n : Nat) : State := withEng cLast { queue := List.replicate n headEntry }
theorem witness_pushes :
    HostServed (sQueue 15) ∧ highestRefusal (sQueue 16) 8191 1 runWord = 1 ∧ highestRefusal (sQueue 15) 8191 1 runWord = 0 ∧
    (getTile (sQueue 15) 8191).gated = false ∧ (getCluster (sQueue 15) (clusterOf 8191)).clk = .running ∧
    Req.firmware ≠ .host ∧ (∀ u, Req.firmware ≠ .engine ⟨u, 3⟩) :=
  ⟨⟨by decide, by decide⟩, by decide, by decide, by decide, by decide, by decide, by intro u h; cases h⟩
theorem test_launch_push :
    (run (.launchPush 8191 1 runWord 1 2 3 .host) (sQueue 16)).reply.1 = 1 ∧
    (getEng (run (.launchPush 8191 1 runWord 1 2 3 .host) (sQueue 15)) cLast).queue.length = 16 ∧
    (run (.launchPush 8191 1 0x2000000000000000 1 2 3 .host) (sQueue 15)).reply.1 = 8 ∧
    codes (run (.launchPush 8191 1 runWord 1 2 3 .firmware) (sQueue 15)) = [0x20F0] := by decide
/-! ### Groups, aborts, banks and clocks (chapter 03) -/

/-- LPUSH of the 32 bytes at 0x3FFE0 to engine L of tile 0, by the S engine of the last tile. -/
def sPusher : At := ⟨8191, 3⟩
def gPusher (x : Word) : Engine := { phase := .run, x := [(1, x)], ag := [(1, { base := 0x3FFE0 })] }
theorem witness_store_pushes :
    (let s := withEng sPusher (gPusher 0x030004000800)
     isReady s sPusher 2 = true ∧ operandBad gen1 = false ∧ operandAddr (gPusher 0x030004000800) gen1 = 0x3FFE0 ∧
     (gPusher 0x030004000800).writing = [] ∧ pairedEngine s sPusher = none ∧
     (getTile s 0).gated = false ∧ highestRefusal s 0 0 0 = 0 ∧ ((((gPusher 0).used gen1).setX 2 0).after 2).2.1 < 4096) ∧
    fld (0x02FFFFFFFFFF : Word) 47 0 < 0x030000000000 := by decide
theorem test_lpush :
    ((getTile (run (.lpush 8191 gen1 1 2 {}) (withEng sPusher (gPusher 0x030004000800))) 0).engine 0).queue.length = 1 ∧
    codes (run (.lpush 8191 gen1 1 2 {}) (withEng sPusher (gPusher 0x02FFFFFFFFFF))) = [0x100B] := by decide

/-- Group 63: columns 31 and rows 31 of die C7, one tile; its engine C full, or not. -/
def grpWord : Word := 0x80000080011F011F
def sGroup (n : Nat) : State := { sQueue n with regs := tset 0 (sQueue n).regs (aTileGrp 63) grpWord }
theorem witness_group_pushes :
    grpMembers grpWord = [8191] ∧ bit (regGet (sGroup 15) (aTileGrp 63)) 63 = true ∧ bit (regGet (sGroup 15) (aTileGrp 62)) 63 = false ∧
    highestRefusal (sGroup 16) 8191 1 runWord ≠ 0 ∧ highestRefusal (sGroup 15) 8191 1 runWord = 0 ∧
    fld grpWord 20 16 + fld grpWord 29 24 ≤ 32 ∧ fld grpWord 4 0 + fld grpWord 13 8 ≤ 32 := by decide
theorem test_group_push :
    (run (.groupPush 62 1 runWord 1 2 3 .host) (sGroup 15)).reply.1 = 9 ∧
    (run (.groupPush 63 1 runWord 1 2 3 .host) (sGroup 16)).reply.1 ≠ 0 ∧
    (getEng (run (.groupPush 63 1 runWord 1 2 3 .host) (sGroup 15)) cLast).queue.length = 16 := by decide

theorem witness_aborts :
    HostServed sEntry ∧ Awake sEntry 8191 ∧ pairOf sEntry 8191 = none ∧ groupMates sEntry 8191 = [8191] ∧
    NoGbar sEntry 8191 1 ∧ groupOf sEntry 8191 = none :=
  ⟨⟨by decide, by decide⟩, ⟨by decide, by decide, by decide⟩, by decide, by decide, by unfold NoGbar; decide, by decide⟩
theorem test_abort :
    (getEng (run (.engineAbort .host 8191 2) sEntry) cLast).queue = [] ∧
    (getEng (run (.engineAbort .host 8191 2) sEntry) cLast).xr 9 = 9 ∧
    (getEng (run (.engineAbort .host 8191 2) sEntry) cLast).phase = .aborting ∧
    (getEng (run (.engineAbort .host 0 1) (sXfer loadEnd)) lFirst).phase = .aborting := by decide
theorem witness_abort_completes :
    (getEng (withEng cLast { phase := .aborting }) cLast).xfers = [] ∧
    (getEng (withEng cLast { phase := .aborting, xfers := [{ id := 0, kind := loadEnd, sem := 0, tcnt := 0 }] }) cLast).xfers ≠ [] := by decide
theorem test_abort_completes :
    (getEng (run (.engineAbortComplete cLast) (withEng cLast { phase := .aborting })) cLast).phase = .idle := by decide
theorem test_tile_reset :
    (getTile (run (.tileReset .host 8191) (sSem 255)) 8191).sem = [] ∧
    (getTile (run (.tileReset .host 8191) (sSem 255)) 8191).resetting = true ∧
    (getEng (run (.tileReset .host 8191) (sSem 255)) cLast).phase = .aborting := by decide +kernel
/-- The last abort of a tile reset ends, and the reset with it. -/
def sEnding : State := setTile State.reset 8191 { resetting := true, eng := [(1, { phase := .aborting })] }
theorem witness_reset_ends :
    (getTile sEnding 8191).resetting = true ∧ (getTile sEnding 8191).chatter = false ∧ (getEng sEnding cLast).phase = .aborting ∧
    (getEng sEnding cLast).xfers = [] ∧ (∀ e < 4, e ≠ 1 → ((getTile sEnding 8191).engine e).phase ≠ .aborting) := by decide
theorem test_reset_ends : (getTile (run (.engineAbortComplete cLast) sEnding) 8191).resetting = false := by decide

theorem witness_groups :
    (fld grpWord 39 32 ≠ 0 ∧ fld grpWord 29 24 ≠ 0 ∧ fld grpWord 13 8 ≠ 0 ∧ FitsDies grpWord) ∧
    (∀ t ∈ grpMembers grpWord, tileBusy State.reset t = false ∧ gbarPending State.reset t = false) ∧
    grpMembers (regGet State.reset (aTileGrp 63)) = [] ∧
    (∀ h < 64, bit (regGet State.reset (aTileGrp h)) 63 = false) ∧ ¬FitsDies 0x80000080011F021F :=
  ⟨⟨by decide, by decide, by decide, by decide, by decide⟩, by decide, by decide, by decide, by
    intro h; exact absurd h.2 (by decide)⟩
theorem test_group_write :
    grpEn (run (.tileGrpWrite .host 63 grpWord) State.reset) 63 = true ∧
    codes (run (.tileGrpWrite .host 63 0x80000080011F021F) State.reset) = [0x1043] ∧
    codes (run (.tileGrpWrite .host 63 grpWord) sEntry) = [0x1043] := by decide

def gAt (c : Ctl) (ph : Phase) : Engine := { phase := ph, held := some { ctl := some c }, pc := 4000 }
def sGbar : State := { withEng cLast (gAt .gbar .streamWait) with regs := tset 0 State.reset.regs (aTileGrp 63) grpWord }
theorem witness_gbar :
    bit (regGet sGbar (aTileGrp 63)) 63 = true ∧ FitsDies (regGet sGbar (aTileGrp 63)) ∧
    (∀ t ∈ grpMembers (regGet sGbar (aTileGrp 63)), HoldsCtl ((getTile sGbar t).engine 1) .gbar .streamWait ∧
      ((getTile sGbar t).engine 1).stuck = false ∧ ((getTile sGbar t).engine 1).Falls 2) := by
  refine ⟨by decide, ⟨by decide, by decide⟩, ?_⟩
  unfold HoldsCtl Engine.Falls
  decide
theorem test_gbar : (getEng (run (.gbarRelease 63 1) sGbar) cLast).pc = 4002 ∧
    (getEng (run (.gbarRelease 63 1) sGbar) cLast).phase = .run := by decide
theorem witness_barriers :
    isReady (withEng cLast { phase := .run }) cLast 2 = true ∧ groupOf (withEng cLast { phase := .run }) 8191 = none ∧
    (let s := { withEng cLast { phase := .run } with regs := tset 0 State.reset.regs (aTileGrp 63) grpWord }
     isReady s cLast 2 = true ∧ groupOf s 8191 ≠ none) ∧
    (let s := withEng cLast { phase := .run, xfers := [{ id := 0, kind := loadEnd, sem := 0, tcnt := 0 }] }
     isReady s cLast 2 = true ∧ (getEng s cLast).xfers ≠ []) := by decide
theorem test_drain :
    (getEng (run (.drain cLast {}) (withEng cLast { phase := .run, xfers := [{ id := 0, kind := loadEnd, sem := 0, tcnt := 0 }] })) cLast).phase =
      .streamWait ∧ (getEng (run (.drain cLast {}) (withEng cLast { phase := .run })) cLast).pc = 2 := by decide

/-- All four engines of the last tile at SWAPB, each with its own target. -/
def sSwap : State :=
  setTile State.reset 8191 { eng := (List.range 4).map (fun e => (e, gAt (.swapb (BitVec.ofNat 12 (e + 4092))) .swapbWait)) }
theorem witness_bank_swap :
    tileRuns sSwap 8191 = true ∧
    (∀ e < 4, HoldsCtl ((getTile sSwap 8191).engine e) (.swapb (BitVec.ofNat 12 (e + 4092))) .swapbWait) := by
  unfold HoldsCtl; decide
theorem test_bank_swap :
    (getTile (run (.bankSwap 8191) sSwap) 8191).bank = true ∧ (getEng (run (.bankSwap 8191) sSwap) ⟨8191, 3⟩).pc = 4095 := by decide
theorem test_host_bank_swap :
    (getTile (run (.hostBankSwap .host 8191) State.reset) 8191).bank = true ∧
    codes (run (.hostBankSwap .host 8191) sEntry) = [0x10A1] := by decide

/-- The last tile gated, waking; fifteen activations of its cluster stand within 1 µs. -/
def sWaking : State :=
  setCluster (setTile State.reset 8191 { gated := true, waking := true }) 63 { getCluster State.reset 63 with acts := List.replicate 15 25 }
theorem witness_clocks :
    (getTile State.reset 8191).idle = true ∧ tileRuns State.reset 8191 = true ∧ (getTile sWaking 8191).waking = true ∧
    (getCluster sWaking (clusterOf 8191)).clk = .running ∧ (getCluster sWaking (clusterOf 8191)).acts.length < 16 ∧
    sWaking.thm.hold = false := by decide
theorem test_clocks :
    (getTile (run (.tileClockGate 8191) State.reset) 8191).gated = true ∧
    (getCluster (run (.tileActivation 8191) sWaking) 63).acts.length = 16 := by decide

/-- Cluster 63 with all its tiles gated and its stop allowed after 1 µs; and starting again, with tokens and a write of a semaphore
    between them held. -/
def sStop : State :=
  { rset State.reset aPwrCtrl 31 16 1 with tile := (List.range 128).map (fun i => (8064 + i, { gated := true })) }
def sHeld : List Delivery := [⟨8191, 15, false, 255⟩, ⟨8191, 15, true, 7⟩, ⟨8191, 15, false, 2⟩]
def sStart : State :=
  { setCluster State.reset 63 { getCluster State.reset 63 with clk := .starting } with waits := sHeld.map Delivery.held }
theorem witness_cluster :
    ((getCluster sStop 63).clk = .running ∧ rf sStop aPwrCtrl 31 16 ≠ 0 ∧ domOn sStop (domOfCluster 63) = true) ∧
    (∀ i < 128, (getTile sStop (63 * 128 + i)).gated = true ∧ (getTile sStop (63 * 128 + i)).waking = false) ∧
    ((getCluster sStart 63).clk = .starting ∧ sStart.waits = sHeld.map Delivery.held ∧ HostServed sStart ∧ sStart.closing = [] ∧
      (getCluster sStart 63).acts.length < 16 ∧ sStart.thm.hold = false) ∧
    (∀ d ∈ sHeld, clusterOf d.tile.toNat = 63 ∧ tileDeaf sStart d.tile.toNat = false ∧ tileCode sStart d.tile.toNat = 0 ∧
      (d.set = false → d.n ≠ 0)) ∧ rf sStart (levelReg 63) 59 56 = wantedLevel sStart 63 := by
  unfold HostServed
  refine ⟨by decide, by decide +kernel, by decide, by decide, by decide⟩
theorem test_cluster :
    (getCluster (run (.clusterClockStop 63) sStop) 63).clk = .stopped ∧
    (getTile (run (.clusterClockStart 63) sStart) 8191).semVal 15 = 9 ∧
    (run (.tokenArrival 8191 15 255) { sStart with waits := [] }).waits = [(sHeld.getD 0 ⟨0, 0, true, 0⟩).held] := by decide +kernel

/-! ### The V and C engines (chapters 05 to 07) -/

/-- The V engine of the last tile: v1 and v2 hold the two words of 32 bits in lanes 0 and 1, v3 one. -/
def vecs (a b c : BitVec 2048) : State :=
  setTile State.reset 8191 { eng := [(2, { phase := .run, pc := 4092, x := [(1, 7)] })], v := [(1, a), (2, b), (3, c)] }
def vRes (s : State) : State := run (.resultReady vLast) s
def vReg (s : State) (r : BitVec 5) : BitVec 2048 := (getTile s 8191).vr r

theorem witness_vector_rows :
    isReady (vecs 1 2 3) vLast 2 = true ∧ isReady (vecs 1 2 3) vLast 3 = true ∧
    ((getEng (vecs 1 2 3) vLast).after 3).2.1 < 4096 ∧ ((getEng (vecs 1 2 3) vLast).after 2).2.1 < 4096 ∧
    3 * min (tyBits 0) (tyBits 4) < max (tyBits 0) (tyBits 4) ∧ 0 * min (tyBits 3) (tyBits 3) < max (tyBits 3) (tyBits 3) := by
  decide +kernel

theorem test_vadd_wraps : lane 32 (vReg (vRes (run (.valu 8191 4 1 2 3 0 {}) (vecs 0xFFFFFFFF 1 0))) 4) 0 = 0 := by decide +kernel
theorem test_vmin_signed : lane 8 (vReg (vRes (run (.valu 8191 4 1 2 4 3 {}) (vecs 0x80 0x7F 0))) 4) 0 = 0x80 := by decide +kernel
theorem test_vsra : lane 32 (vReg (vRes (run (.vshift 8191 4 1 2 3 2 {}) (vecs 0x80000000 33 0))) 4) 0 = 0xC0000000 := by decide +kernel

/-- Table 7.2: ADDS past the top saturates and sets OVF; on the top it does not. -/
theorem witness_saturation :
    (let x := getTile (vecs 0x7FFFFFFF 1 0) 8191
     2 ^ 31 - 1 < (lane 32 (x.vr 1) 0).toInt + (lane 32 (x.vr 2) 0).toInt) ∧
    (∀ k < 64, let x := getTile (vecs 0x7FFFFFFF 0 0) 8191
      let r := (lane 32 (x.vr 1) k).toInt + (lane 32 (x.vr 2) k).toInt
      ¬(r < -(2 ^ 31 - 1) - 1 ∨ 2 ^ 31 - 1 < r)) := by
  refine ⟨by decide +kernel, by decide +kernel⟩
theorem test_adds :
    let s := vRes (run (.valu 8191 4 1 2 3 7 {}) (vecs 0x7FFFFFFF 1 0))
    lane 32 (vReg s 4) 0 = 0x7FFFFFFF ∧ regGet s (aVecStatus 8191) = 4 := by decide +kernel

/-- R206, R203: 1.5 + (−1.5) is +0; the largest finite FP32 doubled is +∞ and sets OVF and INF. -/
theorem test_fadd : lane 32 (vReg (vRes (run (.valu 8191 4 1 2 0 0 {}) (vecs 0x3FC00000 0xBFC00000 0))) 4) 0 = 0 := by
  decide +kernel
theorem test_fadd_overflow :
    let s := vRes (run (.valu 8191 4 1 2 0 0 {}) (vecs 0x7F7FFFFF 0x7F7FFFFF 0))
    lane 32 (vReg s 4) 0 = 0x7F800000 ∧ regGet s (aVecStatus 8191) = 6 := by decide +kernel
/-- Table 7.5: the reciprocal of −0 is −∞, of 2 is 0.5. -/
theorem test_reciprocal :
    let s := vRes (run (.vfnReciprocal 8191 4 1 0 {}) (vecs 0x4000000080000000 0 0))
    lane 32 (vReg s 4) 0 = 0xFF800000 ∧ lane 32 (vReg s 4) 1 = 0x3F000000 := by decide +kernel
theorem test_exp2 :
    let s := vRes (run (.vfnExp2 8191 4 1 0 {}) (vecs 0x40400000FF800000 0 0))
    lane 32 (vReg s 4) 0 = 0 ∧ lane 32 (vReg s 4) 1 = 0x41000000 := by decide +kernel
/-- R221: ABS of a NaN is the canonical NaN; NEG gives it the other sign. -/
theorem test_abs_nan :
    lane 32 (vReg (vRes (run (.valu 8191 4 1 0 0 5 {}) (vecs 0xFFFFFFFF 0 0))) 4) 0 = 0x7FC00000 := by decide +kernel
/-- R209: 2.5 goes to 2, the even one of its neighbours; NaN to 0; −∞ clamps. -/
theorem test_vcvt :
    let s := vRes (run (.vcvt 8191 4 1 0 24 {}) (vecs 0xFF8000007FC0000040200000 0 0))
    lane 32 (vReg s 4) 0 = 2 ∧ lane 32 (vReg s 4) 1 = 0 ∧ lane 32 (vReg s 4) 2 = 0x80000000 := by decide +kernel
/-- R217: a sum of INT32 lanes is sign-extended to 64 bits. -/
theorem test_vred : (getEng (vRes (run (.vred 8191 5 1 3 0 {}) (vecs 0xFFFFFFFE00000001 0 0))) vLast).xr 5 = 0xFFFFFFFFFFFFFFFF := by
  decide +kernel

/-- VLD and VST at the hold buffer's last 256 bytes, and at the first addresses that R122 and R123 refuse. -/
def sVmem (base : BitVec 20) (v : BitVec 2048) : State :=
  { setTile State.reset 8191 { eng := [(2, gMem base)], v := [(1, v)] } with hold := [(8191 * 0x10000 + 0xFF00, 0x5A)] }
theorem witness_vector_memory :
    isReady (sVmem 0x4FF00 1) vLast 2 = true ∧ operandBad gen1 = false ∧ OpenTo 2 (operandAddr (gMem 0x4FF00) gen1) 256 ∧
    operandAddr (gMem 0x4FF00) gen1 % 64 = 0 ∧ (((gMem 0x4FF00).used gen1).after 2).2.1 < 4096 ∧
    vldConflicts (sVmem 0x4FF00 1) 8191 = [] ∧ pairedEngine (sVmem 0x4FF00 1) vLast = none ∧
    ¬OpenTo 2 (operandAddr (gMem 0x4FF40) gen1) 256 ∧ OpenTo 2 (operandAddr (gMem 0x3FF00) gen1) 256 ∧
    (OpenTo 2 (operandAddr (gMem 0x20) gen1) 256 ∧ operandAddr (gMem 0x20) gen1 % 64 ≠ 0) := by
  unfold OpenTo; decide +kernel
theorem test_vld : lane 8 (vReg (vRes (run (.vld 8191 2 gen1 {}) (sVmem 0x4FF00 1))) 2) 0 = 0x5A := by decide +kernel
theorem test_vst :
    localByte (vRes (run (.vst 8191 1 gen1 {}) (sVmem 0x4FF00 (0xC3 <<< 2040)))) 8191 0x4FFFF = 0xC3 ∧
    codes (run (.vst 8191 1 gen1 {}) (sVmem 0x4FF40 1)) = [0x2020] ∧ codes (run (.vld 8191 1 gen1 {}) (sVmem 0x20 1)) = [0x2021] := by
  decide +kernel

/-- The C engine of the last tile: operands at generators 1 and 2, accumulator 3 as given. -/
def gCube : Engine := { phase := .run, ag := [(1, { base := 0x3FF00 }), (2, { base := 0x40000 - 0x200 })] }
def sCube (x : Acc) (m : Tbl Byte) : State :=
  { setTile State.reset 8191 { eng := [(1, gCube)], acc := [(3, x)] } with mem := m }
/-- One step of FP8 E4M3 takes 8 rows of 8 bytes (R146): row 0 of A holds 1.0, 1.5 and row 0 of B 2.0, −0.5. -/
def cubeMem : Tbl Byte :=
  [(0x02007FFFFE00, 0x40), (0x02007FFFFE01, 0xB0), (0x02007FFFFF00, 0x38), (0x02007FFFFF01, 0x3C)]

theorem witness_cube :
    isReady (sCube {} cubeMem) cLast 3 = true ∧ (getTile (sCube {} cubeMem) 8191).cexpOf 3 = 0 ∧
    (∀ o ∈ [gen1, 66], OpenTo 1 (operandAddr gCube o) (1 * stepK 0 * elemBits 0) ∧ operandAddr gCube o % 64 = 0) ∧ gCube.writing = [] ∧
    (((gCube.used gen1).used 66).after 3).2.1 < 4096 ∧ ({} : Acc).vl = false ∧
    (-18 : Int) = (BitVec.ofInt 9 (-18)).toInt := by
  unfold OpenTo; decide +kernel

/-- Descriptor 1 of the last tile holds `w0` and `w2`; A, B and the operand's stream stand apart in the store, at generators
    1, 2 and 3. -/
def gFd : Engine := { phase := .run, ag := [(1, { base := 0x3E000 }), (2, { base := 0x3F000 }), (3, { base := 0x3FF00 })] }
def sFd (w0 w2 : Word) (x : Acc) : State :=
  let s := setTile State.reset 8191 { eng := [(1, gFd)], acc := [(3, x)] }
  { s with regs := tset 0 (tset 0 s.regs (aCubFdW0 8191 0) w0) (aCubFdW2 8191 0) w2,
           mem := [(0x02007FFFFF00, 0xE0), (0x02007FFFFF04, 0xE1), (0x02007FFFFF08, 0xE2), (0x02007FFFFF0C, 0xE3),
                   (0x02007FFFFF10, 0xE4), (0x02007FFFFF14, 0xE5), (0x02007FFFFF18, 0xE6), (0x02007FFFFF1C, 0xE7)] }
/-- PMODE 1 gathers rows of E4M3 from the hold buffer, 64 apart; PMODE 2 requantizes held values under their scales, PMODE 3 carries
    them; TRA and TRB read blocks; a microscaling format takes whole blocks of 32. -/
def fdRows : List (Word × Word × Nat × Nat) :=
  [(0x8013000000000000, 0x40, 0, 8), (0x8023000000000000, 0, 0, 8), (0x80F3000000000000, 0, 0, 8), (0x80C3000000000000, 0, 9, 32)]
def FdMeets (s : State) (d : Desc) (c tk : Nat) (S : Int) (e : Engine) : Prop :=
  c < 15 ∧ operandBad gen1 = false ∧ operandBad 66 = false ∧ isReady s cLast 3 = true ∧ descCodes s 8191 1 .prologue c = [] ∧
  (d.pmode ≠ 0 → d.pag ∉ operandSteps gen1 ++ operandSteps 66) ∧ (isMX c = true → tk % 32 = 0) ∧
  (d.tra = true ∨ d.trb = true → tk % 8 = 0) ∧ operandAddr gFd gen1 % 64 = 0 ∧ operandAddr gFd 66 % 64 = 0 ∧
  OpenTo 1 (operandAddr gFd 66) (spanLen c tk) ∧
  OpenTo 1 (operandAddr gFd gen1) (spanLen (if d.pmode = 2 then d.heldFmt false else c) tk) ∧
  (d.pmode = 1 → ∀ i < 8, OpenTo 1 (operandAddr gFd gen1 + (leNat ((List.range 4).map (fun k =>
    localByte s 8191 (S.toNat + 4 * i + k))) * d.gstride : Nat)) ((tk * elemBits c + 7) / 8)) ∧
  (d.pmode ≠ 0 → S % 8 = 0 ∧ OpenTo 1 S (if d.pmode = 1 then 32 else 8)) ∧ gFd.writing = [] ∧ (e.after 3).2.1 < 4096 ∧
  ({} : Acc).vl = false ∧ (getTile s 8191).cexpOf 3 = 0
theorem witness_cube_fused :
    ∀ r ∈ fdRows, FdMeets (sFd r.1 r.2.1 {}) (descOf (sFd r.1 r.2.1 {}) 8191 1) r.2.2.1 r.2.2.2
      (gFd.gen (descOf (sFd r.1 r.2.1 {}) 8191 1).pag).addr
      (if (descOf (sFd r.1 r.2.1 {}) 8191 1).pmode = 0 then (gFd.used gen1).used 66 else ((gFd.used gen1).used 66).used 67) := by
  unfold FdMeets OpenTo
  simp only [← and_assoc, forall_and]
  refine ⟨⟨⟨⟨⟨⟨⟨⟨⟨⟨⟨⟨⟨⟨⟨⟨⟨?_, ?_⟩, ?_⟩, ?_⟩, ?_⟩, ?_⟩, ?_⟩, ?_⟩, ?_⟩, ?_⟩, ?_⟩, ?_⟩, ?_⟩, ?_⟩, ?_⟩, ?_⟩, ?_⟩, ?_⟩ <;> decide +kernel
/-- Of an element that R161 keeps, FP32 asks for an accumulator of FP32; PMODE 3 carries scales that the accumulator has not. -/
theorem witness_cube_refused :
    ({ vl := true } : Acc).vl = true ∧
    (let s := sFd 0x8033000000000000 0 {}
     (descOf s 8191 1).pmode = 3 ∧ descCodes s 8191 1 .prologue 0 = [] ∧ ({} : Acc).vl = false ∧
     ((localByte s 8191 0x3FF00).toNat + 129) % 256 ≠ 0 ∧ ((getTile s 8191).cexpOf 3).toNat % 256 = 0) := by decide +kernel
theorem test_cmma_carried :
    codes (run (.cmma 8191 gen1 66 3 false 0 false 1 1 {}) (sFd 0x8033000000000000 0 {})) = [0x1033] ∧
    (getTile (run (.resultReady cLast) (run (.cmma 8191 gen1 66 3 true 0 false 1 1 {}) (sFd 0x8033000000000000 0 {}))) 8191).cexpOf 3 =
      0x8181816281818161 := by decide +kernel

/-- 1.0 × 2.0 + 1.5 × −0.5 = 1.25 in FP32 mode; 0x1_020 where the accumulator's mode is the other. -/
theorem test_cmma :
    let t := run (.resultReady cLast) (run (.cmma 8191 gen1 66 3 true 0 false 0 1 {}) (sCube {} cubeMem))
    (getTile t 8191).accOf 3 |>.at 0 = 0x3FA00000 := by decide +kernel
theorem test_cmma_mode :
    codes (run (.cmma 8191 gen1 66 3 false 0 true 0 1 {}) (sCube {} cubeMem)) = [0x1020] := by decide +kernel

theorem witness_accumulators :
    operandAddr gCube gen1 % 64 = 0 ∧ OpenTo 1 (operandAddr gCube gen1) 64 ∧
    OpenTo 1 (operandAddr gCube gen1) (64 * 4) ∧ gCube.writing = [] ∧
    isReady (sCube {} []) cLast 2 = true ∧ ((gCube.used gen1).after 2).2.1 < 4096 ∧
    pairedEngine (sCube {} []) cLast = none ∧
    (0xFE - 127 + (0xFE - 127) + 1 : Int) = 255 ∧ (0 - 127 + (0 - 127) + -2 : Int) = -256 := by
  unfold OpenTo; decide +kernel

/-- Scale bytes 0xFE, 0xFE and +1 make the anchor 255; +2 is beyond R159's range; 0xFF is NaN. -/
def canchMem (a b c : Byte) : Tbl Byte := [(0x02007FFFFF00, a), (0x02007FFFFF01, b), (0x02007FFFFF02, c)]
theorem test_canchs :
    ((getTile (run (.canchs 8191 gen1 3 {}) (sCube {} (canchMem 0xFE 0xFE 1))) 8191).accOf 3).anchor = 255 ∧
    codes (run (.canchs 8191 gen1 3 {}) (sCube {} (canchMem 0xFE 0xFE 2))) = [0x1021] ∧
    regGet (run (.canchs 8191 gen1 3 {}) (sCube {} (canchMem 0xFF 0 0))) (aCubStatus 8191) = 0x10000 <<< 3 := by decide +kernel
theorem test_csta :
    let t := run (.resultReady cLast) (run (.csta 8191 gen1 3 {}) (sCube { el := [(63, 0x3F800000)] } []))
    localByte t 8191 0x3FFFF = 0x3F ∧ localByte t 8191 0x3FFFE = 0x80 := by decide +kernel
theorem test_clda :
    ((getTile (run (.clda 8191 gen1 3 {}) (sCube {} [(0x02007FFFFFFF, 0x3F)])) 8191).accOf 3).at 63 = 0x3F000000 := by decide +kernel
theorem test_ccvt :
    localByte (run (.resultReady cLast) (run (.ccvt 8191 gen1 3 15 0 {}) (sCube { el := [(63, 0x3F800000)] } []))) 8191 0x3FFFF = 0x3F := by
  decide +kernel

/-- CCVT with descriptor 1: scale and bias streams, or a residual, at generators 3, 4 and 5; row maxima at 6; scale bytes at 7. -/
def gConv : Engine :=
  { phase := .run, ag := [(1, { base := 0x3E000 }), (3, { base := 0x3F000 }), (4, { base := 0x3F100 }), (5, { base := 0x3F200 }),
                          (6, { base := 0x3FF00 }), (7, { base := 0x3FFF8 })] }
def sConv (w0 : Word) : State :=
  let s := setTile State.reset 8191 { eng := [(1, gConv)], acc := [(4, { el := [(0, 0x3F800000)] })] }
  { s with regs := tset 0 s.regs (aCubFdW0 8191 0) w0 }
def bitsAt (l : List (Nat × Nat)) : Word := BitVec.ofNat 64 ((l.map (fun p => p.1 * 2 ^ p.2)).sum)
/-- To MXFP8 E4M3 with scale, bias and running row maxima; to BF16 with a residual. -/
def convRows : List (Word × BitVec 4 × Nat) :=
  [(bitsAt [(1, 63), (2, 46), (3, 42), (1, 41), (4, 35), (1, 25), (1, 24), (6, 21), (7, 18)], 9, 4),
   (bitsAt [(1, 63), (1, 60), (1, 32), (1, 30), (5, 27), (7, 18)], 7, 1)]
def ConvMeets (s : State) (d : Desc) (fmt : BitVec 4) (n : Nat) (outs : List (Int × Nat)) (e : Engine) : Prop :=
  n = (if isMX fmt.toNat = true then 4 else if d.slicek = 2 then 2 else 1) ∧ descCodes s 8191 1 .epilogue fmt.toNat = [] ∧
  (4 : Nat) % n = 0 ∧ isReady s cLast 3 = true ∧ pairedEngine s cLast = none ∧ gConv.xfers = [] ∧
  (operandSteps gen1 ++ d.streams .epilogue fmt.toNat).Nodup ∧ d.keepwide = false ∧ (2 ≤ d.scen → d.sag = 3) ∧
  (d.ben = true → d.bag = 4) ∧ (d.ren = true → d.rag = 5) ∧ (d.rmx ≠ 0 ∧ d.rmw = true → d.mag = 6) ∧ d.qag = 7 ∧
  (∀ p ∈ [(3, 32), (4, 64), (5, 256), (6, 32), (7, 8)], OpenTo 1 (gConv.gen p.1).addr p.2 ∧ (gConv.gen p.1).addr % 8 = 0) ∧
  OpenTo 1 (operandAddr gConv gen1) (8 * n * elemBits fmt.toNat) ∧ operandAddr gConv gen1 % 64 = 0 ∧
  outs.Pairwise (fun p q => p.1 + (p.2 : Int) ≤ q.1 ∨ q.1 + (q.2 : Int) ≤ p.1) ∧ (e.after 3).2.1 < 4096
theorem witness_converts_fused :
    ∀ r ∈ convRows, ConvMeets (sConv r.1) (descOf (sConv r.1) 8191 1) r.2.1 r.2.2
      [(operandAddr gConv gen1, 8 * r.2.2 * elemBits r.2.1.toNat), (0x3FF00, 32), (0x3FFF8, 8)]
      (((descOf (sConv r.1) 8191 1).streams .epilogue r.2.1.toNat).foldl (fun h q => h.used (BitVec.ofNat 8 (64 + q))) (gConv.used gen1)) := by
  unfold ConvMeets OpenTo
  simp only [← and_assoc, forall_and]
  refine ⟨⟨⟨⟨⟨⟨⟨⟨⟨⟨⟨⟨⟨⟨⟨⟨⟨?_, ?_⟩, ?_⟩, ?_⟩, ?_⟩, ?_⟩, ?_⟩, ?_⟩, ?_⟩, ?_⟩, ?_⟩, ?_⟩, ?_⟩, ?_⟩, ?_⟩, ?_⟩, ?_⟩, ?_⟩ <;>
    decide +kernel
/-- The element 1.0 plus no residual is 0x3F80 in BF16, the first two bytes at DST. -/
theorem test_ccvt_residual :
    let t := run (.resultReady cLast) (run (.ccvt 8191 gen1 4 7 1 {}) (sConv (bitsAt [(1, 63), (1, 60), (1, 32), (1, 30), (5, 27), (7, 18)])))
    localByte t 8191 0x3E001 = 0x3F ∧ localByte t 8191 0x3E000 = 0x80 := by decide +kernel

/-- R107, Table 4.2: a header of engine C, one word long, with nothing else; bit 0 is reserved; engine V's does not fit. -/
def sHeader (h : BitVec 32) : State :=
  { withEng ⟨0, 1⟩ { phase := .run } with mem := wrLE [] 0x021000000000 h.toNat 4 }
theorem witness_empty_bundles :
    (∃ h : BitVec 32, bankWord (sHeader h) 0 0 = 1#2 ++ (1#4 : BitVec 4) ++ (0 : BitVec 26) ∧ isReady (sHeader h) ⟨0, 1⟩ 1 = true) ∧
    (∃ h : BitVec 32, bankWord (sHeader h) 0 0 = 1#2 ++ (1#4 : BitVec 4) ++ (1 : BitVec 26)) ∧
    (∃ h : BitVec 32, bankWord (sHeader h) 0 0 = 2#2 ++ (1#4 : BitVec 4) ++ (0 : BitVec 26)) :=
  ⟨⟨0x44000000, by decide +kernel, by decide +kernel⟩, ⟨0x44000001, by decide +kernel⟩, ⟨0x84000000, by decide +kernel⟩⟩
theorem test_empty_bundle :
    (getEng (run (.emptyBundle ⟨0, 1⟩) (sHeader 0x44000000)) ⟨0, 1⟩).pc = 1 ∧
    codes (run (.emptyBundle ⟨0, 1⟩) (sHeader 0x44000001)) = [0x1002] ∧
    codes (run (.emptyBundle ⟨0, 1⟩) (sHeader 0x84000000)) = [0x1003] := by decide +kernel
/-- CFIN with descriptor 1 of eight rows of 32 BF16 values held at 0, to MXFP8 E4M3; scale bytes at generator 2. -/
def gFin : Engine := { phase := .run, ag := [(1, { base := 0 }), (2, { base := 0x3FFF8 })] }
def sFin : State :=
  let s := { setTile State.reset 8191 { eng := [(1, gFin)] } with hold := [(8191 * 0x10000 + 1, 0x40)] }
  { s with regs := tset 0 (tset 0 s.regs (aCubFdW0 8191 0) (0x8000000000000000 + 2 * 2 ^ 18)) (aCubFdW2 8191 0) (32 * 2 ^ 48) }
theorem witness_finish :
    let d := descOf sFin 8191 1
    d.en = true ∧ d.link = 0 ∧ d.nEpi ≤ 2 ∧ d.reserved = false ∧ d.fofmt ≤ 6 ∧ d.flen = 32 ∧ d.fsrc % 64 = 0 ∧ d.qag = 2 ∧
    d.fsrc + 8 * d.flen * 4 ≤ 65536 ∧ operandSteps gen1 ≠ [d.qag] ∧ isReady sFin cLast 3 = true ∧
    pairedEngine sFin cLast = none ∧ OpenTo 1 (operandAddr gFin gen1) (8 * 32 * elemBits d.fofmt / 8) ∧
    operandAddr gFin gen1 % 64 = 0 ∧ OpenTo 1 (gFin.gen 2).addr 8 ∧ (gFin.gen 2).addr % 8 = 0 ∧
    (((gFin.used gen1).used (BitVec.ofNat 8 (64 + d.qag))).after 3).2.1 < 4096 := by
  unfold OpenTo; decide +kernel
/-- The one element 2.0 among zeros: R188 gives the scale 2^(1 − 8), so the element is 256, 0x78 in E4M3. -/
theorem test_cfin :
    let t := run (.resultReady cLast) (run (.cfin 8191 gen1 1 8 {}) sFin)
    localByte t 8191 0x3FFF8 = 120 ∧ localByte t 8191 0 = 0x78 ∧ localByte t 8191 0x3FFF9 = 0 := by decide +kernel

/-! ### Reeds (chapter 08) -/

/-- Reed 511 runs, its ring of 16 entries at the start of tile 0's store, one entry posted. -/
def sReed (w : List Word) : State :=
  let s := rset (rset (rset (rset State.reset (aReedRing 511) 51 48 4) (aReedRing 511) 47 6 0x0800000000)
    (aReedTail 511) 15 0 1) (aReedStatus 511) 63 60 1
  { s with mem := wrBytes [] 0x020000000000 (w.flatMap wordLE) }
/-- W0 of a SIGNAL of 255 to sem15 of tile 8191, TAG 7. -/
def reedW0 (op : Nat) : Word := BitVec.ofNat 64 (op * 2 ^ 60 + 8191 * 2 ^ 35 + 15 * 2 ^ 31 + 255 * 2 ^ 23 + 7)

theorem witness_reed_ring :
    HostServed State.reset ∧ reedOn State.reset 511 = true ∧ reedState State.reset 511 = 0 ∧
    reedHead State.reset 511 = reedTail State.reset 511 ∧ fld (0x0004000000000000 : Word) 51 48 = 4 ∧
    fld (0x000D000000000000 : Word) 51 48 = 13 :=
  ⟨⟨by decide, by decide⟩, by decide +kernel, by decide, by decide, by decide, by decide⟩
theorem test_reed_ring :
    (run (.reedRingWrite .host 511 0x000C020000000000) State.reset).reply.1 = 0 ∧
    codes (run (.reedRingWrite .host 511 0x000D020000000000) State.reset) = [0x2043] ∧
    reedState (run (.reedTailWrite .host 511 16) (run (.reedRingWrite .host 511 0x0004020000000000) State.reset)) 511 = 1 ∧
    codes (run (.reedTailWrite .host 511 17) (run (.reedRingWrite .host 511 0x0004020000000000) State.reset)) = [0x2043] ∧
    codes (run (.reedTailWrite .host 511 0) (rset State.reset (aReedStatus 511) 63 60 5)) = [0x2047] := by decide +kernel
theorem test_reed_abort :
    reedState (run (.reedAbort .host 511) (sReed [])) 511 = 4 ∧ reedHead (run (.reedAbort .host 511) (sReed [])) 511 = 1 := by
  decide +kernel

/-- A running Reed with one block of 1,024 bytes for the end of tile 8191's store, and a command that owes it. -/
def sBlock (a : Nat) (d : List Byte) : State :=
  setReed (sReed []) 511
    { blocks := [{ addr := a, data := d }], toks := [⟨1, 8191, 15, 255, 7⟩, ⟨0, 0, 0, 1, 8⟩] }
theorem witness_reed_delivery :
    let s := sBlock 0x02007FFFFC00 (List.replicate 1024 0x5A)
    reedOn s 511 = true ∧ reedState s 511 = 1 ∧ Awake s 8191 ∧ TakesTokens s 8191 ∧
    (List.replicate 1024 (0x5A : Byte)).length = 1024 ∧ 0x3FC00 + 1024 ≤ 0x40000 ∧
    0x02007FFFFC00 = 0x020000000000 + 8191 * 0x40000 + 0x3FC00 :=
  ⟨by decide +kernel, by decide +kernel, ⟨by decide, by decide, by decide⟩, ⟨by decide, by decide, by decide⟩, by decide +kernel,
    by decide, by decide⟩
theorem test_reed_delivery :
    let t := run (.reedBlockDelivery 511) (sBlock 0x02007FFFFFFE [0, 0x5A])
    localByte t 8191 0x3FFFF = 0x5A ∧ (getReed t 511).toks.map (fun x => x.left) = [0, 0] ∧
    (getTile (run (.reedToken 511) t) 8191).semVal 15 = 255 := by decide +kernel

/-- R225: the last token of a Reed with an empty ring returns it to IDLE; one whose ring holds an entry runs on. -/
def sLastToken (tail : Nat) : State :=
  setReed (rset (rset State.reset (aReedStatus 511) 63 60 1) (aReedTail 511) 15 0 tail) 511 { toks := [⟨0, 8191, 15, 255, 7⟩] }
theorem witness_last_token :
    ∀ tail ∈ [0, 1], reedOn (sLastToken tail) 511 = true ∧ reedState (sLastToken tail) 511 = 1 ∧ tileCode (sLastToken tail) 8191 = 0 ∧
      (getTile (sLastToken tail) 8191).semVal 15 + 255 ≤ 65535 := by decide +kernel
theorem test_last_token :
    reedState (run (.reedToken 511) (sLastToken 0)) 511 = 0 ∧ reedState (run (.reedToken 511) (sLastToken 1)) 511 = 1 := by
  decide +kernel

theorem witness_reed_commands :
    (let s := sReed [reedW0 3, 0, 0, 0]
     reedOn s 511 = true ∧ reedState s 511 = 1 ∧ reedHead s 511 ≠ reedTail s 511 ∧ (getReed s 511).bad = none ∧
     heldBack s (memSpan (rf s (aReedRing 511) 47 6 * 64 + reedHead s 511 % 2 ^ rf s (aReedRing 511) 51 48 * 32) 32) = false ∧
     memRead s (.reed (BitVec.ofNat 9 511))
       (rf s (aReedRing 511) 47 6 * 64 + reedHead s 511 % 2 ^ rf s (aReedRing 511) 51 48 * 32) 32 =
       ([reedW0 3, 0, 0, 0].flatMap wordLE, 0, s)) ∧
    (fld (reedW0 3) 63 60 = 3 ∧ fld (reedW0 3) 59 48 = 0 ∧ fld (reedW0 3) 22 16 = 0) ∧ fld (reedW0 4) 63 60 = 4 := by
  decide +kernel
/-- VLOAD of the last 64 bytes of the vector store from address 0 of HBM. -/
theorem witness_vload :
    let s := { sReed [] with regs := tset 0 (sReed []).regs (aHbmRgnCtrl 0) 0x8000000000000000 }
    fld (BitVec.ofNat 64 (64 * 2 ^ 32 + 131008)) 16 0 + 64 ≤ 131072 ∧
    (let z := memRead (reedTake s 511 7) (.reed 511) 0 64
     z.1 = List.replicate 64 0 ∧ z.2.1 = 0 ∧ z.2.2.regs = (reedTake s 511 7).regs) := by decide +kernel
/-- The same bytes from the last 64 of tile 8191's store: no wait of a channel holds the command back. -/
theorem witness_vload_store :
    let s := sReed []
    0x02007FFFFFC0 = 0x020000000000 + 8191 * 0x40000 + (0x40000 - 64) ∧ heldBack s (memSpan 0x02007FFFFFC0 64) = false ∧
    heldBack s (memSpan 0 64) = false ∧
    (let z := memRead (reedTake s 511 7) (.reed 511) 0x02007FFFFFC0 64
     z.1 = List.replicate 64 0 ∧ z.2.1 = 0 ∧ z.2.2.regs = (reedTake s 511 7).regs) := by decide +kernel
theorem test_reed_commands :
    (getReed (run (.reedSignal 511) (sReed [reedW0 3, 0, 0, 0])) 511).toks = [⟨0, 8191, 15, 255, 7⟩] ∧
    codes (run (.vload 511) (sReed [reedW0 4, 0, 0, 0])) = [0x2040] ∧
    codes (run (.reedSignal 511) (sReed [reedW0 1, 0, 0, 0])) = [] := by decide +kernel
theorem test_vload :
    (getReed (run (.vload 511) { sReed [reedW0 1, 0, BitVec.ofNat 64 (64 * 2 ^ 32 + 131008), 0] with dev := [(63, 9)] }) 511).store =
      [(131071, 9)] := by decide +kernel

theorem test_vload_store :
    (getReed (run (.vload 511) { sReed [reedW0 1, 0x02007FFFFFC0, BitVec.ofNat 64 (64 * 2 ^ 32 + 131008), 0] with
      mem := wrBytes (wrBytes [] 0x020000000000 ([reedW0 1, 0x02007FFFFFC0, BitVec.ofNat 64 (64 * 2 ^ 32 + 131008), 0].flatMap wordLE))
        0x02007FFFFFFF [9] }) 511).store = [(131071, 9)] := by decide +kernel

/-- MV of one row of eight FP8 E4M3 weights and one vector of FP8: an AFFINE region of stack 0 in blocks of 64 bytes puts
    row 0 on channel 0. -/
def mvWords : List Word :=
  [BitVec.ofNat 64 (2 * 2 ^ 60 + 8191 * 2 ^ 35 + 15 * 2 ^ 31 + 1 * 2 ^ 23 + 7), BitVec.ofNat 64 (1 * 2 ^ 48),
   BitVec.ofNat 64 (8 * 2 ^ 25 + 1), BitVec.ofNat 64 (8191 * 2 ^ 51)]
def sMv : State :=
  let s := { rset (rset (rset (rset State.reset (aReedRing 0) 51 48 4) (aReedRing 0) 47 6 0x0800000000)
      (aReedTail 0) 15 0 1) (aReedStatus 0) 63 60 1 with mem := wrBytes [] 0x020000000000 (mvWords.flatMap wordLE) }
  setReed { s with regs := tset 0 s.regs (aHbmRgnCtrl 0) (BitVec.ofNat 64 (2 ^ 63 + 2 ^ 62 + 2 ^ 48 + 4))
                   dev := [(0, 0x40), (1, 0x38)] } 0 { store := [(0, 0x38), (1, 0xB8)] }
theorem witness_mv :
    let k := mvWords.getD 2 0
    let took := reedTake sMv 0 7
    reedOn sMv 0 = true ∧ reedState sMv 0 = 1 ∧ reedHead sMv 0 ≠ reedTail sMv 0 ∧ fld k 63 60 = 0 ∧ fld k 59 56 = 0 ∧
    fld k 39 25 = 8 ∧ (8 * elemBits 0 + 511) / 512 * 64 ≤ fld k 15 0 * 64 ∧
    (∃ g p, place sMv 0 = some (g, p) ∧ rgnAffine sMv g = true ∧ p.chan = 0) ∧
    (let z := hbmRead took 0 64 false 1
     z.1 = [0x40, 0x38] ++ List.replicate 62 0 ∧ z.2.1 = 0 ∧ z.2.2.regs = took.regs) := by
  refine ⟨by decide +kernel, by decide +kernel, by decide +kernel, by decide +kernel, by decide +kernel, by decide +kernel,
    by decide +kernel, ⟨0, ⟨0, 0, 0⟩, by decide +kernel, by decide +kernel, rfl⟩, by decide +kernel⟩
/-- 2.0 × 1.0 + 1.0 × −1.0 = 1: in units of 2^-18, bit 18 of the first word of the block. -/
theorem test_mv :
    let t := run (.mv 0) sMv
    (((getReed t 0).blocks.map (fun b => (b.addr, b.data.take 16))) =
      [(0x02007FFC0000, [0, 0, 4, 0] ++ List.replicate 12 0)]) ∧ reedState t 0 = 1 := by decide +kernel

/-! ### HBM (chapter 09) -/

/-- The last granule of HBM, and the first byte beyond the map when region 0 is off. -/
def lastGran : Nat := 0x8FFFFFFFC0
def sNoRgn : State := rset State.reset (aHbmRgnCtrl 0) 63 63 0
theorem witness_memory_access :
    (∃ n p, place State.reset lastGran = some (n, p) ∧ chanCode State.reset p.chan = 0 ∧ p.key ∉ State.reset.bad) ∧
    State.reset.closing = [] ∧ lastGran % 64 + 64 = 64 ∧ lastGran + 64 = 0x9000000000 ∧ place sNoRgn lastGran = none :=
  ⟨⟨0, spotIn State.reset 0 lastGran, by decide +kernel, by decide +kernel, by decide +kernel⟩, by decide, by decide, by decide, by decide +kernel⟩
theorem test_hbm :
    let t := run (.hbmWrite .host (BitVec.ofNat 48 (lastGran + 62)) [1, 2]) State.reset
    (run (.hbmRead .host (BitVec.ofNat 48 (lastGran + 61)) 3 0) t).reply = (0, [0, 1, 2]) ∧
    codes (run (.hbmRead .host (BitVec.ofNat 48 lastGran) 1 0) sNoRgn) = [0x2050] := by decide +kernel

/-- A write-combining entry of channel 0 that holds bytes 0 and 63 of granule 0. -/
def sWc : State := setChan State.reset 0 { getChan State.reset 0 with wc := [⟨0, 0x8000000000000001, 0x11 ||| (0x22 <<< 504)⟩] }
theorem witness_drain :
    (∃ e, findWc sWc 0 0 = some e ∧ e.gran = 0) ∧ (∃ p, placeHeld sWc 0 = some p ∧ p.key ∉ sWc.bad ∧ chState sWc p.chan ≠ 2) ∧
    chState sWc 0 ≠ 1 ∧ Unwaited State.reset 0 ∧ chState (rset sWc (aHbmChStatus 0) 63 60 1) 0 = 1 ∧
    (∃ n p, place State.reset 0 = some (n, p) ∧ chanCode State.reset p.chan = 0 ∧ p.key ∉ State.reset.bad ∧
      rgnCacheSite State.reset n = false ∧ findLine State.reset (homeDie p.chan) 0 = none ∧ findWc State.reset p.chan 0 = none) :=
  ⟨⟨_, rfl, rfl⟩, ⟨⟨0, 0, 0⟩, by decide +kernel, by decide, by decide +kernel⟩, by decide +kernel, by unfold Unwaited; decide,
    by decide +kernel,
    ⟨0, ⟨0, 0, 0⟩, by decide +kernel, by decide +kernel, by decide, by decide +kernel, by decide +kernel, by decide +kernel⟩⟩
theorem test_drain_record :
    (run (.wcDrain 0 0) sWc).dev = [(0, 0x11), (63, 0x22)] ∧
    (run (.atomicRecord .host 0x1000000000000000 7 0 0) { State.reset with dev := [(0, 0xFE)] }).dev = [(0, 5), (1, 1)] ∧
    (run (.atomicRecord .host 0x4000000000000000 7 0 0) State.reset).reply.1 = 0x2052 := by decide +kernel

/-- Two ready heads: class 1 has the higher priority, class 4 the lower one. -/
def sArb (x y : ArbReq) : State := setArb State.reset 1023 { q := [(1, [x]), (4, [y])] }
def reqPrio (p : Nat) : ArbReq := { prio := p, bursts := 2, lost := 0 }
theorem witness_arbiter :
    let a := getArb (sArb (reqPrio 3) (reqPrio 15)) 1023
    a.refresh = 0 ∧ a.debug = 0 ∧ a.cur = none ∧ a.of 4 = [reqPrio 15] ∧ (0x12 : BitVec 5).getLsbD 4 = true ∧
    ((0x12 : BitVec 5).getLsbD 1 = true ∧ (a.of 1).head? = some (reqPrio 3) ∧ (reqPrio 3).prio < (reqPrio 15).prio) ∧
    (∀ d, d < 5 → d ≠ 4 → d ≠ 1 → a.of d = []) := by decide
theorem test_arbiter :
    let t := run (.arbiterRound 1023 0x12) (sArb (reqPrio 3) (reqPrio 15))
    (getArb t 1023).grants = [(4, 2)] ∧ ((getArb t 1023).of 1).map (fun r => r.prio) = [4] ∧
    (getArb (run (.refreshDue 1023) State.reset) 1023).refresh = 1 := by decide

/-- Channel 511 in UP, with a retraining wanted; in TRAINING; four channels of stack 15 hot beside it; stack 15's last channel
    excluded. -/
def sChan (st : Nat) : State := setChan (rset State.reset (aHbmChStatus 511) 63 60 st) 511 { getChan State.reset 511 with wait := true }
def sHot (n : Nat) : State := (List.range n).foldl (fun s k => rsetb s (aHbmChCtrl (480 + k)) 1 true) State.reset
theorem witness_channels :
    HostServed State.reset ∧ (∀ d < 8, dieIsolated State.reset d = false) ∧
    ((List.range 32).filter (fun k => 480 + k ≠ 511 ∧ rbit (sHot 3) (aHbmChCtrl (480 + k)) 1 = true)).length = 3 ∧
    ((List.range 32).filter (fun k => 480 + k ≠ 511 ∧ rbit (sHot 4) (aHbmChCtrl (480 + k)) 1 = true)).length = 4 ∧
    ((getChan (sChan 0) 511).wait = true ∧ (∀ k < 32, chState (sChan 0) (480 + k) ≠ 1) ∧ chState (sChan 0) 511 = 0) ∧
    chState (sChan 1) 511 = 1 ∧ (∀ k, k < 32 → (getChan State.reset k).step ≤ 3) ∧
    rbit (run (.flush .host 7) State.reset) (aHbmScStatus 7) 63 = true ∧
    linesOf (run (.flush .host 7) State.reset) 7 = [] ∧ (sChan 1).waits = [] ∧ 1152 ≤ rf State.reset aHbmCap 19 0 ∧
    rbit State.reset (aHbmExcl 15) 5 = false ∧
    (∃ n < 16, rgnLive State.reset n = true ∧ ctrlUsesStack (regGet State.reset (aHbmRgnCtrl n)) 15 = true) ∧
    (∀ n < 16, rgnLive sNoRgn n = false) := by
  refine ⟨⟨by decide, by decide⟩, by decide +kernel, by decide +kernel, by decide +kernel, by decide +kernel, by decide +kernel,
    by decide +kernel, by decide +kernel, by decide +kernel, by decide +kernel, by decide +kernel, by decide, ⟨0, by decide +kernel⟩, by decide +kernel⟩
theorem test_channels :
    codes (run (.channelPolicyWrite .host 511 2) (sHot 4)) = [0x2055] ∧ codes (run (.channelPolicyWrite .host 511 2) (sHot 3)) = [] ∧
    codes (run (.retrainingStart 511) (sChan 0)) = [0x2062] ∧ codes (run (.retrainingEnd 511 90) (sChan 1)) = [0x2063] ∧
    codes (run (.retrainingFailure 511) (sChan 1)) = [0x2064] ∧
    rf (run (.stackTemperatureReading 15 96) State.reset) (aHbmChStatus 511) 51 50 = 3 := by decide +kernel
theorem test_exclusion :
    codes (run (.hbmExclWrite .host 15 0x3F) sNoRgn) = [0x2066] ∧ chState (run (.hbmExclWrite .host 15 0x3F) sNoRgn) 511 = 3 ∧
    codes (run (.hbmExclWrite .host 15 0x3F) State.reset) = [0x2054] := by decide +kernel

/-- Region 15 alone in the map: 8 MiB at the end of HBM. -/
def sRgn : State :=
  { sNoRgn with regs := tset 0 (tset 0 sNoRgn.regs (aHbmRgnBase 15) 0x8FFF800000) (aHbmRgnSize 15) 0x800000 }
theorem witness_regions :
    (∀ m < 16, rbit sRgn (aHbmRgnCtrl m) 63 = false ∧ isClosing sRgn m = false) ∧
    rf sRgn (aHbmRgnBase 15) 39 6 * 64 + rf sRgn (aHbmRgnSize 15) 39 6 * 64 = 0x9000000000 ∧
    rf sRgn (aHbmRgnSize 15) 39 6 * 64 % 0x40000 = 0 ∧
    rf sRgn (aHbmRgnDev 15) 21 0 * 256 + 256 * ((0x800000 + 8192 * 31 - 1) / (8192 * 31)) ≤ 0x24000000 ∧
    fld (0x8800000000000000 : Word) 60 59 = 1 ∧ rbit State.reset (aHbmRgnCtrl 0) 63 = true := by decide +kernel
theorem test_regions :
    (run (.regionEnable .host 15 0x8800000000000000) sRgn).reply.1 = 0 ∧
    codes (run (.regionEnable .host 15 0x8800000000000000) State.reset) = [0x2051] ∧
    isClosing (run (.regionDisable .host 0 0) State.reset) 0 = true := by decide +kernel
theorem witness_region_closes :
    let s := run (.regionDisable .host 0 0) State.reset
    isClosing s 0 = true ∧ twf {} s.chan = true ∧ (∀ c < 512, chState s c ≠ 1) ∧ rbit s (aHbmRgnCtrl 0) 63 = false ∧
    s.waits = [] := by
  decide +kernel


/-- The worked job's step 10 (spec file 18): region 1 of 52 × 128 blocks of 700,928 B on H8 to H11 is enabled. -/
def sRgnJob : State :=
  { sNoRgn with regs := tset 0 (tset 0 (tset 0 sNoRgn.regs (aHbmRgnBase 1) 0x008000000000) (aHbmRgnSize 1) 0x116140000) (aHbmRgnDev 1) 0x200000 }
theorem witness_affine_region :
    let v : Word := 0xC004800000002AC8
    bit v 62 = true ∧ fld v 60 59 ≠ 3 ∧ fld v 23 0 ≠ 0 ∧ fld v 52 48 = 4 ∧ fld v 47 44 = 8 ∧
    rf sRgnJob (aHbmRgnSize 1) 39 6 * 64 % (fld v 23 0 * 64 * (4 * 32)) = 0 ∧
    (∀ k < 4, rbit sRgnJob (aHbmExcl (8 + k)) 5 = false) ∧
    rf sRgnJob (aHbmRgnDev 1) 21 0 * 256 + 256 * ((rf sRgnJob (aHbmRgnSize 1) 39 6 * 64 + 128 * 512 - 1) / (128 * 512)) ≤ 0x24000000 := by
  decide +kernel
theorem test_affine_region :
    (run (.regionEnable .host 1 0xC004800000002AC8) sRgnJob).reply.1 = 0 ∧
    codes (run (.regionEnable .host 1 0xC00480000000237C) sRgnJob) = [0x2051] := by decide +kernel

/-- A refresh due; a channel that retrains; a channel with THR 3 one slot into its four. -/
def sThr (slot : Nat) : State :=
  rset (setArb State.reset 1023 { q := [(1, [reqPrio 3])], slot := slot }) (aHbmChStatus 511) 51 50 3
theorem witness_arbiter_waits :
    (getArb (run (.refreshDue 1023) State.reset) 1023).refresh ≠ 0 ∧
    ((getArb (sThr 1) 1023).refresh = 0 ∧ (getArb (sThr 1) 1023).debug = 0 ∧ (getArb (sThr 1) 1023).cur = none ∧
      rf (sThr 1) (aHbmChStatus 511) 51 50 = 3) ∧ chState (sChan 1) 511 = 1 ∧ (sChan 1).waits = [] := by decide +kernel
/-- R265: THR 3 lets one of every 4 slots through. -/
theorem test_throttled_slots :
    (getArb (run (.arbiterRound 1023 2) (sThr 1)) 1023).grants = [] ∧
    (getArb (run (.arbiterRound 1023 2) (sThr 0)) 1023).grants = [(1, 2)] := by decide +kernel

/-- The channel of HBM's last granule retrains: a request to it waits, and is served once the retraining ends (R268). -/
def sRetrains : State := rset State.reset (aHbmChStatus (spotIn State.reset 0 lastGran).chan) 63 60 1
theorem witness_retrains :
    place sRetrains lastGran = some (0, spotIn State.reset 0 lastGran) ∧ chState sRetrains (spotIn State.reset 0 lastGran).chan = 1 := by
  decide +kernel
theorem test_retrains :
    let t := run (.hbmRead .host (BitVec.ofNat 48 lastGran) 1 0) sRetrains
    t.reply = State.reset.reply ∧ t.waits.length = 1 ∧
    (run (.retrainingEnd (BitVec.ofNat 9 (spotIn State.reset 0 lastGran).chan) 90) t).reply = (0, [0]) := by decide +kernel
/-! ### Tenon (chapter 10) -/

/-- A message from die `d` to itself, of the host's (unit 1) with TAG 9. -/
def tmsg (d opc addr : Nat) (body : List Byte) (aux : Nat := 0) (len : Nat := body.length) : TMsg :=
  { head := tmHead d d opc 1 9 len addr 0 + BitVec.ofNat 192 aux, body := body }
def storeTop : Nat := 0x020000000000 + 8191 * 0x40000 + 0x3FFF8

theorem landed_reset (m : TMsg) : landed State.reset m = State.reset := rfl
theorem witness_tenon_messages :
    (let m := tmsg 7 1 storeTop [] 0 8
     tmOpc m = 1 ∧ tmDdie m = 7 ∧ dieIsolated State.reset 7 = false ∧ tmLen m = 8 ∧ tmAddr m = storeTop ∧ Awake State.reset 8191) ∧
    (let m := tmsg 7 3 0 (List.replicate 32 0)
     tmOpc m = 3 ∧ tmAddr m % 32 = 0 ∧ m.body.length % 32 = 0 ∧
     (performRecord State.reset 0x1000000000000000 7 0 0).1 = 0) ∧
    (let m := tmsg 7 4 (0x030004000000 + 8191 * 0x1000 + 0x820) (List.replicate 32 0xFF)
     highestRefusal State.reset 8191 1 (wordAt m.body 0) = 8) ∧
    (let m := tmsg 7 5 0 [] (8191 * 2 ^ 51 + 15 * 2 ^ 47 + 255 * 2 ^ 39)
     tmOpc m = 5 ∧ tmFld m 63 51 = 8191 ∧ tmFld m 50 47 = 15 ∧ tmFld m 46 39 = 255 ∧ TakesTokens State.reset 8191) ∧
    (let m := tmsg 7 0x40 aTenModstat []
     areaOf (tmAddr m) 8 = some .ctl ∧ (ctlRead State.reset (tmReq State.reset m) (tmAddr m)).2 = (0, State.reset)) ∧
    576 < tmLen (tmsg 7 2 storeTop [] 0 577) := by
  refine ⟨⟨by decide, by decide, by decide, by decide, by decide, ⟨by decide, by decide, by decide⟩⟩, by decide +kernel,
    by decide +kernel, ⟨by decide, by decide, by decide, by decide, ⟨by decide, by decide, by decide⟩⟩, by decide +kernel, by decide⟩

def got (s : State) : List (Nat × Nat × Nat × List Byte) :=
  s.ten.got.map (fun m => (tmOpc m, tmTag m, tmStatus m, m.body))

theorem test_tenon_rd_wr :
    let s := run (.tenonWr (tmsg 7 2 (storeTop + 6) [1, 2])) State.reset
    localByte s 8191 0x3FFFF = 2 ∧ got s = [(0x12, 9, 0, [])] ∧
    got (run (.tenonRd (tmsg 7 1 storeTop [] 0 8)) { s with ten := {} }) = [(0x11, 9, 0, [0, 0, 0, 0, 0, 0, 1, 2])] := by
  decide +kernel
theorem test_tenon_atom :
    let rec_ := wordsLE [0x1000000000000000, 7, 0, 0]
    (run (.tenonAtom (tmsg 7 3 0 rec_)) State.reset).dev = [(0, 7)] ∧
    got (run (.tenonAtom (tmsg 7 3 0 (rec_ ++ [0]))) State.reset) = [(0x12, 9, 0x2052, [])] := by decide +kernel
theorem test_tenon_push :
    got (run (.tenonPush (tmsg 7 4 (0x030004000000 + 8191 * 0x1000 + 0x820) (List.replicate 32 0xFF))) State.reset) =
      [(0x12, 9, 8, [])] := by decide +kernel
theorem test_tenon_token :
    (getTile (run (.tenonToken (tmsg 7 5 0 [] (8191 * 2 ^ 51 + 15 * 2 ^ 47 + 255 * 2 ^ 39))) State.reset) 8191).semVal 15 = 255 := by
  decide +kernel
theorem test_tenon_answers :
    let q := tmsg 7 1 storeTop [] 0 8
    let s := { State.reset with ten := { open_ := [q] } }
    (run (.tenonRdrsp (tmsg 7 0x11 0 [1])) s).ten.open_ = [] ∧ (run (.tenonWrack (tmsg 7 0x12 0 [])) s).ten.open_ = [q] ∧
    run (.tenonRdrsp (tmsg 7 0x11 0 [1])) State.reset = State.reset := by decide +kernel
theorem test_tenon_control :
    got (run (.tenonCrd (tmsg 7 0x40 aHbmCap [])) State.reset) = [(0x11, 9, 0, wordLE 0x90000)] ∧
    rf (run (.tenonCwr (tmsg 7 0x41 (aHbmRgnDev 15) (wordLE 5))) State.reset) (aHbmRgnDev 15) 21 0 = 5 := by decide +kernel
theorem test_tenon_long :
    (run (.tenonWr (tmsg 7 2 storeTop [] 0 577)) State.reset).rep.raised.map (fun r => r.code.toNat) = [0x3011] := by decide +kernel

/-- Link 0 in FULL with every lane in use; die C0 sends by its port to C1. -/
def sLink : State :=
  let s := rset (rset State.reset (aTenLinkStatus 0) 63 60 3) (aTenLinkStatus 0) 43 28 0xFFFF
  let (a, ap, b, _) := endsOf 0
  { s with route := [(a * 256 + b * 16 + a, ap + 1)], ten := { old := [a] } }
def linkEnd : LinkEnd := ⟨BitVec.ofNat 4 (endsOf 0).1, BitVec.ofNat 2 (endsOf 0).2.1⟩
/-- A token of the host's from end A's die to end B's die. -/
def linkMsg : TMsg := { head := tmHead (endsOf 0).2.2.1 (endsOf 0).1 5 1 9 0 0 0 }

theorem witness_tenon_send :
    let d := linkEnd.die.toNat
    let p := linkEnd.port.toNat
    linkAt d p = some 0 ∧ linkState sLink 0 = 3 ∧ linkInUse sLink 0 = 0xFFFF ∧ mayMessage sLink d linkMsg = true ∧
    tget 0 sLink.route (tmSdie linkMsg * 256 + tmDdie linkMsg * 16 + d) = p + 1 ∧ sLink.ten.old.contains d = true ∧
    (∀ i < 16, (laneOf sLink d p i).queue = []) ∧ (getEnd sLink (d * 4 + p)).wait = [] ∧ (getEnd sLink (d * 4 + p)).owe = [] ∧
    linkUp sLink 0 = true ∧ (linkInUse sLink 0).testBit 15 = true ∧ (laneOf sLink d p 15).retest = false := by decide +kernel
theorem test_tenon_send :
    let s := run (.tenonMessageSend linkEnd linkMsg) sLink
    let y := laneOf s linkEnd.die.toNat linkEnd.port.toNat (fullLane linkMsg)
    y.txSeq = 1 ∧ y.replay.map flitSeq = [1] := by decide +kernel

/-- A WRACK on the route of `linkMsg`, and states in which that route is held. -/
def olderMsg : TMsg := { head := tmHead (endsOf 0).2.2.1 (endsOf 0).1 0x12 1 9 0 0 0 }
def sKept (us : List (TMsg × Nat)) (ms : List TMsg) : State :=
  { sLink with ten := { sLink.ten with moved := [routeKey linkMsg], under := us, stay := ms } }
theorem witness_tenon_held :
    routeHeld sLink linkEnd.die.toNat linkMsg = false ∧ routeHeld (sKept [] []) linkEnd.die.toNat linkMsg = true ∧
    mayMessage (sKept [] []) linkEnd.die.toNat linkMsg = true ∧ routeKey olderMsg = routeKey linkMsg ∧
    TakesMessage (sKept [(olderMsg, 0)] []) olderMsg 0x12 ∧ (sKept [] []).ten.open_ = [] ∧
    (let s := { sLink with ten := { old := [8], under := [(linkMsg, 0)] } }
     fencedWaits s 8 = [] ∧ dieIsolated s 8 = false ∧ linkEnd.die.toNat = 8 ∧ onWay s (routeKey linkMsg) = true ∧
     routeMoved s 8 (tmDdie linkMsg) = true) := by
  refine ⟨by decide +kernel, by decide +kernel, by decide +kernel, by decide +kernel, ⟨?_, ?_, ?_, ?_⟩, rfl, by decide +kernel⟩ <;>
    decide +kernel
theorem test_tenon_held :
    (run (.tenonMessageSend linkEnd linkMsg) (sKept [(olderMsg, 0)] [])).ten.stay = [linkMsg] ∧
    (let s := run (.tenonWrack olderMsg) (sKept [(olderMsg, 0)] [linkMsg])
     s.ten.moved = [] ∧ s.ten.stay = [] ∧ s.ten.under = [(linkMsg, 0)]) ∧
    (run (.tenonWrack olderMsg) (sKept [(olderMsg, 0), (linkMsg, 0)] [])).ten.moved = [routeKey linkMsg] ∧
    (run (.routesInForce 8) { sLink with ten := { old := [8], under := [(linkMsg, 0)] } }).ten.moved = [routeKey linkMsg] ∧
    (run (.routesInForce 8) { sLink with ten := { old := [8] } }).ten.moved = [] := by decide +kernel

/-- A message of two flits, as the other end sends it on lane 15, its second flit bad or good. -/
def longMsg : TMsg := { head := tmHead (endsOf 0).1 (endsOf 0).2.2.1 2 1 9 8 storeTop 0, body := wordLE 7 }
def flitAt (seq i : Nat) : BitVec 256 :=
  let f := (msgFlits longMsg).getD i (0, 0, 0, false)
  mkFlit seq 0 f.2.1.toNat f.2.2.1.toNat false 0 0 f.1
theorem witness_tenon_flits :
    let s := run (.tenonFlitReceive linkEnd 15 (flitAt 1 0)) sLink
    let z := laneOf s linkEnd.die.toNat linkEnd.port.toNat 15
    z.part ≠ [] ∧ flitKind (flitAt 2 1) = 2 ∧ (flitAt 2 1).getLsbD 218 = false ∧ flitSeq (flitAt 2 1) = (z.rxSeq + 1).toNat ∧
    crc16 ((flitAt 2 1).toNat % 2 ^ 240) = (flitAt 2 1).toNat / 2 ^ 240 ∧
    crc16 ((flitAt 2 1 ^^^ 1).toNat % 2 ^ 240) ≠ (flitAt 2 1 ^^^ 1).toNat / 2 ^ 240 := by decide +kernel
theorem test_tenon_flits :
    let s := run (.tenonFlitReceive linkEnd 15 (flitAt 1 0)) sLink
    let at_ (t : State) := laneOf t linkEnd.die.toNat linkEnd.port.toNat 15
    (at_ (run (.tenonFlitReceive linkEnd 15 (flitAt 2 1 ^^^ 1)) s)).nak = true ∧
    (at_ (run (.tenonFlitReceive linkEnd 15 (flitAt 2 1)) s)).rxSeq = 2 := by decide +kernel
theorem test_tenon_nak :
    let s := run (.tenonMessageSend linkEnd linkMsg) sLink
    let k := BitVec.ofNat 4 (fullLane linkMsg)
    (laneOf (run (.tenonNak linkEnd k 1) s) linkEnd.die.toNat linkEnd.port.toNat k.toNat).replay = [] ∧
    (laneOf (run (.tenonNak linkEnd k 0) s) linkEnd.die.toNat linkEnd.port.toNat k.toNat).replay.length = 1 := by decide +kernel

/-- Link 0 retraining. -/
def sRetrain : State := rset State.reset (aTenLinkStatus 0) 63 60 5
theorem witness_tenon_lanes :
    (linkUp sLink 0 = true ∧ (linkInUse sLink 0).testBit 15 = true) ∧ ¬(linkUp State.reset 0 = true) ∧
    (let s := run (.laneRetest 0 15) sLink
     linkUp s 0 = true ∧ retesting s 0 15 = true ∧ twf [] s.ten.bad = true) ∧
    (linkState sRetrain 0 = 5 ∧ 8 ≤ (wholeLanes sRetrain 0).length) ∧
    (∀ d < 12, dieIsolated State.reset d = false) := by decide +kernel
theorem test_tenon_lanes :
    run (.laneRetest 0 15) State.reset = State.reset ∧
    retesting (run (.laneRetestComplete 0 15 []) (run (.laneRetest 0 15) sLink)) 0 15 = false ∧
    linkState (run (.linkRetrainComplete 0) sRetrain) 0 = 4 ∧ codes (run (.linkRetrainComplete 0) sRetrain) = [0x3003] := by
  decide +kernel
/-- Die C7 isolated, in DRESET, and at each step of re-admission. -/
def sDie (st : Nat) (reset : Bool) (step : Nat) : State :=
  let s := rsetb (rset State.reset (aTenDieStatus 7) 63 60 st) (aTenDieCtrl 7) 0 reset
  { rsetb s (aTenDieStatus 7) 52 (step ≠ 0) with ten := { step := if step = 0 then [] else [(7, step)] } }
theorem witness_readmission :
    HostServed (sDie 1 false 0) ∧ (7 : Nat) ≠ 8 ∧
    (∀ st < 6, rbit (sDie st false 0) (aTenDieStatus 7) 52 = false ∧ rf (sDie st false 0) (aTenDieStatus 7) 63 60 = st) ∧
    rbit (sDie 2 true 0) (aTenDieCtrl 7) 0 = true ∧ (∀ k ∈ [2, 3, 4, 5], tget 0 (sDie k false k).ten.step 7 = k) := by
  refine ⟨⟨by decide, by decide⟩, by decide, by decide +kernel, by decide +kernel, by decide +kernel⟩
def dieSt (s : State) : Nat × Nat × List Nat :=
  (rf s (aTenDieStatus 7) 63 60, (rbit s (aTenDieStatus 7) 52).toNat, codes s)
theorem test_readmission_writes :
    dieSt (run (.dresetSet .host 7) (sDie 1 false 0)) = (2, 0, []) ∧ dieSt (run (.dresetClear .host 7) (sDie 2 true 0)) = (2, 1, []) ∧
    dieSt (run (.test .host 7) (sDie 3 false 0)) = (3, 1, []) ∧ dieSt (run (.train .host 7) (sDie 4 false 0)) = (4, 1, []) ∧
    dieSt (run (.admitOp .host 7) (sDie 5 false 0)) = (5, 1, []) ∧ dieSt (run (.test .host 7) (sDie 4 false 0)) = (4, 0, [0x3021]) ∧
    codes (run (.dresetSet .host 8) State.reset) = [0x3021] := by decide +kernel
theorem test_readmission_steps :
    dieSt (run (.dieBooted 7 true) (sDie 2 false 2)) = (3, 0, []) ∧ dieSt (run (.dieBooted 7 false) (sDie 2 false 2)) = (2, 0, [0x3020]) := by
  decide +kernel

/-- A push of TENON_PUSH's host that the window accepts, and one of a Reed's, which may not push (R75). -/
def pushMsg (unit : Nat) : TMsg :=
  { head := tmHead 7 7 4 unit 9 32 (0x030004000000 + 8191 * 0x1000 + 0x820) 0
    body := wordsLE [runWord, 1, 2, 3] }
theorem witness_tenon_push :
    (let m := pushMsg 1
     TakesMessage State.reset m 4 ∧ mayPush (tmReq State.reset m) = true ∧ highestRefusal State.reset 8191 1 (wordAt m.body 0) = 0 ∧
     (getTile State.reset 8191).gated = false ∧ (getCluster State.reset (clusterOf 8191)).clk = .running) ∧
    (let m := pushMsg 0x1000
     TakesMessage State.reset m 4 ∧ mayPush (tmReq State.reset m) = false) := by
  refine ⟨⟨⟨?_, ?_, ?_, ?_⟩, ?_, ?_, ?_, ?_⟩, ⟨?_, ?_, ?_, ?_⟩, ?_⟩ <;> decide +kernel
theorem test_tenon_push_accepted :
    (getEng (run (.tenonPush (pushMsg 1)) State.reset) cLast).queue.map (fun x => (x.w0, x.w3)) = [(runWord, 3)] ∧
    got (run (.tenonPush (pushMsg 0x1000)) State.reset) = [(0x12, 9, 0x20F0, [])] ∧
    codes (run (.tenonPush (pushMsg 0x1000)) State.reset) = [0x20F0] := by decide +kernel

/-- An atomic of the host's and one of a unit that may send none; a push off the map (R401); no wait holds these back. -/
def offMsg (opc unit addr : Nat) (body : List Byte) : TMsg := { head := tmHead 7 7 opc unit 9 32 addr 0, body := body }
theorem witness_tenon_requests :
    mayAtomic (tmReq State.reset (offMsg 3 1 0 [])) = true ∧ mayAtomic (tmReq State.reset (offMsg 3 0x1000 0 [])) = false ∧
    heldBack State.reset (recordSpans (wordsLE [0x1000000000000000, 7, 0, 0])) = false ∧ heldBack State.reset (recordSpans [0]) = false ∧
    areaOf 0x050000000000 32 = none ∧ tmAddr (offMsg 4 1 0x050000000000 []) = 0x050000000000 ∧
    heldBack State.reset (memSpan aTenModstat 8) = false := by decide +kernel
theorem test_tenon_off_map :
    got (run (.tenonPush (offMsg 4 1 0x050000000000 (List.replicate 32 0xFF))) State.reset) = [(0x12, 9, 0x2001, [])] ∧
    codes (run (.tenonAtom (offMsg 3 0x1000 0 (wordsLE [0x1000000000000000, 7, 0, 0]))) State.reset) = [0x9021] ∧
    dieSt (run (.dresetClear .host 7) (sDie 1 false 0)) = (1, 0, []) := by decide +kernel

/-- Lane 15 with three NAKs sent within 1 µs, and with a flit that has been replayed seven times (R289). -/
def sNaks (naks : List Nat) (redo : Nat) : State :=
  let i := linkEnd.die.toNat * 4 + linkEnd.port.toNat
  { sLink with ten := { sLink.ten with ends := tset {} sLink.ten.ends i { getEnd sLink i with
      lanes := [(15, { naks := naks, replay := [flitAt 1 0], redo := [(1, redo)] })] } } }
theorem witness_retests :
    (let z := laneOf (sNaks [0, 9, 25] 0) linkEnd.die.toNat linkEnd.port.toNat 15
     decide (3 ≤ z.naks.length) && !z.retest && !retesting (sNaks [0, 9, 25] 0) 0 15) = true ∧
    (let z := laneOf (sNaks [] 7) linkEnd.die.toNat linkEnd.port.toNat 15
     z.replay.any (fun g => decide (128 ≤ (256 - flitSeq g) % 256) && decide (7 ≤ tget 0 z.redo (flitSeq g)))) = true :=
  ⟨by decide +kernel, by decide +kernel⟩
/-- The lane's retest. -/
def retests (c : Instr) (s : State) : Bool := (laneOf (run c s) linkEnd.die.toNat linkEnd.port.toNat 15).retest
theorem test_retest_naks : retests (.tenonFlitReceive linkEnd 15 0) (sNaks [0, 9, 25] 0) = true := by decide +kernel
theorem test_retest_no_naks : retests (.tenonFlitReceive linkEnd 15 1) (sNaks [0, 9] 0) = false := by decide +kernel
theorem test_retest_replays : retests (.tenonNak linkEnd 15 0) (sNaks [] 7) = true := by decide +kernel
theorem test_retest_no_replays : retests (.tenonNak linkEnd 15 0) (sNaks [] 6) = false := by decide +kernel

/-- Die C7 in TRAIN, its first link in TRAIN with every lane whole. -/
def sTrain : State := rset (sDie 4 false 4) (aTenLinkStatus ((openLinks (sDie 4 false 4) 7).headD 0)) 63 60 2
theorem witness_readmission_ends :
    (∃ l ∈ openLinks sTrain 7, linkState sTrain l = 2 ∧ 8 ≤ (wholeLanes sTrain l).length) ∧
    tget 0 sTrain.ten.step 7 = 4 ∧ chState (rset (sDie 5 false 5) (aHbmChStatus 511) 63 60 4) (7 * 64 + 63) = 4 := by
  refine ⟨?_, ?_, ?_⟩ <;> decide +kernel
theorem test_die_tested : (dieSt (run (.dieTested 7 true []) (sDie 3 false 3))).1 = 4 := by decide +kernel
theorem test_die_trained : (dieSt (run (.dieTrained 7) sTrain)).1 = 5 := by decide +kernel
theorem test_die_admitted : dieSt (run (.dieAdmitted 7 true []) (sDie 5 false 5)) = (0, 0, [0x3007]) := by decide +kernel
/-! ### The fabric (chapter 11) -/

/-- A packet of Table 11.3 on the class's lower VC. -/
def pkt (dst src cls opc flow seq opid : Nat) (w3 : Word) (bs : List Byte) (more : Nat := 0) : Packet :=
  { w0 := BitVec.ofNat 64 (dst * 2 ^ 48 + src * 2 ^ 32 + cls * 2 ^ 30 + cls * 2 ^ 28 + more)
    w1 := BitVec.ofNat 64 (flow * 2 ^ 48 + seq * 2 ^ 32 + bs.length * 2 ^ 22 + opc * 2 ^ 16 + opid), w2 := 0, w3 := w3, payload := bs }

def putRegs (s : State) (rs : List (Nat × Nat)) : State := rs.foldl (fun s r => regPut s r.1 (BitVec.ofNat 64 r.2)) s

/-- Module 0x0113 with transit allowed, optical ports 0 and 3 UP, the peer 0x0212 by port 3. Contexts toward the peer: 5 of
    class 0, 6 of class 1, 7 of class 3; from the peer: 9 of class 0, 10 of class 1, 11 of class 3. -/
def sFabric : State :=
  putRegs State.reset [(aFabCfg, 2 ^ 63 + 2 ^ 62 + 0x113), (aFabPortStatus 0, 2 ^ 60), (aFabPortStatus 3, 2 ^ 60),
    (aFabRouteA 0x212, 2 ^ 63 + 8), (aFabMc 1, 2 ^ 63 + 8), (aFabMc 2, 8), (aFabMc 3, 2 ^ 63 + 16),
    (aFabFlowCfg 5, 2 ^ 63 + 256 * 2 ^ 48 + 9 * 2 ^ 16 + 0x212), (aFabFlowCfg 6, 2 ^ 63 + 2 ^ 60 + 2 ^ 48 + 0x212),
    (aFabFlowCfg 7, 2 ^ 63 + 3 * 2 ^ 60 + 2 ^ 48 + 0x212), (aFabFlowCfg 9, 2 ^ 63 + 2 ^ 62 + 2 ^ 48 + 5 * 2 ^ 16 + 0x212),
    (aFabFlowCfg 10, 2 ^ 63 + 2 ^ 62 + 2 ^ 60 + 2 ^ 48 + 0x212), (aFabFlowCfg 11, 2 ^ 63 + 2 ^ 62 + 3 * 2 ^ 60 + 2 ^ 48 + 0x212)]
/-- In transit from 0x0100 to the peer, its HOPS as given. -/
def transit (hops : Nat) : Packet := pkt 0x212 0x100 0 1 0 0 0 0 [] hops
def multi (g : Nat) : Packet := pkt 0x212 0x100 2 0x20 0 0 0 0 [] (2 ^ 25 + g * 2 ^ 12)

theorem witness_taken_in :
    ∀ p ∈ [transit 126, transit 127, multi 1, multi 2, multi 3],
      sFabric.fab.held.any (isLocal p) = false ∧ portUp sFabric 0 = true ∧ p.crcOk = true ∧ idValid sFabric = true ∧
      malformed p = false ∧ pkEpoch p = rbit sFabric aFabEpoch 63 := by decide +kernel
theorem witness_chosen :
    let p := transit 126
    let e := regGet sFabric (aFabRouteA (pkDst p))
    e.getLsbD 63 = true ∧ pkHops p = 126 ∧ pkDet p = false ∧ e.getLsbD 3 = true ∧ portUp sFabric 3 = true ∧ e.getLsbD 11 = false ∧
    (∀ q < 6, q ≠ 3 → e.getLsbD q = false) ∧ pkCells p ≤ freeCredit sFabric 3 (pkVc p) ∧ sFabric.fab.held = [] := by decide +kernel

def leftBy (s : State) : List (Nat × Nat) := s.fab.held.map (fun h => (h.port, pkHops h.pkt))
theorem test_router :
    leftBy (run (.routerForward 0 (transit 126)) sFabric) = [(3, 127)] ∧
    codes (run (.routerForward 0 (transit 127)) sFabric) = [0x4013] ∧
    codes (run (.routerForward 0 (transit 0)) (rsetb sFabric aFabCfg 63 false)) = [0x4013] ∧
    codes (run (.routerForward 0 (pkt 0x213 0x100 0 1 0 0 0 0 [])) sFabric) = [0x4013] := by decide +kernel
theorem test_router_drops :
    rf (run (.routerForward 0 { transit 0 with crcOk := false }) sFabric) (aFabPortDrop 0) 63 32 = 1 ∧
    rf (run (.routerForward 0 (transit 0)) (rsetb sFabric aFabCfg 62 false)) (aFabPortDrop 0) 31 16 = 1 ∧
    codes (run (.routerForward 0 (pkt 0x212 0x100 0 1 0 0 0 0 [] (2 ^ 29))) sFabric) = [0x4014] := by decide +kernel
theorem test_multicast :
    leftBy (run (.multicastPacket 0 (multi 1)) sFabric) = [(3, 1)] ∧
    rf (run (.multicastPacket 0 (multi 2)) sFabric) (aFabPortDrop 3) 15 0 = 1 ∧
    rf (run (.multicastPacket 0 (multi 3)) sFabric) (aFabPortDrop 4) 15 0 = 1 := by decide +kernel

/-- Context 5 with one PUT of 513 bytes open, of the S engine of tile 0; and with its first packet unacknowledged. -/
def putOp (uid : Nat) : FOp := { uid := uid, kind := .put 0 0 storeTop 513 0 0 0, owner := .xfer ⟨0, 3⟩ 0, opid := some 65535 }
def lostPkt (tries port : Nat) : Unacked :=
  { seq := 65535, uid := 0, idx := 0, opid := 65535, kind := .put 0 0 storeTop 513 0 0 0, owner := .xfer ⟨0, 3⟩ 0, stamp := 0
    port := port, tries := tries }
def sFlow (us : List Unacked) (ops : List FOp) : State :=
  setFlow { sFabric with tile := [(0, { eng := [(3, { xfers := [{ id := 0, kind := .remote, sem := 0, tcnt := 0, left := 1 }] })] })] } 5
    { nextSeq := 65535, ops := ops, unacked := us, exp := 0 }
theorem witness_flows :
    (let s := sFlow [] [putOp 0]
     let f := flowOf s 5
     flowEn s 5 = true ∧ flowRecv s 5 = false ∧ inFlight f < flowWin s 5 ∧ (putOp 0).opid = some 65535 ∧
     (putOp 0).sent < partsOf (putOp 0).kind ∧ tileIsolated s 0 = false ∧ f.nextSeq < 65536 ∧ flowPeer s 5 ≠ moduleId s ∧
     CarriesPart s (putOp 0).kind 0 1 (BitVec.ofNat 64 storeTop) (List.replicate 512 0)) ∧
    (let s := sFlow [lostPkt 2 4] []
     (lostPkt 2 4).tries < rf s aFabTimer 1 0 ∧ portUp s 4 = false) ∧ (lostPkt 3 4).tries = rf sFabric aFabTimer 1 0 ∧
    flowClass sFabric 5 ≠ 1 := by
  refine ⟨⟨by decide +kernel, by decide +kernel, by decide +kernel, by decide, by decide, by decide +kernel, by decide +kernel,
    by decide +kernel, by decide, by decide, ?_⟩, by decide +kernel, by decide +kernel, by decide +kernel⟩
  rw [if_pos (by decide)]
  exact ⟨rfl, by decide +kernel, by decide +kernel⟩
theorem test_packet_send :
    let s := run (.packetSend 5) (sFlow [] [putOp 0])
    s.fab.held.map (fun h => (pkSeq h.pkt, pkLen h.pkt, pkFlow h.pkt)) = [(65535, 512, 9)] ∧ (flowOf s 5).nextSeq = 0 := by decide +kernel
theorem test_retransmit :
    codes (run (.retransmit 5 65535) (sFlow [lostPkt 2 4] [])) = [0x4021] ∧
    (let s := run (.retransmit 5 65535) (sFlow [lostPkt 3 4] [putOp 0])
     codes s = [0x4022] ∧ flowBroken s 5 = true ∧ (flowOf s 5).ops = []) ∧
    codes (run (.answerTimeout 5 65535) (sFlow [] [{ putOp 0 with port := 4 }])) = [0x4022] := by decide +kernel
/-- Context 9 has received SEQ 1 and not SEQ 0; class 3's FACK is wanted. -/
def sAck : State := setFlow sFabric 9 { map := [1], ackDue := true }
theorem witness_fack : flowEn sAck 9 = true ∧ flowRecv sAck 9 = true ∧ (flowOf sAck 9).ackDue = true ∧ portUp sAck 3 = true := by
  decide +kernel
theorem test_fack_send :
    (run (.fackSend 9) sAck).fab.held.map (fun h => (h.port, pkOpc h.pkt, h.pkt.w3, h.pkt.payload.take 2)) = [(3, 0x15, 0, [2, 0])] := by
  decide +kernel

/-- From the peer in context 9 (or 10, 11): the window's last SEQ, 255, is accepted; 256 is not. -/
def toMe (cls opc seq opid : Nat) (w3 : Word) (bs : List Byte) : Packet :=
  pkt 0x113 0x212 cls opc (if cls = 0 then 9 else if cls = 1 then 10 else 11) seq opid w3 bs
theorem witness_accepts :
    (∀ p ∈ [toMe 0 1 255 0 (BitVec.ofNat 64 storeTop) [1, 2], toMe 1 0x13 0 0 0 [], toMe 3 0x30 0 0 0 [1]],
      sFabric.fab.held.any (isLocal p) = false ∧ portUp sFabric 3 = true ∧ malformed p = false ∧ pkMc p = false ∧
      pkDst p = moduleId sFabric ∧ flowEn sFabric (pkFlow p) = true ∧ flowRecv sFabric (pkFlow p) = true ∧
      flowPeer sFabric (pkFlow p) = pkSrc p ∧ flowClass sFabric (pkFlow p) = pkCls p ∧ opcClass (pkOpc p) = some (pkCls p) ∧
      pkSeq p ∉ (flowOf sFabric (pkFlow p)).map ∧
      (pkSeq p + 65536 - (flowOf sFabric (pkFlow p)).exp) % 65536 < 256) ∧
    (sendFlow sFabric 0x212 1 = some 6 ∧ flowBroken sFabric 6 = false ∧ (flowOf sFabric 6).ops.length < 16 ∧
      ∀ o ∈ (flowOf sFabric 6).ops, o.opid ≠ none) ∧
    sendFlow sFabric 0x212 0 = some 5 ∧ sendFlow sFabric 0x212 3 = some 7 ∧ Awake sFabric 8191 ∧ TakesTokens sFabric 8191 ∧
    heldBack sFabric (memSpan aHbmCap 8) = false ∧
    256 ≤ (pkSeq (toMe 0 1 256 0 0 []) + 65536 - (flowOf sFabric 9).exp) % 65536 :=
  ⟨by decide +kernel, by decide +kernel, by decide +kernel, by decide +kernel, ⟨by decide +kernel, by decide, by decide⟩,
    ⟨by decide +kernel, by decide, by decide⟩, by decide +kernel, by decide +kernel⟩

def opened (s : State) (n : Nat) : List FKind := (flowOf s n).ops.map (fun o => o.kind)
def last (count tile sem n : Nat) : Word := BitVec.ofNat 64 (count * 2 ^ 44 + tile * 2 ^ 31 + sem * 2 ^ 27 + n * 2 ^ 19)
theorem test_put :
    let s := run (.put 3 (toMe 0 1 255 4 (BitVec.ofNat 64 (storeTop + 6)) [1, 2])) sFabric
    localByte s 8191 0x3FFFF = 2 ∧ (rxSlot s 9 4).count = 1 ∧
    codes (run (.put 3 (toMe 0 1 256 4 (BitVec.ofNat 64 storeTop) [1])) sFabric) = [0x4012] := by decide +kernel
theorem test_putend :
    let s := run (.putend 3 (toMe 0 2 0 4 (last 0 8191 15 255) [])) sFabric
    (getTile s 8191).semVal 15 = 255 ∧ opened s 6 = [.opack 4 0] ∧
    opened (run (.putend 3 (toMe 0 2 0 4 (last 1 0 0 0) [])) sFabric) 6 = [] := by decide +kernel
theorem test_get :
    opened (run (.get 3 (toMe 0 3 0 4 (BitVec.ofNat 64 storeTop) (natLE 8 0x100 ++ natLE 4 8))) sFabric) 6 =
      [.getData 0x100 (List.replicate 8 0) 4 0] := by decide +kernel
theorem test_ld_st :
    opened (run (.ld 3 (toMe 0 4 0 4 (BitVec.ofNat 64 aHbmCap) [])) sFabric) 6 = [.ldrsp 4 0 0x90000] ∧
    opened (run (.st 3 (toMe 0 5 0 4 (BitVec.ofNat 64 aHbmCap) (wordLE 0))) sFabric) 6 = [.opack 4 0x4024] ∧
    localByte (run (.st 3 (toMe 0 5 0 4 (BitVec.ofNat 64 storeTop) (wordLE (0x80 <<< 56)))) sFabric) 8191 0x3FFFF = 0x80 := by
  decide +kernel

/-- Message queue 255 of 16 slots at the end of tile 8191's store, one slot free, or none. -/
def sQue (tail : Nat) : State :=
  putRegs sFabric [(aFabMqRing 255, 2 ^ 63 + 4 * 2 ^ 48 + (storeTop + 8 - 16 * 576)), (aFabMqPtr 255, tail * 2 ^ 16)]
theorem witness_queue :
    rbit (sQue 15) (aFabMqRing 255) 63 = true ∧ rf (sQue 15) (aFabMqRing 255) 51 48 = 4 ∧
    rf (sQue 15) (aFabMqRing 255) 47 6 * 64 + rf (sQue 15) (aFabMqPtr 255) 31 16 % 2 ^ 4 * 576 + 576 = storeTop + 8 ∧
    rf (sQue 16) (aFabMqPtr 255) 31 16 = 2 ^ 4 ∧ rf (sQue 15) (aFabMqNote 255) 63 62 = 0 := by decide +kernel
theorem test_message :
    codes (run (.msgPacket 3 (toMe 3 0x30 0 4 255 [7])) (sQue 16)) = [] ∧
    opened (run (.msgPacket 3 (toMe 3 0x30 0 4 255 [7])) (sQue 16)) 6 = [.opack 4 0x4023] ∧
    opened (run (.msgPacket 3 (toMe 3 0x30 0 4 254 [7])) (sQue 16)) 6 = [.opack 4 0x4023] := by decide +kernel

/-- What the issuer hears: OPACK and GETEND of its operation, LDRSP of an LDG, and a FACK. -/
def gOpen : Engine :=
  { phase := .streamWait, held := some { scl := some (.ldg 5 1) }, answer := some (5, 0)
    xfers := [{ id := 0, kind := .remote, sem := 0, tcnt := 0, left := 1 }] }
def sOpen (n : Nat) (k : FKind) (o : FOwner) : State :=
  setFlow { sFabric with tile := [(0, { eng := [(3, gOpen)] })] } n { ops := [{ uid := 0, kind := k, owner := o, opid := some 4 }] }
theorem witness_issuer :
    (∃ o, (flowOf (sOpen 5 (.get 0 0 8) (.xfer ⟨0, 3⟩ 0)) 5).ops = [o] ∧ o.opid = some 4) ∧ (10 : Nat) ≠ 5 ∧
    (let e := getEng (sOpen 5 (.ld 0) (.scalar ⟨0, 3⟩)) ⟨0, 3⟩
     e.answer = some (5, 0) ∧ e.held = some { scl := some (.ldg 5 1) } ∧ e.plan = none ∧ e.results = [] ∧ ((e.setX 5 9).after 2).2.1 < 4096) ∧
    openOp (sOpen 5 (.put 0 0 0 1 0 0 0) (.xfer ⟨0, 3⟩ 0)) 0x212 3 4 FKind.acked = none ∧
    openOp (sOpen 7 (.msg 0 0 0 1) (.xfer ⟨0, 3⟩ 0)) 0x212 0 4 FKind.acked = none ∧ fackFlow sFabric 0x212 9 = some 5 ∧
    (∀ q ∈ (flowOf (sFlow [lostPkt 0 3] [putOp 0]) 5).ops, q.opid ≠ none) :=
  ⟨⟨_, rfl, rfl⟩, by decide, by decide +kernel, by decide +kernel, by decide +kernel, by decide +kernel, by decide +kernel⟩
/-- S's STG waits for its answer in a bundle that also took 200 from a semaphore. -/
def gStg : Engine :=
  { phase := .streamWait, held := some { scl := some (.stg 1 2), ctl := some (.wait 3 200) }, answer := some (0, 0) }
def sStg : State :=
  setFlow { sFabric with tile := [(0, { eng := [(3, gStg)], sem := [(3, 55)] })] } 5
    { ops := [{ uid := 0, kind := .st 0 1, owner := .scalar ⟨0, 3⟩, opid := some 4 }] }
theorem witness_stg :
    (getEng sStg ⟨0, 3⟩).answer = some (0, 0) ∧ (getEng sStg ⟨0, 3⟩).plan = none ∧ (∃ b, (getEng sStg ⟨0, 3⟩).held = some b ∧ b.ctl = some (.wait 3 200)) ∧
    (getTile sStg 0).semVal 3 + 200 ≤ 65535 ∧ openOp sStg 0x212 3 4 FKind.acked = none :=
  ⟨by decide, by decide, ⟨_, rfl, rfl⟩, by decide, by decide +kernel⟩
/-- R140: a failed STG leaves its bundle without effect. -/
theorem test_stg_fails :
    let s := run (.opack 3 (toMe 1 0x13 0 0 0x20010004 [])) sStg
    codes s = [0x2001] ∧ (getEng s ⟨0, 3⟩).phase = .faulted ∧ (getTile s 0).semVal 3 = 255 := by decide +kernel
theorem test_issuer :
    (getEng (run (.getend 3 (toMe 1 0x12 0 0 4 [])) (sOpen 5 (.get 0 0 8) (.xfer ⟨0, 3⟩ 0))) ⟨0, 3⟩).xfers.map (fun x => x.left) = [0] ∧
    (getEng (run (.opack 3 (toMe 1 0x13 0 0 0x40230004 [])) (sOpen 7 (.msg 0 0 0 1) (.xfer ⟨0, 3⟩ 0))) ⟨0, 3⟩).xfers.map (fun x => x.code) =
      [0x4023] ∧
    (getEng (run (.ldrsp 3 (toMe 1 0x14 0 0 4 (wordLE 9))) (sOpen 5 (.ld 0) (.scalar ⟨0, 3⟩))) ⟨0, 3⟩).xr 5 = 9 ∧
    codes (run (.ldrsp 3 (toMe 1 0x14 0 0 0x20010004 (wordLE 9))) (sOpen 5 (.ld 0) (.scalar ⟨0, 3⟩))) = [0x2001] := by decide +kernel
theorem test_fack :
    (flowOf (run (.fack 3 (pkt 0x113 0x212 1 0x15 9 0 0 0 (natLE 32 0))) (sFlow [lostPkt 0 3] [])) 5).unacked = [] ∧
    (flowOf (run (.fack 3 (pkt 0x113 0x212 1 0x15 9 0 0 65535 (natLE 32 0))) (sFlow [lostPkt 0 3] [])) 5).unacked.length = 1 := by
  decide +kernel

/-- MSG of the 8 bytes at the end of tile 0's store to the peer's queue 255, and to a module that no context serves. -/
def sMsg (x : Nat) : State :=
  { sFabric with tile := [(0, { eng := [(3, { phase := .run, x := [(1, BitVec.ofNat 64 x), (2, 8)], ag := [(1, { base := 0x3FFF8 })] })] })] }
theorem witness_msg :
    isReady (sMsg (0x212 * 2 ^ 48 + 255)) sFirst 3 = true ∧ idValid (sMsg 0) = true ∧ sendFlow (sMsg 0) 0 3 = none ∧
    sendFlow (sMsg (0x212 * 2 ^ 48 + 255)) 0x212 3 = some 7 ∧ pairedEngine (sMsg 0) sFirst = none := by decide +kernel
theorem test_msg :
    opened (run (.msg 0 gen1 1 2 0 0 {}) (sMsg (0x212 * 2 ^ 48 + 255))) 7 = [.msg 0 0x3FFF8 255 8] ∧
    (getEng (run (.msg 0 gen1 1 2 0 0 {}) (sMsg 0)) sFirst).xfers.map (fun x => x.code) = [0x4011] := by decide +kernel

/-- One packet of context 5 waits for port 3, the only port toward the peer; it belongs to a transfer of tile 0. -/
def sQueued : State :=
  let s := sFlow [] [putOp 0]
  let p := pkt 0x212 0x113 0 1 9 0 65535 0 []
  { s with fab := { s.fab with held := [{ port := 3, pkt := p, orig := p, from_ := 6, own := some (5, 0), last := 0 }] } }
theorem witness_port_down :
    portUp sFabric 3 = true ∧ portUp sFabric 1 = false ∧
    (let s := putRegs sQueued [(aFabPortStatus 0, 0)]
     s.fab.held.filter (fun x => x.port = 3 && x.last = 0) ≠ [] ∧ (∀ q < 6, q ≠ 3 → portUp s q = false) ∧
     bit (regGet s (aFabRouteA 0x212)) 63 = true ∧ (flowOf s 5).ops.map (fun o => o.uid) = [0]) := by decide +kernel
theorem test_port_down :
    portUp (run (.portDown 3) sFabric) 3 = false ∧
    (flowOf (run (.portDown 3) (putRegs sQueued [(aFabPortStatus 0, 0)])) 5).ops = [] ∧
    run (.portDown 6) sFabric = sFabric := by decide +kernel

/-- R480: an operation that ends with 0x4_022 says to its engine which peer it had. -/
theorem test_flow_peer :
    (getEng (run (.flowRst .host 5) (sFlow [] [putOp 0])) ⟨0, 3⟩).xfers.map (fun x => (x.code, x.from_.1)) = [(0x4022, 0x212)] := by
  decide +kernel

theorem witness_fabric_registers :
    HostServed sFabric ∧ (false ≠ rbit sFabric aFabEpoch 63 ∨ sFabric.fab.held = []) ∧ fld (256 * 2 ^ 48 : Word) 56 48 = 256 ∧
    fld (257 * 2 ^ 48 : Word) 56 48 = 257 ∧ (flowOf sFabric 5).ops = [] ∧ (∃ o, (flowOf (sFlow [] [putOp 0]) 5).ops = [o]) ∧
    (∃ i < 6, rbit (rsetb sFabric (aBelCtrl 5) 63 true) (aBelCtrl i) 63 = true) ∧ isHost (.engine ⟨0, 0⟩) = false :=
  ⟨⟨by decide +kernel, by decide⟩, by decide +kernel, by decide, by decide, by decide +kernel, ⟨_, rfl⟩, ⟨5, by decide +kernel⟩, by decide⟩
theorem test_fabric_registers :
    codes (run (.routeEntryWrite .host true 0x100 (2 ^ 63 + 1)) sFabric) = [] ∧
    codes (run (.routeEntryWrite .host false 0x100 (2 ^ 63 + 1)) sFabric) = [0x4031] ∧
    codes (run (.multicastEntryWrite .host 4095 (2 ^ 63)) sFabric) = [0x4031] ∧
    codes (run (.flowEnable .host 1 (2 ^ 63 + 257 * 2 ^ 48)) sFabric) = [0x4032] ∧
    codes (run (.mqHeadWrite .host 255 16) (sQue 15)) = [0x4032] ∧ codes (run (.mqHeadWrite .host 255 15) (sQue 15)) = [] ∧
    codes (run (.fabCfgWrite .host 0) (rsetb sFabric (aBelCtrl 5) 63 true)) = [0xA030] ∧
    codes (run (.injWrite (.engine ⟨0, 0⟩) true) sFabric) = [0x9023] ∧
    (flowOf (run (.flowRst .host 5) (sFlow [] [putOp 0])) 5).ops = [] := by decide +kernel

/-! ### Bells (chapter 12) -/

/-- 25,119 µW is the least that counts as present; 100,001 µW is HIGH. -/
def uw (a b : Nat) : List Nat := [a, b, 0, 0, 0, 0, 0, 0]
def sBell (b st : Nat) (x : Bell := {}) : State := setBell (rset State.reset (aBelStatus b) 63 60 st) b x
theorem witness_bell :
    HostServed State.reset ∧ (∀ d ∈ [8, 9, 10, 11], dieIsolated State.reset d = false) ∧ (∀ i < 7, belState State.reset i = 0) ∧
    rf State.reset (aBelLp 3) 47 40 = 0 ∧
    ¬(rbit State.reset (aBelPeer 0) 63 = true ∧ idValid State.reset = true) ∧ belEn State.reset 6 = false ∧
    belState (sBell 6 4) 6 = 4 ∧ belState (sBell 6 7) 6 = 7 ∧ minLanes 6 ≤ canServe (sBell 6 4) 6 := by
  refine ⟨⟨by decide, by decide⟩, by decide +kernel, by decide +kernel, by decide +kernel, by decide +kernel, by decide +kernel,
    by decide +kernel, by decide +kernel, by decide +kernel⟩
theorem test_laser :
    rf (run (.laserMeasurement 3 (uw 25119 25118)) State.reset) (aBelLp 3) 47 40 = 1 ∧
    rf (run (.laserMeasurement 3 (uw 25119 100001)) State.reset) (aBelLp 3) 63 60 = 3 ∧
    codes (run (.laserMeasurement 3 (uw 0 0)) (putRegs State.reset [(aBelLp 3, 2 ^ 40), (aMgtSite, 2 ^ 59)])) = [0x5001] ∧
    codes (run (.laserLineReturn 3 0) { putRegs State.reset [(aMgtSite, 2 ^ 59)] with lpLost := [(3, 1)] }) = [0x5002] := by
  decide +kernel
theorem test_bell_writes :
    codes (run (.bellEnable .host 0 (2 ^ 63)) State.reset) = [0x5040] ∧
    belState (run (.bellEnable .host 6 (2 ^ 63)) State.reset) 6 = 1 ∧
    belState (run (.bellDisable .host 6 0) (run (.bellEnable .host 6 (2 ^ 63)) State.reset)) 6 = 0 := by decide +kernel
theorem test_bell_training :
    codes (run (.trainingTimeout 6) (sBell 6 4)) = [0x5013] ∧ belState (run (.failedRetry 6) (sBell 6 7)) 6 = 1 ∧
    run (.trainingTimeout 6) (sBell 6 5) = sBell 6 5 := by decide +kernel
def statOfPort (p : BitVec 8) : Stat := { modId := 0x77, port := p, arith := 0, state := 4, rxok := 0xFFFFFFFF, steq := 0, dis := 0 }
/-- R397: Bell H takes any module, but port 6 alone; the sixteenth STAT in a row brings the link UP where a lane is ready. -/
def sMeet (n : Nat) : State :=
  sBell 6 4 { rxok := 0xFFFFFFFF, peer := 4, matched := n } |> fun s => putRegs s [(aBelRingT 6 0, 2 ^ 61), (aBelRingR 6 0, 2 ^ 61)]
theorem test_stat :
    codes (run (.stat 6 (statOfPort 5)) (sMeet 0)) = [0x5020] ∧ belState (run (.stat 6 (statOfPort 5)) (sMeet 0)) 6 = 6 ∧
    belState (run (.stat 6 (statOfPort 6)) (sMeet 14)) 6 = 4 ∧ belState (run (.stat 6 (statOfPort 6)) (sMeet 15)) 6 = 5 ∧
    rf (run (.stat 6 (statOfPort 6)) (sMeet 15)) aHlStatus 63 62 = 2 := by decide +kernel

/-- Bell H UP with lanes 0 and 27 in service. -/
def sServe : State :=
  putRegs (sBell 6 5 { rxok := 0x08000001, peer := 5 }) [(aBelStatus 6, 5 * 2 ^ 60 + 2 * 2 ^ 54), (aBelLanes 6, 0x08000001 * 2 ^ 32),
    (aBelRingT 6 0, 2 ^ 61), (aBelRingR 6 0, 2 ^ 61), (aBelRingT 6 27, 2 ^ 61), (aBelRingR 6 27, 2 ^ 61)]
/-- Ring T0 of Bell H searching, in TXLOCK; asked to step. -/
def sSearch : State := putRegs (sBell 6 2) [(aBelRingT 6 0, 2 ^ 60), (aBelLp 0, 255 * 2 ^ 40)]
def sSteq : State := putRegs (sBell 6 3 { steq := 1 }) [(aBelRingT 6 0, 2 ^ 61 + 2 * 2 ^ 58), (aBelLockmap 6, 1), (aBelLp 0, 255 * 2 ^ 40)]
theorem witness_lanes :
    (belState sServe 6 = 5 ∧ inServ sServe 6 27 = true ∧ minLanes 6 < popcount 32 (rf sServe (aBelLanes 6) 63 32)) ∧
    (txState sSearch 6 0 = 1 ∧ (getBell sSearch 6).txFail = 0 ∧ (∀ i ∈ lanesOf 6, i / 8 = 0 → i < 0 → False)) ∧
    ((getBell sSteq 6).steq.getLsbD 0 = true ∧ txState sSteq 6 0 = 2 ∧ rf sSteq (aBelRingT 6 0) 59 58 = 2) ∧
    (∀ r < 64, tget 0 (getBell sServe 6).pinned r < 9) := by
  refine ⟨by decide +kernel, ⟨by decide +kernel, by decide +kernel, by intro i _ _ h; exact absurd h (by omega)⟩, by decide +kernel,
    by decide +kernel⟩
theorem test_rings :
    txState (run (.txRingLock 6 0 1023 true) sSearch) 6 0 = 2 ∧ ringHeat (run (.txRingLock 6 0 1022 true) sSearch) 6 0 = 1022 ∧
    (getBell (run (.txRingLock 6 0 0 false) sSearch) 6).txFail = 1 ∧
    rxState (run (.rxRingScan 6 27 5 true none) (putRegs sSteq [(aBelRingR 6 27, 2 ^ 60)])) 6 27 = 2 := by decide +kernel
theorem test_steps :
    rf (run (.ringStep 6 0) sSteq) (aBelRingT 6 0) 59 58 = 3 ∧ txState (run (.ringStep 6 0) sSteq) 6 0 = 3 ∧
    txState (run (.ringStepComplete 6 0 7 true) (run (.ringStep 6 0) sSteq)) 6 0 = 2 ∧
    txState (run (.ringStepComplete 6 0 7 true) (run (.ringStep 6 0) (putRegs sSteq [(aBelLockmap 6, 0), (aBelRingT 6 0, 2 ^ 61 + 8 * 2 ^ 48)]))) 6 0 = 2 ∧
    txState (run (.ringStepComplete 6 0 9 true) (run (.ringStep 6 0) (putRegs sSteq [(aBelLockmap 6, 0), (aBelRingT 6 0, 2 ^ 61 + 8 * 2 ^ 48)]))) 6 0 = 3 ∧
    run (.ringStep 6 1) sSteq = sSteq := by decide +kernel
theorem test_service :
    inServ (run (.laneLeavesService 6 27 .fec) sServe) 6 27 = false ∧ (getBell (run (.laneLeavesService 6 27 .fec) sServe) 6).left = 0x08000000 ∧
    codes (run (.laneServiceSample 6) (sBell 6 5 { left := 1 })) = [0x5011] ∧
    rf (run (.eyehUpdate 6 27 31) sServe) (aBelRingR 6 27) 47 43 = 31 := by decide +kernel
theorem test_lock_iteration :
    ringHeat (run (.lockIteration 6 (List.replicate 64 9)) sServe) 6 0 = 4 ∧
    ringHeat (run (.lockIteration 6 (List.replicate 64 (-9))) sServe) 6 27 = 0 := by decide +kernel
theorem test_lane_block :
    rf (run (.laneBlock 6 0 { bseq := 0, mode := 0, start := 0, valid := 0, ctl := [], cells := [], errs := [1, 15, 16] }) sServe)
      (aBelFec 6) 63 0 = 2 * 2 ^ 32 + 1 := by decide +kernel
/-- A lane waits for its line since reset: it comes, and the ring searches (R358). -/
def sLine : State := putRegs (sBell 6 1) [(aBelRingT 6 9, 5 * 2 ^ 60)]
theorem test_relight : txState (run (.laserMeasurement 1 (uw 0 25119)) sLine) 6 9 = 1 := by decide +kernel
theorem witness_loss_of_light :
    (getBell sServe 6).los.getLsbD 27 = false ∧
    (let s := sBell 5 4 { los := 0xF7000000 }
     (getBell s 5).los.getLsbD 27 = false ∧ ∀ i ∈ lanesOf 5, i / 8 = 27 / 8 → i ≠ 27 → (getBell s 5).los.getLsbD i = true) := by
  refine ⟨by decide, by decide, by decide +kernel⟩
theorem test_loss_of_light :
    codes (run (.laneLeavesService 5 27 .rxlos) (sBell 5 4 { los := 0xF7000000 })) = [0x5014] ∧
    codes (run (.laneLeavesService 5 27 .rxlos) (sBell 5 4 { los := 0xF3000000 })) = [] := by decide +kernel
/-- R356: a STAT of Bell H goes out once it has changed. -/
theorem test_speaks :
    (getBell (run (.txRingLock 6 0 9 true) sSearch) 6).out.map (fun m => m.take 1) = [[1]] ∧
    (getBell (run (.failedRetry 6) (sBell 6 7)) 6).said = some (ownStat (run (.failedRetry 6) (sBell 6 7)) 6) := by decide +kernel
/-- Bell 5 UP with every lane in service: line 255 of port 3 is still there, or just lost. -/
def sUp5 (n : Nat) : State :=
  putRegs (sBell 5 5 { peer := 5 }) ([(aBelStatus 5, 5 * 2 ^ 60 + n * 2 ^ 54), (aBelLanes 5, (2 ^ n - 1) * 2 ^ 32), (aFabPortStatus 5, 2 ^ 60),
    (aBelLp 3, 255 * 2 ^ 40)])
theorem witness_minimum :
    (belState (sUp5 32) 5 = 5 ∧ (∀ i < 7, i ≠ 5 → belState (sUp5 32) i = 0) ∧ rf (sUp5 32) (aBelLanes 5) 63 32 = 2 ^ 32 - 1 ∧
      rf (sUp5 32) (aBelStatus 5) 59 54 = 32) ∧
    (inServ (sUp5 24) 5 23 = true ∧ portUp (sUp5 24) 5 = true ∧ popcount 32 (rf (sUp5 24) (aBelLanes 5) 63 32) = 24) := by decide +kernel
theorem test_minimum :
    (let s := run (.laneLeavesService 5 23 .fec) (sUp5 24)
     portUp s 5 = false ∧ belState s 5 = 1 ∧ (getBell s 5).causes = 8) := by decide +kernel
theorem test_measured_out : inServ (run (.laserMeasurement 3 (0 :: List.replicate 7 26000)) (sUp5 32)) 5 24 = false := by decide +kernel
theorem witness_rests : Rests sSearch 6 ∧ Rests sServe 6 := by
  refine ⟨⟨by decide +kernel, by decide +kernel, fun _ => ⟨0, by decide +kernel⟩, fun h => absurd h (by decide +kernel),
    by decide +kernel, by decide +kernel⟩, ⟨by decide +kernel, by decide +kernel, fun h => absurd h (by decide +kernel),
    fun h => absurd h (by decide +kernel), by decide +kernel, by decide +kernel⟩⟩
/-- A dark ring or one whose search found no line is stepped as well (R348); a ring that an UP link does not find counts a lost
    lock, and the STAT asks a step (R347). -/
def sDarkRing : State := putRegs (sBell 6 3 { steq := 1 }) [(aBelRingT 6 0, 5 * 2 ^ 60)]
def sLost : State := putRegs sServe [(aBelRingR 6 9, 2 ^ 60)]
theorem witness_ring_steps :
    ((getBell sDarkRing 6).steq.getLsbD 0 = true ∧ laneDisabled sDarkRing 6 0 = false ∧ txState sDarkRing 6 0 = 5 ∧ belState sDarkRing 6 ≠ 0 ∧
      ∀ i ∈ lanesOf 6, i / 8 = 0 → txState sDarkRing 6 i ≠ 3) ∧
    (txState (run (.ringStep 6 0) sSteq) 6 0 = 3 ∧ laneLit (run (.ringStep 6 0) sSteq) 0 = true) ∧
    (rxState sLost 6 9 = 1 ∧ belState sLost 6 = 5 ∧ tget 0 (getBell sLost 6).relocks 9 ≠ 2 ∧ lanesOf 6 = [0, 9, 18, 27]) := by
  decide +kernel
theorem test_ring_steps :
    txState (run (.ringStep 6 0) sDarkRing) 6 0 = 3 ∧
    (let s := run (.rxRingScan 6 9 1023 false none) sLost
     (getBell s 6).rxFail = 0x200 ∧ (ownStat s 6).steq = 0x200) := by decide +kernel
theorem test_credit :
    tget 0 (run (.credit 3 [8, 0, 0, 0, 0, 0, 0, 0]) { sFabric with fab := { sent := [(24, 9)] } }).fab.freed 24 = 8 := by decide +kernel

def oneCell : LaneBlock := { bseq := 0, mode := 1, start := 1, valid := 1, ctl := [], cells := [List.replicate 64 0], errs := [15] }
theorem witness_lane_block :
    wrongWords oneCell 16 = 0 ∧ fld (wordAt (oneCell.cells.getD 0 []) 8) 31 22 = 0 ∧ tget 0 (getBell (sUp5 24) 5).fecWin 23 ≤ 16 ∧
    tget [] (getBell (sUp5 24) 5).part 23 = [] ∧ (23 ∈ lanesOf 5) := by decide +kernel

/-! ### The host link -/
/-- The host link UP, expecting LSEQ 1. -/
def sHost : State := putRegs State.reset [(aHlStatus, 2 ^ 63)]
def fr (tt seq tag : Nat) (w1 : Word) (body : List Byte) : Frame :=
  { w0 := BitVec.ofNat 64 (tt * 2 ^ 58 + body.length * 2 ^ 48 + seq * 2 ^ 32 + tag), w1 := w1, w2 := 0, body := body }
def topW : Word := BitVec.ofNat 64 storeTop
/-- The last push window of the last tile. -/
def winW : Word := BitVec.ofNat 64 (0x030004000000 + 8191 * 0x1000 + 0x860)
def eight : List Byte := [1, 2, 3, 4, 5, 6, 7, 8]
/-- Queue 15 RUNNING a descriptor, with an HRD outstanding at the last bytes of the last store. -/
def sHrd (len got : Nat) : State :=
  setDq (putRegs sHost [(aHlDqCtrl 15, 2 ^ 62), (aHlDqPtr 15, 1)]) 15
    { cur := some [0, 0, 0, 0], hrds := [{ tag := 0xF003, addr := storeTop, len := len, got := got }] }
def sDfs : State := setDq (putRegs sHost [(aHlDqCtrl 15, 2 ^ 62), (aHlDqPtr 15, 1)]) 15 { dfs := [(0xF003, [])] }
def withReplay (s : State) (n tries : Nat) : State :=
  { s with hl := { s.hl with replay := [fr 0xA n 0 0 [], fr 0xA (n + 1) 0 0 []], tries := tries } }
def answersOf (s : State) : List (List Nat) := s.hl.answers.map (fun f => [frTT f, frTag f, f.w1.toNat, leNat f.body])

theorem witness_requests :
    InOrder sHost (fr 8 1 0xFFFF topW eight) 8 ∧ InOrder sHost (fr 9 1 0xFFFF topW []) 9 ∧
    InOrder sHost (fr 0xC 1 0xFFFF winW (List.replicate 32 0)) 0xC ∧ unanswered sHost < 64 ∧ asksWait sHost = false ∧ heldBack (inOrder sHost) (memSpan aHlStatus 8) = false ∧
    heldBack (inOrder sHost) (memSpan storeTop 8) = false ∧ (areaOf (storeTop - 24) 32).isSome = true ∧ areaOf 0x050000000000 32 = none ∧
    Awake sHost 8191 ∧ rf sHost aVrxState 63 60 ≠ 1 ∧ areaOf aHlStatus 8 = some .ctl ∧
    hlUpNow (ctlRead (inOrder sHost) .host aHlStatus).2.2 = true ∧ hlUpNow (ctlWrite (inOrder sHost) .host aMgtSite 1).2 = true ∧
    winAt winW.toNat = some (.tile 8191 3, 0) ∧
    (winPush (inOrder sHost) (.tile 8191 3) 0 0 0 0 none).1 < 16 ∧ winAt storeTop = none ∧
    rf (putRegs sHost [(aVrxState, 2 ^ 60)]) aVrxState 63 60 = 1 ∧ recoverySpace storeTop = false := by
  refine ⟨?_, ?_, ?_, ?_, ?_, ?_, ?_, ?_, ?_, ?_, ?_, ?_, ?_, ?_, ?_, ?_, ?_, ?_, ?_⟩ <;> first | decide +kernel | exact ⟨by decide, by decide, by decide⟩ | exact ⟨by decide, by decide⟩
theorem test_requests :
    rdBytes (run (.cwr (fr 8 1 0xFFFF topW eight)) sHost).mem storeTop 8 = eight ∧
    answersOf (run (.cwr (fr 8 1 0xFFFF topW eight)) sHost) = [[0xA, 0xFFFF, 0, 0]] ∧
    answersOf (run (.crd (fr 9 1 7 topW [])) { sHost with mem := [(storeTop + 7, 0x80)] }) =
      [[0xB, 7, 0, 0x80 * 2 ^ 56]] ∧
    answersOf (run (.cwr (fr 8 1 7 topW eight)) (putRegs sHost [(aVrxState, 2 ^ 60)])) = [[0xA, 7, 0x9005, 0]] ∧
    answersOf (run (.push (fr 0xC 1 7 (topW - 24) [])) sHost) = [[0xD, 7, 0x20F00000, 0]] ∧
    answersOf (run (.push (fr 0xC 1 7 0x050000000000 [])) sHost) = [[0xD, 7, 0x20010000, 0]] := by decide +kernel
theorem test_answers :
    ((run .cack (run (.cwr (fr 8 1 9 topW eight)) sHost)).hl.replay.map (fun f => (frTT f, frSeq f, frAck f, frTag f))) = [(0xA, 1, 1, 9)] ∧
    run .crsp (run (.cwr (fr 8 1 9 topW eight)) sHost) = run (.cwr (fr 8 1 9 topW eight)) sHost := by decide +kernel
/-- R401: behind a write that waits for a channel that retrains, the next request waits, and 63 more fill the bound of 64. -/
def sBehind (n : Nat) : State :=
  { sHost with waits := List.replicate n ⟨[(0, 8)], .frame (fr 8 1 0 0 eight)⟩ }
theorem witness_requests_wait :
    asksWait (sBehind 1) = true ∧ unanswered (sBehind 1) = 1 ∧ 64 ≤ unanswered (sBehind 64) ∧
    InOrder (sBehind 64) (fr 9 1 7 topW []) 9 := by
  refine ⟨?_, ?_, ?_, ?_⟩ <;> first | decide +kernel | exact ⟨by decide, by decide, by decide⟩ | exact ⟨by decide, by decide⟩
theorem test_requests_wait :
    (run (.crd (fr 9 1 7 topW [])) (sBehind 1)).waits.length = 2 ∧ codes (run (.crd (fr 9 1 7 topW [])) (sBehind 64)) = [0xA004] := by
  decide +kernel
/-- An answer to the write that clears EN of region 63, which is still closing. -/
def sClose (closing : Bool) : State :=
  let s := { sHost with closing := if closing then [(63, 0)] else [] }
  { s with hl := { s.hl with answers := [mkFrame 0xA 0 7 0 []], closes := [(mkFrame 0xA 0 7 0 [], 63)] } }
theorem witness_answers_wait :
    isClosing (sClose true) 63 = true ∧ isClosing (sClose false) 63 = false ∧ (sClose false).hl.wait = [] ∧
    (sClose true).hl.answers = [mkFrame 0xA 0 7 0 []] := by decide +kernel
theorem test_answers_wait :
    run .cack (sClose true) = sClose true ∧ (run .cack (sClose false)).hl.answers = [] ∧ (run .cack (sClose false)).hl.closes = [] ∧
    (run .cack (sClose false)).hl.wire.length = 1 := by decide +kernel
theorem test_order :
    (run (.cwr (fr 8 2 9 topW eight)) sHost).mem = [] ∧
    ((run (.cwr (fr 8 2 9 topW eight)) sHost).hl.unseq.map (fun f => (frTT f, frAck f))) = [(1, 0)] ∧
    codes (run (.hdata (fr 0x3F 1 0 0 [])) sHost) = [0xA004] := by decide +kernel

theorem witness_hdata :
    InOrder (sHrd 8 0) (fr 0x1A 1 0xF003 0 eight) 0x1A ∧ (getDq (sHrd 8 0) 15).hrds = [{ tag := 0xF003, addr := storeTop, len := 8 }] ∧
    dqState (sHrd 8 0) 15 = 1 ∧ (getDq (sHrd 8 0) 15).cur ≠ none ∧ (getDq sDfs 15).dfs = [(0xF003, [])] ∧
    (getDq sDfs 15).hrds = [] ∧ ttReserved 0x3F = true ∧ InOrder sHost (fr 0x3F 1 0 0 []) 0x3F ∧
    HostServed sHost ∧ InOrder sHost (fr 0x10 1 0 15 [1, 0]) 0x10 := by
  refine ⟨?_, ?_, ?_, ?_, ?_, ?_, ?_, ?_, ?_, ?_⟩ <;> first | decide +kernel | exact ⟨by decide, by decide, by decide⟩ | exact ⟨by decide, by decide⟩
theorem test_hdata :
    rdBytes (run (.hdata (fr 0x1A 1 0xF003 0 eight)) (sHrd 8 0)).mem storeTop 8 = eight ∧
    (getDq (run (.hdata (fr 0x1A 1 0xF003 0 eight)) (sHrd 8 0)) 15).hrds = [] ∧
    (getDq (run (.hdata (fr 0x1A 1 0xF003 0 (List.replicate 32 7))) sDfs) 15).fetched =
      [[0x0707070707070707, 0x0707070707070707, 0x0707070707070707, 0x0707070707070707]] ∧
    codes (run (.hdata (fr 0x1A 1 0xF003 (BitVec.ofNat 64 (5 * 2 ^ 48)) [])) (sHrd 8 0)) = [0xA010] := by decide +kernel

theorem witness_replay :
    DmaQuiet sHost ∧ (withReplay sHost 65535 14).hl.replay ≠ [] ∧ (withReplay sHost 65535 14).hl.wait = [] ∧
    (∀ g ∈ [fr 0xA 65535 0 0 []], (65535 + 65536 - frSeq g) % 65536 < 32768) ∧
    32768 ≤ (65535 + 65536 - frSeq (fr 0xA 0 0 0 [])) % 65536 ∧ LinkFree sHost ∧
    hlState (putRegs State.reset [(aHlStatus, 2 ^ 62)]) = 1 ∧ DmaQuiet (putRegs State.reset [(aHlStatus, 2 ^ 62)]) ∧
    dqState (putRegs State.reset [(aHlStatus, 2 ^ 62), (aHlDqCtrl 15, 2 ^ 62)]) 15 = 1 := by
  refine ⟨?_, ?_, ?_, ?_, ?_, ?_, ?_, ?_, ?_⟩ <;> first | decide +kernel | exact ⟨by decide, by decide, by decide⟩ |
    (unfold DmaQuiet; decide +kernel)
theorem test_replay :
    ((run (.nop { fr 0 0 0 0 [] with w0 := BitVec.ofNat 64 (5 * 2 ^ 16) }) (withReplay sHost 5 14)).hl.replay.map frSeq) = [6] ∧
    (run (.nak (fr 1 0 0 0 [])) (withReplay sHost 5 14)).hl.tries = 15 ∧
    codes (run .linkReplayTimeout (withReplay sHost 5 15)) = [0xA002] ∧
    (run .nopTimer sHost).hl.unseq.length = 1 := by decide +kernel

/-! ### DMA and events -/
/-- Queue 15 in a state, with HEAD and TAIL, and 16 slots at the last bytes of the last store that hold them, or at a host address. -/
def sDma (st head tail : Nat) (loc : Bool) (x : DmaQ := {}) : State :=
  setDq { putRegs sHost [(aHlDqCtrl 15, st * 2 ^ 62), (aHlDqPtr 15, head * 2 ^ 16 + tail),
    (aHlDqRing 15, (if loc then 2 ^ 63 + (storeTop + 8 - 512) else 0xABC00) + 4 * 2 ^ 52)] with
    hl := { (putRegs sHost []).hl with turn := 15 } } 15 x
/-- A descriptor of OP `op` and NOTE `note`, TAG 7, of `len` bytes at the end of the last store; its token to tile 8191, semaphore 15. -/
def desc (op note len : Nat) : List Word :=
  [BitVec.ofNat 64 (op * 2 ^ 60 + note * 2 ^ 58 + 8191 * 2 ^ 45 + 15 * 2 ^ 41 + 255 * 2 ^ 33 + 7), 0x1000,
    BitVec.ofNat 64 (storeTop + 8 - len), BitVec.ofNat 64 (len * 2 ^ 32)]
def sPiece (op len : Nat) : State := sDma 1 1 1 false { cur := some (desc op 0 len) }
def sEnded (note : Nat) : State := sDma 1 0 1 false { cur := some (desc 1 note 8), pos := 8 }
def ringRec : Rec := { stamp := 0, unit := 0, modId := 0, seq := 0, code := 0x42, fault := false, result := false }
def linkFree (s : State) : Bool := hlUpNow s && s.hl.wait.isEmpty && decide (s.hl.replay.length < 256)
theorem linkFree_of {s : State} (h : linkFree s = true) : LinkFree s := by
  simp only [linkFree, Bool.and_eq_true, List.isEmpty_iff, decide_eq_true_eq] at h
  exact ⟨h.1.1, h.1.2, h.2⟩
def sEvt (head tail lost : Nat) (rep : Reports) : State :=
  { putRegs sHost [(aHlStatus, 2 ^ 63 + lost), (aHlEvtPtr, tail * 2 ^ 16 + head), (aHlEvtRing, 4 * 2 ^ 52)] with rep := rep }

theorem witness_dma_control :
    HostServed (sDma 0 0xFFFF 0xFFFF false) ∧
    (dqState (sDma 0 0xFFFF 0xFFFF false) 15 = 0 ∧ rf (sDma 0 0xFFFF 0xFFFF false) (aHlDqRing 15) 55 52 = 4 ∧
      (15 + 65536 - dqHead (sDma 0 0xFFFF 0xFFFF false) 15) % 65536 ≤ 16 ∧ (16 + 65536 - dqTail (sDma 0 0xFFFF 0xFFFF false) 15) % 65536 = 17) ∧
    (dqBusy (sDma 2 0 0 false) 15 = false ∧ dqBusy (sHrd 8 0) 15 = true) ∧
    (dqState (sDma 1 0xFFFF 0 false) 15 = 1 ∧ dqHead (sDma 1 0xFFFF 0 false) 15 ≠ dqTail (sDma 1 0xFFFF 0 false) 15 ∧
      rbit (sDma 1 0xFFFF 0 false) (aHlDqRing 15) 63 = false ∧ linkFree (sDma 1 0xFFFF 0 false) = true) := by
  exact ⟨⟨by decide +kernel, by decide⟩, by decide +kernel, by decide +kernel, by decide +kernel⟩
theorem test_dma_tail :
    dqState (run (.dqTailWrite .host 15 15) (sDma 0 0xFFFF 0xFFFF false)) 15 = 1 ∧
    codes (run (.dqTailWrite .host 15 16) (sDma 0 0xFFFF 0xFFFF false)) = [0xA012] ∧
    codes (run (.dqTailWrite (.engine cLast) 15 15) (sDma 0 0xFFFF 0xFFFF false)) = [0x9026] := by decide +kernel
theorem test_dma_abort :
    dqState (run (.dqAbort .host 15) (sDma 2 3 5 false)) 15 = 3 ∧ dqHead (run (.dqAbort .host 15) (sDma 2 3 5 false)) 15 = 5 ∧
    codes (run (.dqTailWrite .host 15 5) (run (.dqAbort .host 15) (sDma 2 3 5 false))) = [0xA012] := by decide +kernel
theorem test_dfetch :
    let s := run (.dfetch 15) (sDma 1 0xFFFF 0 false)
    (s.hl.replay.map (fun f => (frTT f, frLen f, frTag f, f.w1))) = [(0x18, 32, 0xF000, 0xABDE0)] ∧ dqHead s 15 = 0 ∧
    (getDq s 15).dfs = [(0xF000, [])] := by decide +kernel

theorem witness_dma_starts :
    (let s := sDma 1 1 1 false { fetched := [desc 1 0 8] }
     dqState s 15 = 1 ∧ (getDq s 15).cur = none ∧ descInvalid (desc 1 0 8) = false ∧ dOp (desc 1 0 8) = 1) ∧
    (descInvalid (desc 2 0 8) = false ∧ dOp (desc 2 0 8) = 2 ∧ descInvalid (desc 3 0 8) = true) ∧
    (let s := { sDma 1 15 16 true with mem := (wrBytes [] (storeTop + 8 - 32) ((desc 1 0 8).flatMap wordLE)) }
     dqHead s 15 ≠ dqTail s 15 ∧ rbit s (aHlDqRing 15) 63 = true ∧
     rf s (aHlDqRing 15) 51 0 + dqHead s 15 % 16 * 32 = storeTop + 8 - 32 ∧ Awake s 8191 ∧
     rdBytes s.mem (storeTop + 8 - 32) 32 = (desc 1 0 8).flatMap wordLE) := by
  refine ⟨by decide +kernel, by decide +kernel, by decide +kernel, by decide +kernel, by decide +kernel,
    ⟨by decide +kernel, by decide +kernel, by decide +kernel⟩, by decide +kernel⟩
theorem test_dma_starts :
    (getDq (run (.h2m 15) (sDma 1 1 1 false { fetched := [desc 1 0 8] })) 15).cur = some (desc 1 0 8) ∧
    (getDq (run (.m2h 15) (sDma 1 1 1 false { fetched := [desc 1 0 8] })) 15).cur = none ∧
    codes (run (.h2m 15) (sDma 1 1 1 false { fetched := [desc 3 0 8] })) = [0xA011] := by decide +kernel
theorem witness_dma_pieces :
    (let s := sPiece 1 513
     dqState s 15 = 1 ∧ s.hl.turn = 15 ∧ s.hl.spent < 4096 ∧ linkFree s = true ∧ dLen (desc 1 0 513) = 513 ∧ hrdBytes s + 512 ≤ 131072) ∧
    Awake (sPiece 2 8) 8191 ∧
    (let s := sEnded 2
     dqState s 15 = 1 ∧ dLen (desc 1 2 8) = 8 ∧ (getDq s 15).hrds = [] ∧ hwrOut s 15 = false ∧ dqHead s 15 ≠ dqTail s 15 ∧
     fld ((desc 1 2 8).getD 0 0) 57 45 = 8191 ∧ TakesTokens s 8191 ∧ (getTile s 8191).semVal 15 + 255 ≤ 65535) := by
  refine ⟨by decide +kernel, ⟨by decide +kernel, by decide +kernel, by decide +kernel⟩, by decide +kernel, by decide +kernel, by decide +kernel,
    by decide +kernel, by decide +kernel, by decide +kernel, ⟨by decide +kernel, by decide +kernel, by decide +kernel⟩, by decide +kernel⟩
theorem test_hrd :
    let s := run (.hrd 15) (run (.hrd 15) (sPiece 1 513))
    (s.hl.replay.map (fun f => (frTT f, frLen f, frTag f, f.w1))) = [(0x19, 512, 0xF000, 0x1000), (0x19, 1, 0xF001, 0x1200)] ∧
    s.hl.spent = 513 := by decide +kernel
theorem test_hwr :
    (run (.hwr 15) { sPiece 2 8 with mem := [(storeTop, 9)] }).hl.replay.map (fun f => (frTT f, frLen f, f.w1, f.body)) =
      [(0x1B, 8, 0x1000, [9, 0, 0, 0, 0, 0, 0, 0])] := by decide +kernel
theorem test_dma_note :
    (getTile (run (.dmaDescriptorComplete 15) (sEnded 2)) 8191).semVal 15 = 255 ∧
    (run (.dmaDescriptorComplete 15) (sEnded 1)).rep.raised.map (fun r => (r.unit, r.tag)) = [(0x1F, 7)] := by decide +kernel

theorem witness_events :
    (let s := sEvt 0xFFFF 14 0 { raised := [ringRec] }
     hlUpNow s = true ∧ (evtTail s + 65536 - evtHead s) % 65536 = 15 ∧ ringSlots (rf s aHlEvtRing 55 52) = 16 ∧ rf s aHlStatus 15 0 = 0 ∧
     linkFree s = true) ∧
    (let s := sEvt 0xFFFF 15 0 { raised := [ringRec], kept := List.replicate 255 ringRec }
     (evtTail s + 65536 - evtHead s) % 65536 = 16 ∧ s.rep.kept.length < 256) ∧
    (List.replicate 256 ringRec).length = 256 ∧ (∀ k ∈ List.replicate 256 ringRec, k.remote = false) := by
  refine ⟨by decide +kernel, by decide +kernel, by decide +kernel, ?_⟩
  intro k h; rw [List.eq_of_mem_replicate h]; rfl
theorem test_event :
    evtTail (run .event (sEvt 0xFFFF 14 0 { raised := [ringRec] })) = 15 ∧
    (run .event (sEvt 0xFFFF 14 0 { raised := [ringRec] })).hl.replay.map (fun f => (frTT f, frLen f, f.body.length)) = [(0x20, 64, 64)] ∧
    (run .event (sEvt 0xFFFF 15 0 { raised := [ringRec] })).rep.kept = [ringRec] := by decide +kernel
theorem test_event_head :
    evtHead (run (.eventHeadWrite .host 14) (sEvt 0xFFFF 14 0 {})) = 14 ∧
    codes (run (.eventHeadWrite .host 15) (sEvt 0xFFFF 14 0 {})) = [0xA012] := by decide +kernel

/-! ### The Chanter -/
/-- Group 255 of lane 3, GEN 7, chunks of 512 bytes. -/
def chnCtrl : Nat := 2 ^ 63 + 3 * 2 ^ 61 + 7 * 2 ^ 24
/-- An entry of group 255, TAG 1, from the last 8 bytes of the last store to those of the first. -/
def chEntry (op ty rop w3 : Nat) (inA : Nat := storeTop) (more : Nat := 0) : ChEntry :=
  { w0 := BitVec.ofNat 64 (op * 2 ^ 60 + ty * 2 ^ 56 + rop * 2 ^ 54 + 255 * 2 ^ 35 + more * 2 ^ 16 + 1), w1 := BitVec.ofNat 64 inA,
    w2 := BitVec.ofNat 64 (8191 * 2 ^ 48 + 0x02000003FFF8), w3 := BitVec.ofNat 64 w3 }
def sLane (e : ChEntry) (regs : List (Nat × Nat) := []) : State :=
  setLane { putRegs sFabric ((aChnGrpCtrl 255, chnCtrl) :: (aChnGrpStage 255, 0x020000000000) :: regs) with mem := [(storeTop, 5), (storeTop + 7, 7)] } 3 { queue := [e] }
/-- Rank 1 of two modules along X, the peer being rank 0. -/
def rankOne : List (Nat × Nat) :=
  [(aFabCfg, 2 ^ 63 + 2 ^ 62 + 2 ^ 43 + 0x113), (aChnGrpCtrl 255, chnCtrl + 2 ^ 51), (aChnGrpBlk 255, 2 * 2 ^ 53 + 2 ^ 48),
    (aChnMap 0, 0x212), (aChnMap 32, 0x113)]
def reshard : List (Nat × Nat) :=
  [(aChnRsd 15 0, 0x0002000100010001), (aChnRsd 15 1, 0x0101010101010101), (aChnRsd 15 2, 0x1B1B000000000000),
    (aChnRsd 15 3, 4 * 2 ^ 32), (aChnRsd 15 5, 4 * 2 ^ 32)]
def canCollect (s : State) (l : Nat) (e : ChEntry) : Bool :=
  decide ((getLane s l).queue = [e]) && decide (e.waitCnt = 0) && decide (fld e.w0 34 33 = 0) && !dieIsolated s (8 + l) &&
    domOn s (96 + 4 * l + 1) && idValid s && decide (grpOutst s e.group < 8) && decide (laneInflight s l < 16) &&
    bit (regGet s (aChnGrpCtrl e.group)) 63 && decide (ctrlLane (regGet s (aChnGrpCtrl e.group)) = l) &&
    !ctrlLocv (regGet s (aChnGrpCtrl e.group)) && !ctrlMcen (regGet s (aChnGrpCtrl e.group)) && s.chn.colls.isEmpty && s.chn.early.isEmpty &&
    !heldBack s ((newColl s l e (grpNext s e.group)).spans s)
theorem canCollect_of {s : State} {l : Nat} {e : ChEntry} (h : canCollect s l e = true) : CanCollect s l e [] := by
  simp only [canCollect, Bool.and_eq_true, decide_eq_true_eq, Bool.not_eq_true', List.isEmpty_iff] at h
  obtain ⟨⟨⟨⟨⟨⟨⟨⟨⟨⟨⟨⟨⟨⟨h1, h2⟩, h3⟩, h4⟩, h5⟩, h6⟩, h7⟩, h8⟩, h9⟩, h10⟩, h11⟩, h12⟩, h13⟩, h14⟩, h15⟩ := h
  exact ⟨h1, h2, h3, ⟨h4, h5⟩, h6, ⟨h7, h8⟩, ⟨h9, h10, h11, h12⟩, by simp [h13], by simp [h14], h15⟩

theorem witness_collectives :
    CanCollect (sLane (chEntry 3 0 0 (2 * 2 ^ 32))) 3 (chEntry 3 0 0 (2 * 2 ^ 32)) [] ∧
    CanCollect (sLane (chEntry 1 5 2 (2 * 2 ^ 32))) 3 (chEntry 1 5 2 (2 * 2 ^ 32)) [] ∧
    CanCollect (sLane (chEntry 7 0 0 0 0)) 3 (chEntry 7 0 0 0 0) [] ∧
    CanCollect (sLane (chEntry 8 0 0 (15 * 2 ^ 32)) reshard) 3 (chEntry 8 0 0 (15 * 2 ^ 32)) [] ∧
    CanCollect (sLane (chEntry 7 0 0 0 0) rankOne) 3 (chEntry 7 0 0 0 0) [] ∧
    CanCollect (sLane (chEntry 7 0 0 0 0 1)) 3 (chEntry 7 0 0 0 0 1) [] ∧
    Alone (sLane (chEntry 3 0 0 (2 * 2 ^ 32))) 255 ∧
    slotFor (sLane (chEntry 1 5 2 (2 * 2 ^ 32))) 255 0 = some 0 ∧
    stageAt (sLane (chEntry 1 5 2 (2 * 2 ^ 32))) 255 0 1 0 (BitVec.ofNat 64 chnCtrl) = 0x020000000000 ∧ (2 * typeSize 0 = 8 ∧ 2 * typeSize 5 = 8 ∧ (8 : Nat) ≤ ctrlChunk (BitVec.ofNat 64 chnCtrl)) ∧
    Awake (sLane (chEntry 3 0 0 (2 * 2 ^ 32))) 8191 ∧ Awake (sLane (chEntry 3 0 0 (2 * 2 ^ 32))) 0 ∧
    (rankIn (axesOf (sLane (chEntry 7 0 0 0 0) rankOne) 255 (regGet (sLane (chEntry 7 0 0 0 0) rankOne) (aChnGrpCtrl 255))) 0).getD 0 = 1 := by
  refine ⟨canCollect_of ?_, canCollect_of ?_, canCollect_of ?_, canCollect_of ?_, canCollect_of ?_, canCollect_of ?_, ?_, ?_, ?_, ?_,
    ⟨?_, ?_, ?_⟩, ⟨?_, ?_, ?_⟩, ?_⟩ <;> try decide +kernel
  unfold Alone; decide +kernel
theorem witness_collectives_wait :
    (let e := chEntry 6 0 0 (2 * 2 ^ 32 + 3 * 2 ^ 28 + 255 * 2 ^ 20)
     entryTiles (sLane e) e = [8191] ∧ e.got = [] ∧ (getTile (sLane e) 8191).semVal e.waitSem < e.waitCnt) ∧
    8 ≤ grpOutst (sLane (chEntry 3 0 0 (2 * 2 ^ 32)) [(aChnGrpStat 255, 8 * 2 ^ 44)]) 255 := by decide +kernel
def outOf (s : State) : List Byte := rdBytes s.mem 0x02000003FFF8 8
theorem test_collectives :
    outOf (run (.allgather 3) (sLane (chEntry 3 0 0 (2 * 2 ^ 32)))) = [5, 0, 0, 0, 0, 0, 0, 7] ∧
    outOf (run (.alltoall 3) (sLane (chEntry 6 0 0 (2 * 2 ^ 32)))) = [5, 0, 0, 0, 0, 0, 0, 7] ∧
    outOf (run (.reshard 3) (sLane (chEntry 8 0 0 (15 * 2 ^ 32)) reshard)) = [5, 0, 0, 0, 0, 0, 0, 7] := by decide +kernel
theorem test_reduce :
    outOf (run (.reduceScatter 3) (sLane (chEntry 2 5 2 (2 * 2 ^ 32)))) = [5, 0, 0, 0, 0, 0, 0, 7] := by decide +kernel
theorem test_collective_invalid :
    codes (run (.barrier 3) (sLane (chEntry 7 0 0 0 0 1))) = [0x6002] := by decide +kernel
theorem test_chk_sent :
    (run (.barrier 3) (sLane (chEntry 7 0 0 0 0) rankOne)).fab.held.map (fun h => (pkDst h.pkt, pkOpc h.pkt, pkFlow h.pkt, pkOpid h.pkt,
      fld h.pkt.w3 63 48, h.pkt.payload.length)) = [(0x212, 0x20, 0xFF07, 0, 1, 32)] := by decide +kernel

/-- A collective in flight of this module, rank 0, and the peer. -/
def coll (op ty count : Nat) : Coll :=
  { grp := 255, seq := 9, lane := 3, cmd := chEntry op ty 0 (count * 2 ^ 32 + 15 * 2 ^ 16 + 255 * 2 ^ 8) (if op = 7 then 0 else storeTop),
    ctrl := BitVec.ofNat 64 (chnCtrl + 2 ^ 51), mods := [0x113, 0x212], me := 0 }
def sColl (c : Coll) : State :=
  { putRegs sFabric [(aChnGrpCtrl 255, chnCtrl + 2 ^ 51), (aChnGrpStat 255, 10 * 2 ^ 48 + 2 ^ 44), (aFabTimer, 2), (aChnGrpStage 255, 0x020000000000)] with chn := { colls := [c] } }
def colPkt (kind rank addr : Nat) (bs : List Byte) (gen : Nat := 7) (seq : Nat := 9) : Packet :=
  pkt 0x113 0x212 2 0x20 (255 * 256 + gen) seq (kind * 4096) (BitVec.ofNat 64 (rank * 2 ^ 48 + addr)) bs
/-- The coordinator's own record is there. -/
def checked (c : Coll) : Coll := { c with chks := [⟨0, 0, 0, c.chkBytes⟩] }
def halfSum : Coll :=
  { coll 2 5 4 with sent := [(0, 1), (1, 1)], segs := [(131072, [⟨0, [1, 0, 0, 0, 255, 255, 255, 255]⟩])], cred := [] }

/-- With this module's own contribution in slot 9 mod 8 of the staging area. -/
def sHalf : State :=
  let s := sColl halfSum
  { s with mem := wrBytes [] 0x020000000800 [1, 0, 0, 0, 255, 255, 255, 255], chn := { s.chn with slots := [(255, 1, 9)] } }

theorem witness_col_packets :
    TakenIn (sColl (coll 7 0 0)) 3 (colPkt 0 1 0 (coll 7 0 0).chkBytes) ∧
    (let p := colPkt 6 1 0xFFFF []
     let s := sColl (coll 1 0 2)
     pkMc p = false ∧ pkDst p = moduleId s ∧ pkOpc p = 0x20 ∧ pkKind p = 6 ∧ bit (regGet s (aChnGrpCtrl (pkGroup p))) 63 = true ∧
     ctrlGen (regGet s (aChnGrpCtrl (pkGroup p))) = pkGen p ∧ collOf s (pkGroup p) (pkSeq p) = some (coll 1 0 2) ∧
     heldBack s ((coll 1 0 2).spans s) = false) ∧
    ((coll 7 0 0).chks.length + 1 < (coll 7 0 0).nmod ∧ (checked (coll 7 0 0)).chks.length + 1 = (checked (coll 7 0 0)).nmod ∧
     (coll 7 0 0).empty = true ∧ (coll 1 0 2).empty = false ∧ rf (sColl (coll 7 0 0)) (aChnGrpStat 255) 15 0 = 0) ∧
    ((coll 3 0 2).cmd.reduces = false ∧ (coll 1 0 0).reduces = false ∧ (coll 1 0 2).reduces = true) := by
  refine ⟨⟨?_, ?_, ?_, ?_, ?_, ?_, ?_⟩, ?_, ?_, ?_⟩ <;> decide +kernel
theorem witness_col_data :
    (let c := halfSum
     let p := colPkt 2 1 0 [2, 0, 0, 0, 3, 0, 0, 0]
     c.used = 0 ∧ (∀ d < 2, tget 0 c.sent d = 1) ∧ tget [] c.segs (2 * 65536) = [⟨0, [1, 0, 0, 0, 255, 255, 255, 255]⟩] ∧
     tget [] c.segs (2 * 65536 + 1) = [] ∧ p.payload.length = 4 * (c.cmd.count / 2 + c.cmd.count % 2) ∧ pkAttempt p = 0 ∧
     4 * 2 ≤ ctrlChunk c.ctrl ∧ c.mods.getD 1 0 ≠ moduleId (sColl c) ∧ twf [] c.segs = true ∧
     stageSlot sHalf c.grp c.seq = some 1 ∧ stageAt sHalf c.grp 1 2 0 c.ctrl = 0x020000000800 ∧ 0x800 + 4 * ctrlChunk c.ctrl ≤ 0x40000 ∧
     rdBytes sHalf.mem (stageAt sHalf c.grp 1 2 0 c.ctrl) 8 = [1, 0, 0, 0, 255, 255, 255, 255]) ∧
    Awake sHalf 0 ∧ Awake sHalf 8191 ∧
    (let c := { coll 1 5 0 with used := 1 }
     (c.chunks c.me).length ≤ c.used ∧ ∀ d < c.nmod, (c.chunks d).length ≤ tget 0 c.sent d) := by
  refine ⟨by decide +kernel, ⟨?_, ?_, ?_⟩, ⟨?_, ?_, ?_⟩, by decide +kernel⟩ <;> decide +kernel
theorem test_chk :
    (collOf (run (.chk 3 (colPkt 0 1 0 (coll 7 0 0).chkBytes)) (sColl (checked (coll 7 0 0)))) 255 9).map Coll.rel = some true ∧
    codes (run (.chk 3 (colPkt 0 1 0 [])) (sColl (checked (coll 7 0 0)))) = [0x6010] ∧
    codes (run (.chk 3 (colPkt 0 1 0 [] 8)) (sColl (coll 7 0 0))) = [0x6011] ∧
    codes (run (.colPacket 3 (colPkt 8 1 0 [])) (sColl (coll 7 0 0))) = [0x4014] := by decide +kernel
theorem test_data1 :
    outOf (run (.data1 3 (colPkt 2 1 0 [2, 0, 0, 0, 3, 0, 0, 0])) sHalf) = [3, 0, 0, 0, 2, 0, 0, 0] ∧
    rdBytes (run (.data1 3 (colPkt 2 1 0 [2, 0, 0, 0, 3, 0, 0, 0])) sHalf).mem 0x020000000C00 8 = [2, 0, 0, 0, 3, 0, 0, 0] := by
  decide +kernel
/-- R375, R385: early packets of sequence number 10, DATA1 in staging slot 2 and DATA2 at its address. -/
theorem witness_early :
    collOf (sColl halfSum) 255 10 = none ∧ (10 + 65536 - grpNext (sColl halfSum) 255) % 65536 < 32768 ∧
    (let s := putRegs (sColl halfSum) rankOne
     let w := regGet s (aChnGrpCtrl 255)
     ctrlLocv w = false ∧ slotFor s 255 10 = some 2 ∧ stageAt s 255 2 (groupMods s 255 w).length 0x212 w ≠ 0 ∧
     0 + 2 ≤ 2 * ctrlChunk w) := by decide +kernel
/-- R268: the last store's cluster is stopped, so that a packet of a collective that reads it waits, as a command's start does. -/
def sStopped (s : State) : State := setCluster s (clusterOf 8191) { getCluster s (clusterOf 8191) with clk := .stopped }
theorem witness_col_waits :
    (let s := sStopped (sColl (coll 3 0 1))
     heldBack s ((coll 3 0 1).spans s) = true ∧ collOf s 255 9 = some (coll 3 0 1)) ∧
    (let e := chEntry 3 0 0 (2 * 2 ^ 32)
     let s := sStopped (sLane e)
     heldBack s ((newColl s 3 e (grpNext s 255)).spans s) = true) := by decide +kernel
theorem test_col_waits :
    (run (.rel 3 (colPkt 1 1 0 [])) (sStopped (sColl (coll 3 0 1)))).waits.length = 1 ∧
    (run (.allgather 3) (sStopped (sLane (chEntry 3 0 0 (2 * 2 ^ 32))))).chn.colls = [] := by decide +kernel
/-- R365: a collective takes a free slot where that of its number modulo 8 is in use. -/
theorem test_staging_slot :
    slotFor { sColl halfSum with chn := { colls := [halfSum], slots := [(255, 2, 2), (255, 1, 9)] } } 255 10 = some 0 := by decide +kernel
theorem test_early :
    let d := run (.data1 3 (colPkt 2 1 0 [2, 4] 7 10)) (putRegs (sColl halfSum) rankOne)
    rdBytes d.mem 0x020000001400 2 = [2, 4] ∧ d.chn.early.map (fun e => e.put) = [some 0] ∧
    outOf (run (.data2 3 (colPkt 4 1 0x02000003FFF8 [9] 7 10)) (sColl halfSum)) = [9, 0, 0, 0, 0, 0, 0, 0] ∧
    (run (.chk 3 (colPkt 0 1 0 [] 7 10)) (sColl halfSum)).chn.early.length = 1 := by decide +kernel
theorem test_data2 :
    outOf (run (.data2 3 (colPkt 4 1 0x02000003FFF8 [9, 8, 7, 6, 5, 4, 3, 2])) (sColl (coll 3 0 1))) = [9, 8, 7, 6, 5, 4, 3, 2] ∧
    outOf (run (.xdata 3 (colPkt 7 1 0x02000003FFF8 [9, 8, 7, 6, 5, 4, 3, 2])) (sColl (coll 6 0 1))) = [9, 8, 7, 6, 5, 4, 3, 2] := by
  decide +kernel
theorem test_rel_cred_resend :
    (collOf (run (.rel 3 (colPkt 1 1 0 [])) (sColl (coll 3 0 1))) 255 9).map Coll.rel = some true ∧
    (collOf (run (.cred 3 (colPkt 3 1 5 [])) (sColl (coll 3 0 1))) 255 9).map (fun c => tget 0 c.cred 1) = some 5 ∧
    (run (.resend 3 (colPkt 5 1 0 [3])) (sColl { coll 2 5 4 with used := 6 })).fab.held.map (fun h =>
      (pkDst h.pkt, pkOpid h.pkt, fld h.pkt.w3 47 0)) = [(0x212, 0x3000, 6)] := by decide +kernel
theorem test_fail : codes (run (.fail 3 (colPkt 6 1 0x6020 [])) (sColl (coll 7 0 0))) = [0x6020] ∧
    grpOutst (run (.fail 3 (colPkt 6 1 0x6020 [])) (sColl (coll 7 0 0))) 255 = 0 := by decide +kernel

theorem witness_chanter_control :
    HostServed sFabric ∧ (∀ d < 4, dieIsolated sFabric (8 + d) = false) ∧ chnEnableBad sFabric 255 (setBit 0 63 true) = false ∧
    grpOutst (sColl (coll 7 0 0)) 255 ≠ 0 ∧
    (let c := { coll 3 0 0 with rel := true }
     let s := sColl c
     collOf s 255 9 = some c ∧ c.complete = true ∧ ctrlLocv c.ctrl = false ∧ c.cmd.stile = 8191 ∧ c.cmd.mute = false ∧
     (getTile s 8191).semVal c.cmd.sigSem + c.cmd.sigCnt = 255) ∧ TakesTokens (sColl (coll 3 0 0)) 8191 ∧
    (let c := { coll 3 0 1 with segs := [(4 * 65536 + 1, [⟨0, [1]⟩])] }
     c.begun 4 1 = true ∧ c.phaseDone 4 1 = false ∧ (1 : Nat) < c.nmod ∧ rf (sColl c) aFabTimer 1 0 = 2) ∧
    isNeighbour (putRegs sFabric [(aBelPeer 5, 2 ^ 63 + 0x212)]) 0x212 = true := by
  refine ⟨⟨by decide +kernel, by decide +kernel⟩, by decide +kernel, by decide +kernel, by decide +kernel, by decide +kernel, ⟨?_, ?_, ?_⟩,
    by decide +kernel, by decide +kernel⟩ <;> decide +kernel
theorem test_chanter_push :
    (run (.chanterPush 3 (2 ^ 63) 0 0 0 .host) sFabric).reply.1 = 0 ∧ (run (.chanterPush 3 0 0 0 0 .host) sFabric).reply.1 = 8 ∧
    (run (.chanterPush 3 (2 ^ 63 + 2 ^ 60) 0 0 0 .host) sFabric).reply.1 = 8 ∧
    (getLane (run (.chanterPush 3 (2 ^ 63) 0 0 0 .host) sFabric) 3).queue.length = 1 := by decide +kernel
theorem test_chn_groups :
    rbit (run (.groupEnable .host 255 0) sFabric) (aChnGrpCtrl 255) 63 = true ∧
    codes (run (.groupEnable .host 255 0) (sColl (coll 7 0 0))) = [0x6001] ∧
    codes (run (.groupDisable .host 255 0) (sColl (coll 7 0 0))) = [0x6001] := by decide +kernel
theorem test_lane_abort :
    (getLane (run (.laneAbort .host 3) (sLane (chEntry 7 0 0 0 0))) 3).queue = [] ∧
    (getLane (run (.laneAbort .host 3) (sLane (chEntry 7 0 0 0 0))) 3).aborting = true ∧
    (run (.chanterPush 3 (2 ^ 63) 0 0 0 .host) (run (.laneAbort .host 3) (sLane (chEntry 7 0 0 0 0)))).reply.1 = 3 ∧
    codes (run (.laneAbort .host 3) (sColl (coll 7 0 0))) = [0x6031] := by decide +kernel
theorem witness_tile_lost :
    let c := { coll 7 0 0 with tiles := [8190] }
    (sColl c).chn.colls = [c] ∧ c.ended = false ∧ 8190 ∈ c.tiles ∧ tileCode (sColl c) 8190 = 0 := by decide +kernel
theorem test_tile_lost : codes (run (.tileReset .host 8190) (sColl { coll 7 0 0 with tiles := [8190] })) = [0x6030] := by decide +kernel
theorem witness_not_served : dieIsolated (sLane (chEntry 7 0 0 0 0) [(aTenDieStatus 11, 2 ^ 60)]) 11 = true := by decide +kernel
theorem test_collective_complete :
    (getTile (run (.collectiveComplete 255 9) (sColl { coll 3 0 0 with rel := true })) 8191).semVal 15 = 255 ∧
    grpOutst (run (.collectiveComplete 255 9) (sColl { coll 3 0 0 with rel := true })) 255 = 0 := by decide +kernel
theorem test_phase_gap :
    codes (run (.phaseGapTimeout 255 9 4 1) (sColl { coll 3 0 1 with segs := [(262145, [⟨0, [1]⟩])] })) = [0x6021] ∧
    codes (run (.phaseGapTimeout 255 9 4 1) (sColl { coll 3 0 1 with att := [(262145, 2)] })) = [0x6020] := by decide +kernel

/-! ### Management paths, power and resets -/
def sMgt : State := putRegs State.reset [(aMgtSite, 2 ^ 62 + 2 ^ 60), (aSecCtrl, 2), (aThmCtrl, 90 * 2 ^ 56)]
/-- A module without the Drone domain. -/
def sDark : State := { State.reset with pins := { input := false, drone := false, core := false, pwrGood := false } }
def quiet : Sample := { dies := [], stackT := [40], bells := [20, 30], vin := 0, iin := 0, power := 0 }
theorem witness_management :
    State.reset.pins.drone = true ∧ sDark.pins.drone = false ∧ ({ sMgt with thm := { hist := [quiet] } } : State).thm.hist.head? = some quiet ∧
    (0x0FE0 % 32 = 0 ∧ (0x0FE1 : Nat) % 32 ≠ 0 ∧ (4096 : Nat) ≤ 0x1000) ∧
    (rbit sMgt aMgtSite 60 = true ∧ rbit sMgt aMgtSite 62 = true) ∧ MgtReach aMgtKfn ∧ areaOf aParamId 8 = some .ctl ∧
    (ctlRead sMgt .mgmt aParamId).2.2.pins.drone = true ∧ (ctlWrite sMgt .mgmt aMgtKfn 1).2.pins.drone = true ∧
    rbit sMgt aSecCtrl 1 = true ∧ rbit State.reset aSecCtrl 1 = false ∧ Awake sMgt 8191 ∧ HostServed sMgt := by
  refine ⟨by decide, by decide, rfl, by decide, by decide +kernel, .inr (.inr (.inr (.inr rfl))), by decide +kernel, by decide +kernel,
    by decide +kernel, by decide +kernel, by decide +kernel, ⟨?_, ?_, ?_⟩, ?_, ?_⟩ <;> decide +kernel
/-- SLOT_ID is 7 at reset, so the module's SMBus address is 0x5F. -/
def cmd (code : Byte) (pec : Option Byte := none) : SmbCmd := { addr := 0x5F, code := code, pec := pec }
def troff (v : BitVec 16) (code : Byte := 4) (addr : BitVec 7 := 0x5F) : Instr := .troff { addr := addr, code := code, value := v }
def mask (w : Option Byte) (pec : Option Byte := none) : Instr := .alertmask { addr := 0x5F, code := 5, pec := pec, write := w }
def smb (c : Instr) (s : State) : List (List Byte) := (run c s).mgt.smbOut.map (fun x => x.1)
theorem witness_smbus :
    State.reset.pins.slot.toNat = 7 ∧ SmbTo State.reset (cmd 4) 4 ∧ PecRight State.reset (cmd 4) [0xE0, 0x0F] ∧
    PecRight State.reset (cmd 5 (some (smbPec [0xBE, 5, 3]))) [3] ∧ ¬PecRight State.reset (cmd 5 (some (smbPec [0xBE, 5, 2]))) [3] ∧
    State.reset.mgt.alert = true ∧ AlertStands State.reset 2 := by
  refine ⟨by decide, ⟨by decide, by decide⟩, .inl rfl, .inr (by decide), ?_, by decide, .inr (.inr (.inl ⟨rfl, by decide +kernel⟩))⟩
  rintro (h | h) <;> revert h <;> decide
theorem test_smbus :
    smb .smbusStatus State.reset = [[0x71, 0]] ∧ (run (troff 0x0FE0) State.reset).mgt.smbOff = 0xFE0 ∧
    smb (troff 0x1000) State.reset = [[]] ∧ smb (troff 0x10) State.reset = [[]] ∧ smb (troff 0 6) State.reset = [[]] ∧
    (smb .trdata State.reset).map List.length = [32] ∧ run .smbusStatus sDark = sDark ∧
    run (troff 0x20 4 0x5E) State.reset = State.reset := by decide +kernel
/-- The check value of CRC-8 with x^8 + x^2 + x + 1: 0xF4 for the digits 1 to 9. -/
theorem test_pec :
    smbPec [0x31, 0x32, 0x33, 0x34, 0x35, 0x36, 0x37, 0x38, 0x39] = 0xF4 ∧
    (run .smbusStatus State.reset).mgt.smbOut = [([0x71, 0], smbPec [0xBE, 1, 0xBF, 0x71, 0])] ∧
    smb (mask (some 3) (some 0)) State.reset = [[]] := by decide +kernel
theorem test_ident : (smb .ident State.reset).map List.length = [32] ∧
    ((smb .temps { sMgt with thm := { hist := [quiet] } }).map (fun l => (l.getD 12 0, l.getD 13 0, l.getD 15 1))) = [(40, 30, 0)] := by
  decide +kernel
theorem test_alert :
    smb (mask none) { State.reset with mgt := { smbMask := 5 } } = [[5]] ∧
    smb .alertResponseAddress State.reset = [[0xBE]] ∧ (run .alertResponseAddress State.reset).mgt.alert = true ∧
    (run .alertResponseAddress (run (mask (some 0)) State.reset)).mgt.alert = false := by decide +kernel
/-- A datagram of a TYPE and body, from address 2, or as given. -/
def dg (type : Byte) (bs : List Byte) (sender : BitVec 128 := 2) (ver : Byte := 1) : Datagram :=
  { sender := sender, data := natLE 2 0x4E38 ++ [ver, type] ++ List.replicate 12 0 ++ bs }
theorem witness_datagrams :
    (∀ a, Carries (dg 3 (wordLE a)) 3 (wordLE a)) ∧ Carries (dg 3 (List.replicate 520 0)) 3 (List.replicate 520 0) ∧
    (∀ x, ¬Carries (dg 3 [] 2 2) 3 x) ∧ (dg 5 [] 0).sender = BitVec.ofNat 128 ((regGet sMgt aMgtFmHi).toNat * 2 ^ 64 + (regGet sMgt aMgtFmLo).toNat) := by
  refine ⟨fun a => ⟨rfl, rfl, ?_, List.replicate 12 0, rfl, rfl⟩, ⟨rfl, rfl, by decide +kernel, List.replicate 12 0, rfl, rfl⟩, ?_, by decide +kernel⟩
  · simp [dg, wordLE, natLE]
  · rintro x ⟨-, -, -, h, -, e⟩
    have := congrArg (fun l => l.getD 2 0) e
    revert this; simp [dg, natLE]
/-- A WRITE of 1 to MGT_KFN. -/
def kfn : List Byte := (dg 5 (wordLE (BitVec.ofNat 64 aMgtKfn) ++ wordLE 1)).data
def sentBy (s : State) : List (Nat × BitVec 128 × List Byte) := s.mgt.sent.map (fun m => (m.type, m.dest, m.body))
theorem test_management :
    sentBy (run (.mgtRead (dg 3 (wordLE topW))) { sMgt with mem := [(storeTop, 9)] }) = [(4, 2, [0, 0, 9, 0, 0, 0, 0, 0, 0, 0])] ∧
    (sentBy (run (.mgtRead (dg 3 (wordLE topW))) State.reset)).map (fun m => m.2.2.take 2) = [[0x29, 0x90]] ∧
    sentBy (run (.mgtRead (dg 3 (List.replicate 520 0))) sMgt) = [] ∧ run (.mgtRead (dg 3 [] 2 2)) sMgt = sMgt := by decide +kernel
theorem test_management_write :
    sentBy (run (.mgtWrite 0 (24880, 24880) kfn) State.reset) = [(6, 0, [0x40, 0xA0])] ∧
    sentBy (run (.mgtWrite 1 (24880, 24880) kfn) sMgt) = [(6, 1, [0x40, 0xA0])] ∧
    sentBy (run (.mgtWrite 0 (24880, 24880) kfn) sMgt) = [(6, 0, [0, 0])] := by decide +kernel
theorem test_trec : (sentBy (run (.trec (dg 7 (natLE 2 4000))) State.reset)).map (fun m => (m.1, m.2.2.length)) = [(8, 96)] ∧
    (sentBy (run .hello State.reset)).map (fun m => (m.1, m.2.1, m.2.2.length)) = [(1, BitVec.ofNat 128 (0xFF02 * 2 ^ 112 + 1), 26)] := by
  decide +kernel
/-- All that R412 asks: an ID named by the four board registers and the map, no Bell in use. -/
def sSite : State := putRegs State.reset [(aFabCfg, 2 ^ 62 + 0x113), (aFabBoard, 0x0113011301130113), (aChnMap 0, 0x113)]
theorem witness_site :
    HostServed sSite ∧ (∀ k, ¬SiteFails sSite k) ∧ SiteFails (putRegs sSite [(aFabBoard, 0)]) 1 := by
  refine ⟨⟨by decide +kernel, by decide⟩, ?_, .inl ⟨rfl, .inr (by decide +kernel)⟩⟩
  rintro k (⟨-, h⟩ | ⟨-, h⟩ | ⟨-, h⟩ | ⟨-, h, -⟩) <;> revert h <;> decide +kernel
theorem test_site :
    rbit (run (.siteDone .host (2 ^ 61)) sSite) aMgtSite 62 = true ∧
    (run (.siteDone .host (2 ^ 61)) (putRegs sSite [(aChnMap 0, 0)])).rep.raised.map (fun r => (r.code.toNat, r.a0.toNat)) = [(0xA031, 2)] := by
  decide +kernel

theorem witness_input :
    NoCommand State.reset ∧ NoCommand sDark ∧ sDark.pins.core = false ∧
    (let s := { sDark with pins := { sDark.pins with input := true } }
     s.pins.input = true ∧ (s.pins.drone = false ∨ s.pins.powerLost = true)) ∧
    ((6251 : BitVec 16).toNat = 6251 ∧ State.reset.pins.powerLost = false ∧ ∀ c ∈ State.reset.sto.commits, c.nvs = false) := by
  refine ⟨rfl, rfl, rfl, ⟨rfl, .inl rfl⟩, rfl, rfl, by decide⟩
theorem test_input :
    codes (run .inputLowBand State.reset) = [0x8010] ∧ codes (run .inputHighBand State.reset) = [0x8013] ∧
    (run .inputRise46v sDark).pins.input = true ∧ run (.inputOvervoltage 6250) State.reset = State.reset ∧
    codes (run (.inputOvervoltage 7001) State.reset) = [0x8011] ∧
    (run .powerLoss (run .inputRise46v (run .powerLoss State.reset))).pins.input = false := by
  refine ⟨by decide +kernel, by decide +kernel, rfl, by decide +kernel, by decide +kernel, by decide +kernel⟩
theorem test_hold_up : run .holdUpExpiry State.reset = State.reset ∧ run (.bulkCapacitanceCharged 5) State.reset = State.reset := by
  decide +kernel

def sPinLow : State := { State.reset with pins := { core := false, pwrGood := false, rstLow := true } }
theorem witness_module_reset :
    ListedOnce State.reset ∧ CoreMay State.reset State.reset.pins ∧ ¬CoreMay State.reset { tripLow := true } ∧
    (sPinLow.pins.want = true ∧ sPinLow.pins.core = false ∧ CoreMay sPinLow { sPinLow.pins with rstLow := false }) := by
  refine ⟨by unfold ListedOnce; decide +kernel, ⟨rfl, rfl, rfl, rfl, rfl, rfl, by intro c h; cases h⟩, by intro h; exact absurd h.2.2.2.1 (by decide),
    rfl, rfl, ⟨rfl, rfl, rfl, rfl, rfl, rfl, by intro c h; cases h⟩⟩
theorem test_core_stage :
    (run .modResetNHigh sPinLow).pins.core = true ∧
    (run .coreRailsInRegulation { State.reset with pins := { pwrGood := false } }).pins.pwrGood = true := by decide +kernel

theorem witness_domains :
    (rf State.reset aVrxState 63 60 ≠ 1 ∧ ListedOnce State.reset) ∧
    (rf State.reset (aPwrDom 95) 63 62 ≠ 2 ∧ rbit State.reset (aPwrDom 91) 0 = true ∧ (95 : Nat) % 12 = 11 ∧ (91 : Nat) % 12 = 7) ∧
    (∀ p < 16, rbit State.reset (aMgtPairCtrl p) 63 = false) ∧
    (∀ t < 8192, ∀ k < 4, ((getTile State.reset t).engine k).queue = [] ∧ ((getTile State.reset t).engine k).running = none) := by
  refine ⟨⟨by decide +kernel, by unfold ListedOnce; decide +kernel⟩, by decide +kernel, by decide +kernel, fun t _ k _ => ⟨rfl, rfl⟩⟩
theorem test_domains :
    codes (run (.domainPowerOff .host 96) State.reset) = [0x8030] ∧ codes (run (.domainPowerOn .host 127) State.reset) = [0x8030] ∧
    codes (run (.domainPowerOff (.engine cLast) 91) State.reset) = [0x9027] ∧
    (getCluster (run (.divisionTakesEffect 63) (setCluster State.reset 63 { divPending := true })) 63).divPending = false := by decide +kernel

/-! ### Heat -/
/-- Every sensor at 50 °C but one of a cluster of die 7 at 110 °C. -/
def warm : Sample :=
  { dies := List.replicate 7 (List.replicate 64 800) ++ [List.replicate 63 800 ++ [1760]] ++ List.replicate 4 (List.replicate 16 800),
    stackT := List.replicate 16 40, bells := [], vin := 5400, iin := 100, power := 500 }
def sWarm : State :=
  { State.reset with thm := { votes := [(7 * 64 + 62, { far := 4 }), (7 * 64 + 54, { far := 4 })]
                              gov := [(63, { level := 8, temps := List.replicate 10 1700 })] } }
theorem witness_calipers :
    State.reset.pins.drone = true ∧ State.reset.drone.tick.toNat % 250 = 0 ∧ (1 : BitVec 52).toNat % 250 ≠ 0 ∧
    nearReadings sWarm warm 7 63 = [800, 800, 800] ∧ rbit sWarm (aThmSens 7 63) 47 = false ∧
    MedianIs [800, 800, 800] 800 ∧ MedianIs [3, 1, 2, 4] 2 ∧
    Greatest [800, 1760] 1760 ∧ (tget {} sWarm.thm.gov 63).temps[0]? = some 1700 ∧ (tget {} sWarm.thm.gov 63).temps[9]? = some 1700 := by
  refine ⟨by decide, by decide, by decide, by decide +kernel, by decide +kernel, by unfold MedianIs; decide, by unfold MedianIs; decide,
    by unfold Greatest; decide, by decide, by decide⟩
/-- Table 15.5 at its borders, SOFT at 90 °C: each row by itself. -/
theorem test_levels :
    newLevel 1440 1536 0 0 False False 0 = 10 ∧ newLevel 1440 1488 1488 0 False False 3 = 9 ∧ newLevel 1440 1488 1489 0 False False 3 = 8 ∧
    newLevel 1440 1440 1440 1440 False False 3 = 4 ∧ newLevel 1440 1280 0 1248 False False 0 = 4 ∧ newLevel 1440 1280 0 1249 False True 3 = 2 ∧
    newLevel 1440 1279 0 0 True True 0 = 2 := by decide

def sHotDie : State := { State.reset with thm := { due := some (11, 15, 1760, 0) } }
def open2 (n : Nat) : State := { State.reset with thm := { wins := [((7, 0x7010), { count := n, first := 1, last := 2 })] } }
/-- A THERMAL record whose first 12 bytes hold the key 0x07070707. -/
def sRecord : State := commitRec State.reset 4 (List.replicate 12 7)
theorem witness_thermal :
    (sHotDie.thm.due = some (11, 15, 1760, 0) ∧ sHotDie.pins.tripLow = false ∧ sHotDie.pins.drone = true ∧ sHotDie.sto.commits = [] ∧
      sHotDie.thm.hist = [] ∧ sHotDie.thm.govHist = []) ∧
    ((open2 3).thm.wins = [] ++ ((7, 0x7010), { count := 3, first := 1, last := 2 }) :: [] ∧ (open2 0).thm.wins ≠ []) ∧
    rf State.reset aVrxState 63 60 ≠ 1 ∧
    (thermalRec sRecord = some (List.replicate 12 7) ∧ leNat (((List.replicate 12 (7 : Byte)).drop 8).take 4) = 0x07070707 ∧
      sRecord.sto.commits = []) ∧ thermalRec State.reset = none ∧
    rbit (putRegs State.reset [(aThmHold, 2 ^ 62)]) aThmHold 62 = true := by
  refine ⟨by decide, by decide, by decide +kernel, by decide +kernel, by decide +kernel, by decide +kernel⟩
theorem test_windows :
    (run (.thermalCoalesceWindowEnd 7 0x7010) (open2 3)).rep.raised.map (fun r => (r.code.toNat, r.unit, r.count)) = [(0x7010, 0x7007, 3)] ∧
    codes (run (.thermalCoalesceWindowEnd 7 0x7010) (open2 0)) = [] := by decide +kernel
theorem test_limits :
    codes (run (.softWrite .host (BitVec.ofNat 64 (106 * 2 ^ 56))) State.reset) = [0x7050] ∧
    codes (run (.capWrite .host (BitVec.ofNat 64 (599 * 2 ^ 32))) State.reset) = [0x8031] ∧
    codes (run (.capWrite .host (BitVec.ofNat 64 (2700 * 2 ^ 32))) State.reset) = [] := by decide +kernel
theorem test_key :
    (run (.keyWrite .host 0x07070707) sRecord).sto.commits.map Commit.clear = [true] ∧
    codes (run (.keyWrite .host 0x07070706) sRecord) = [0x7051] ∧ codes (run (.keyWrite .mgmt 0x07070707) sRecord) = [0x7051] := by
  decide +kernel
theorem test_bellows :
    (getCluster (run (.bellowsHold 1) (setCluster State.reset 0 { skip := 16 })) 0).skip = 16 ∧
    (getCluster (run (.bellowsHold 1) State.reset) 1).skip = 0 ∧
    (getCluster (run .bellowsRelease (setCluster State.reset 0 { skip := 3 })) 0).skip = 2 := by decide +kernel
theorem test_hold_cleared :
    codes (run .thermalHoldCleared (putRegs State.reset [(aThmHold, 3 * 2 ^ 62)])) = [0x7041] ∧
    rbit (run .thermalHoldCleared (putRegs State.reset [(aThmHold, 3 * 2 ^ 62)])) aThmHold 63 = false := by decide +kernel

/-! ### Flash, boot and trust -/
/-- The header of an image with no body, of this module's member, its SVN 0xFFFF, under a key of 64 bytes; slot A holds it and a
    signature. -/
def imageHead (key : List Byte) : List Byte :=
  [0x57, 0x49, 0x52, 0x56, 1, 0, 0, 0, 0, 0, 0, 0, 0xFF, 0xFF, 0, BitVec.ofNat 8 (rf State.reset aParamId 47 40), 0, 0, 0, 0,
    0, 0, 0, 0] ++ (key ++ List.replicate 40 0)
def sImage (key sig : List Byte) : State := flashWrite State.reset 0 (imageHead key ++ sig)
theorem slotImage_head (s : State) (b n : Nat)
    (h : Nat.min 0x1000000 (128 + imgBody (flashRead s (imageSlot b) 128) + sigLen) = 128 + n) :
    (slotImage s b).take 128 = flashRead s (imageSlot b) 128 ∧ (slotImage s b).length = 128 + n := by
  unfold slotImage; simp only [h, flashRead_take, flashRead_length, and_self]
theorem minSvn_le (s : State) : minSvn s ≤ 65535 := by
  unfold minSvn
  split
  · rename_i p _
    rcases p with _ | ⟨x, _ | ⟨y, r⟩⟩ <;> simp [leNat] <;> omega
  · decide
/-- Any signature that R459 accepts, under a key that the boot ROM trusts, makes such an image good: it is the form that
    BootSequence and NvsCommands ask for. -/
theorem witness_boot_image {key sig : List Byte} (hk : key.length = 64) (hs : sig.length = sigLen)
    (ht : shake256 key 32 = Config.imageKeyDigest) (hv : slhVerify slh256s key (imageHead key) sig = true) :
    slotImage (sImage key sig) 0 = imageHead key ++ sig ∧ imageCode (sImage key sig) (imageHead key ++ sig) = 0 := by
  have hl : (imageHead key).length = 128 := by simp [imageHead, hk]
  have hn : (imageHead key ++ sig).length = 128 + sigLen := by rw [List.length_append, hl, hs]
  have hr : flashRead (sImage key sig) 0 (128 + sigLen) = imageHead key ++ sig := by
    rw [← hn]; exact flashRead_flashWrite _ _ _ (by rw [hn]; decide)
  have hh : flashRead (sImage key sig) 0 128 = imageHead key := by
    rw [← flashRead_take _ _ _ sigLen, hr, ← hl, List.take_left]
  have hkey : imgKey (imageHead key) = key := by
    show (key ++ List.replicate 40 0).take 64 = key
    rw [← hk, List.take_left]
  have hb : imgBody (imageHead key) = 0 := by
    show imgBody (imageHead []) = 0
    decide +kernel
  refine ⟨?_, ?_⟩
  · have e : Nat.min 0x1000000 (128 + 0 + sigLen) = 128 + sigLen := by decide
    unfold slotImage
    simp only [show imageSlot 0 = 0 from rfl, hh, hb, e, hr]
  · have ht128 : (imageHead key ++ sig).take 128 = imageHead key := by rw [← hl, List.take_left]
    have hd128 : (imageHead key ++ sig).drop 128 = sig := by rw [← hl, List.drop_left]
    have hg : imageGenuine (sImage key sig) (imageHead key) (imageHead key) sig = true := by
      have h1 : leNat ((imageHead key).take 4) = 0x56524957 := by
        show leNat ((imageHead []).take 4) = 0x56524957
        decide +kernel
      have h2 : leNat (((imageHead key).drop 4).take 4) = 1 := by
        show leNat (((imageHead []).drop 4).take 4) = 1
        decide +kernel
      have h3 : imgMember (imageHead key) = rf (sImage key sig) aParamId 47 40 := by
        show imgMember (imageHead []) = rf State.reset aParamId 47 40
        decide +kernel
      simp [imageGenuine, h1, h2, h3, hb, hkey, keyTrusted, ht, hv, sigLen]
    have hsvn : ¬imgSvn (imageHead key) < minSvn (sImage key sig) := by
      have hx : imgSvn (imageHead key) = 65535 := by
        show imgSvn (imageHead []) = 65535
        decide +kernel
      have := minSvn_le (sImage key sig)
      omega
    simp only [imageCode, ht128, hb, Nat.add_zero, hd128, hn, ← hs, List.take_length, hg]
    rw [if_neg (by simp), if_neg hsvn]
theorem witness_boot_recovery :
    State.reset.pins.core = true ∧ State.reset.pins.pwrGood = true ∧ rf State.reset aVrxState 63 60 = 0 ∧ bootRec State.reset = (0, 0, 0) ∧
    ∀ b < 2, imageCode State.reset (slotImage State.reset b) = 0x9001 := by
  refine ⟨by decide, by decide, by decide +kernel, by decide +kernel, ?_⟩
  intro b hb
  have h4 : leNat ((flashRead State.reset (imageSlot b) 128).take 4) ≠ 0x56524957 := by
    rcases (show b = 0 ∨ b = 1 by omega) with rfl | rfl <;> decide +kernel
  have hn : Nat.min 0x1000000 (128 + imgBody (flashRead State.reset (imageSlot b) 128) + sigLen) = 128 + (0x1000000 - 128) := by
    rcases (show b = 0 ∨ b = 1 by omega) with rfl | rfl <;> decide +kernel
  obtain ⟨h, -⟩ := slotImage_head State.reset b _ hn
  unfold imageCode; simp only [h, imageGenuine]; simp [h4]
/-- A boot record: ACTIVE, TRIAL, TRIED. -/
def sBoot (a t d : Nat) : State := commitRec State.reset 1 (bootBytes a t d)
theorem witness_boot_records :
    bootRec (sBoot 1 1 0) = (1, 1, 0) ∧ bootRec (sBoot 0 1 1) = (0, 1, 1) ∧ rf (sBoot 0 1 1) aVrxState 63 60 = 0 := by decide +kernel

def sCommit (c : Commit) (late : Bool := false) : State :=
  { State.reset with sto := { commits := [c] }, pins := { powerLost := late, core := false, pwrGood := false } }
def calCommit : Commit := { kind := 11, payload := [1, 2, 3], nvs := true }
theorem witness_commits :
    (sCommit calCommit).pins.drone = true ∧ FitsSlot 11 [1, 2, 3] ∧ (thermalRec sRecord).isSome = true ∧
    (List.replicate 4092 (0 : Byte)).length = 4092 := by
  refine ⟨by decide, by unfold FitsSlot; decide, by decide +kernel, List.length_replicate⟩
theorem test_commit :
    recPayload (run .recordCommit (sCommit calCommit)) 11 = some [1, 2, 3] ∧
    curSlot (run .recordCommit (sCommit calCommit)) 11 = some 0 ∧
    curSlot (commitRec (commitRec State.reset 11 [1]) 11 [2]) 11 = some 1 := by decide +kernel
/-- R464: a commit that was asked for after the input was lost never starts; one asked for before goes on. -/
theorem test_late :
    let s := { sCommit calCommit true with sto := { commits := [{ calCommit with late := true }, calCommit] } }
    (run .recordCommit s).sto.commits = [{ calCommit with late := true }] ∧ recPayload (run .recordCommit s) 11 = some [1, 2, 3] ∧
    run .recordCommit (sCommit { calCommit with late := true }) = sCommit { calCommit with late := true } := by decide +kernel
theorem test_clear :
    thermalRec (run .recordCommit { sRecord with sto := { sRecord.sto with commits := [⟨4, [], true, false, false⟩] } }) = none := by
  decide +kernel

/-- UPDATE and CALWR allowed, ADDR at the last store, LEN as given. -/
def sNvs (len : Nat) : State :=
  putRegs State.reset [(aNvsCtrl, 3), (aNvsAddr, storeTop + 8 - 0x40000), (aNvsLen, len), (aParamId, 0x0000AA0000000000)]
def cmdOf (s : State) (op kind code : Nat) : State := { s with sto := { s.sto with cmd := some (op, kind, storeTop, 8), cmdCode := code } }
theorem witness_nvs :
    rf (sNvs 29920) aVrxState 63 60 ≠ 1 ∧ rf (sNvs 29920) aNvsStatus 63 60 ≠ 1 ∧ areaOf (storeTop + 8 - 0x40000) 29920 ≠ none ∧
    rbit (sNvs 29920) aNvsCtrl 1 = true ∧ rbit (sNvs 29920) aNvsCtrl 0 = true ∧ rf (sNvs 29920) aNvsAddr 47 0 = storeTop + 8 - 0x40000 ∧
    rf (sNvs 29920) aNvsLen 31 0 = 29920 ∧ Awake (sNvs 1) 8191 ∧ imageCode (sNvs 1) [0] ≠ 0 ∧ (bootRec (sBoot 0 1 1)).2.1 = 1 ∧
    (bootRec State.reset).2.1 ≠ 1 ∧ readItem (sBoot 0 1 1) 1 = some (bootBytes 0 1 1) ∧ readItem State.reset 11 = none ∧
    leNat (([0, 0, 0] : List Byte).drop 2) ≠ rf (sNvs 1) aParamId 47 40 := by
  refine ⟨?_, ?_, ?_, ?_, ?_, ?_, ?_, ⟨?_, ?_, ?_⟩, ?_, ?_, ?_, ?_, ?_, ?_⟩ <;> decide +kernel
/-- A MINVER record of this member with the highest SVN: any signature that R461 accepts under the running image's key makes it
    good. -/
def minRec : List Byte := [0xFF, 0xFF, BitVec.ofNat 8 (rf State.reset aParamId 47 40)] ++ List.replicate 61 0
theorem witness_minver {key sig : List Byte} (hk : key.length = 64) (hs : sig.length = sigLen)
    (ht : shake256 key 32 = Config.imageKeyDigest) (hv : slhVerify slh256s key minRec sig = true) :
    let s : State := { State.reset with sto := { image := List.replicate 0x18 0 ++ key } }
    let bs := minRec ++ sig
    bs.length = 29856 ∧ shake256 ((s.sto.image.drop 0x18).take 64) 32 = Config.imageKeyDigest ∧
    slhVerify slh256s ((s.sto.image.drop 0x18).take 64) (bs.take 64) (bs.drop 64) = true ∧
    leNat ((bs.drop 2).take 1) = rf s aParamId 47 40 ∧ minSvn s ≤ leNat (bs.take 2) := by
  have hl : minRec.length = 64 := rfl
  have hd : ((List.replicate 0x18 0 ++ key).drop 0x18).take 64 = key := by
    show key.take 64 = key
    rw [← hk, List.take_length]
  refine ⟨by simp [hl, hs, sigLen], by simpa only [hd] using ht, ?_, ?_, ?_⟩
  · rw [hd, ← hl, List.take_left, List.drop_left]; exact hv
  · have e : ((minRec ++ sig).drop 2).take 1 = (minRec.drop 2).take 1 := rfl
    have r : ∀ x, rf { State.reset with sto := x } aParamId 47 40 = rf State.reset aParamId 47 40 := fun _ => rfl
    rw [e, r]
    decide +kernel
  · have e : (minRec ++ sig).take 2 = minRec.take 2 := rfl
    rw [e, show leNat (minRec.take 2) = 65535 by decide +kernel]
    exact minSvn_le _
theorem test_nvs_refused :
    codes (run (.update .host) (putRegs (sNvs 1) [(aNvsCtrl, 1)])) = [0x9012] ∧ codes (run (.calwr .host 12) (sNvs 1)) = [0x9012] ∧
    codes (run (.minver .host) (putRegs (sNvs 1) [(aVrxState, 2 ^ 60)])) = [0x9005] ∧ codes (run (.read .host 0) (sNvs 1)) = [0x9012] := by
  decide +kernel
theorem test_nvs_starts :
    ((run (.update .host) (sNvs 1)).sto.cmd, (run (.update .host) (sNvs 1)).sto.cmdCode) = (some (1, 0, storeTop + 8 - 0x40000, 1), 0x9010) ∧
    (run (.confirm .host) (sBoot 1 1 1)).sto.commits.map Commit.payload = [bootBytes 1 0 0] ∧
    (run (.read .host 11) (sNvs 1)).sto.cmdCode = 0x9012 ∧ rf (run (.read .host 11) (sNvs 1)) aNvsStatus 63 60 = 1 := by decide +kernel
theorem test_nvs_done :
    codes (run (.nvsCommandDone true) (cmdOf State.reset 2 0 0)) = [0x9013] ∧ codes (run (.nvsCommandDone false) (cmdOf State.reset 2 0 0)) = [0x9050] ∧
    codes (run (.nvsCommandDone true) (cmdOf State.reset 1 0 0x9010)) = [0x9010] ∧
    rdBytes (run (.nvsCommandDone true) { cmdOf (sBoot 1 1 0) 5 1 0 with sto := { (sBoot 1 1 0).sto with cmd := some (5, 1, storeTop - 8, 16) } }).mem
      (storeTop - 8) 4 = [1, 1, 0, 0] := by decide +kernel

def sKeyed : State :=
  { putRegs State.reset [(aSecStatus, 2 ^ 63), (aSecQaddr, storeTop + 8 - 36064)] with
    sto := { pubKey := List.replicate 48 5, meas := [List.replicate 64 1, List.replicate 64 2, List.replicate 64 3, List.replicate 64 4] } }
theorem witness_trust :
    bit (regGet sKeyed aSecCtrl) 6 = false ∧ bit (regGet sKeyed aSecCtrl) 7 = false ∧ rbit sKeyed aSecStatus 63 = true ∧
    rbit sKeyed aSecStatus 62 = false ∧
    (0x020000000000 + 8191 * 0x40000 ≤ rf sKeyed aSecQaddr 47 0 ∧ rf sKeyed aSecQaddr 47 0 + 36064 ≤ 0x020000000000 + 8192 * 0x40000) ∧
    (∀ i < 4, (measOf sKeyed i).length = 64) ∧ sKeyed.sto.pubKey.length = 48 ∧ rbit State.reset aSecStatus 63 = false ∧
    Awake sKeyed 8191 ∧ (List.replicate 0x190 (0 : Byte)).length = 0x190 ∧ (0x40000 - 36064) + 36064 ≤ 0x40000 := by
  refine ⟨?_, ?_, ?_, ?_, ?_, ?_, ?_, ?_, ⟨?_, ?_, ?_⟩, ?_, ?_⟩ <;> decide +kernel
theorem test_quote_reply : (run (.quote .host) State.reset).reply.1 = 0x9031 := by decide +kernel
theorem test_trust :
    (run (.quote .host) sKeyed).sto.quote.map (fun q => (q.1, q.2.length)) = some (storeTop + 8 - 36064, 0x190) ∧
    codes (run (.quote .host) State.reset) = [0x9031] ∧ codes (run (.quote .host) (putRegs sKeyed [(aSecQaddr, storeTop + 9 - 36064)])) = [0x9031] ∧
    rbit (run (.lock .host) State.reset) aSecCtrl 0 = true ∧ run .quoteDone State.reset = State.reset := by decide +kernel
/-- R466: of the requesters that reach SEC_CTRL only the host extends M2 and M3. -/
theorem test_ext :
    (run (.ext .mgmt false) sKeyed).sto.meas = sKeyed.sto.meas ∧ (run (.ext .host true) State.reset).sto.meas ≠ [] := by decide +kernel
/-- SHAKE256 of no bytes, as FIPS 202 gives it. -/
theorem test_shake : shake256 [] 8 = [0x46, 0xB9, 0xDD, 0x2B, 0x0B, 0xA8, 0x8D, 0x13] := by decide +kernel

/-! ### Standby, health checks, registers and time -/
def stby (mode : Nat) : Word := BitVec.ofNat 64 (mode * 2 ^ 61)
/-- In module standby (`mode` 1) or deep standby (2), waking at tick 5. -/
def sAsleep (mode : Nat) (core : Bool) : State :=
  { putRegs State.reset [(aVrxState, 3 * 2 ^ 60), (aVrxStby, mode * 2 ^ 61 + 2 ^ 60 + 5)] with
    pins := { core := core, pwrGood := core, want := core }, drone := { tick := 5 } }
theorem witness_standby :
    rf State.reset aVrxState 63 60 ≠ 1 ∧ twf {} State.reset.tile = true ∧ AllIdle State.reset ∧ ¬bit (stby 1) 60 = true ∧
    (let v : Word := BitVec.ofNat 64 (2 ^ 61 + 2 ^ 60 + 24999)
     bit v 60 = true ∧ ticksUntil State.reset (fld v 51 0) < 25000) ∧
    (ListedOnce (sAsleep 2 true) ∧ (sAsleep 2 true).cache = [] ∧ (sAsleep 2 true).rep.raised = [] ∧ ∀ c, (getChan (sAsleep 2 true) c).wc = []) ∧
    (ticksUntil (sAsleep 1 false) 5 ≤ 0 ∧ 0 < ticksUntil (sAsleep 1 false) 6) ∧ NoCommand (sAsleep 1 false) ∧
    CoreMay (sAsleep 1 false) (sAsleep 1 false).pins ∧ ListedOnce (sAsleep 1 false) := by
  refine ⟨by decide +kernel, by decide, ⟨fun _ _ _ => ⟨rfl, rfl, rfl⟩, by decide +kernel, fun _ _ => ⟨rfl, rfl, rfl⟩, by decide +kernel, by decide +kernel⟩,
    by decide, by decide, ⟨by unfold ListedOnce; decide +kernel, rfl, rfl, fun _ => rfl⟩, by decide, rfl,
    ⟨rfl, rfl, rfl, rfl, rfl, rfl, by intro c h; cases h⟩, by unfold ListedOnce; decide +kernel⟩
theorem test_standby :
    codes (run (.standbyGo .host (stby 3)) State.reset) = [0x8040] ∧
    run .wakeTime (sAsleep 1 true) = sAsleep 1 true := by decide +kernel

def sWin (n : Nat) : State := { State.reset with rep := { windows := [{ peer := 0x212, code := 0x4040, count := n, first := 1, last := 2 }] } }
theorem witness_windows :
    (sWin 3).rep.windows = [] ++ { peer := 0x212, code := 0x4040, count := 3, first := 1, last := 2 } :: [] ∧
    Covers { peer := 0x212, code := 0x4040, count := 3, first := 1, last := 2 } 0x212 0x4040 ∧ rf (sWin 3) aVrxState 63 60 ≠ 1 := by
  exact ⟨rfl, ⟨rfl, rfl⟩, by decide +kernel⟩
theorem test_windows_end :
    (run (.remoteWindowEnd 0x212 0x4040) (sWin 3)).rep.raised.map (fun r => (r.code.toNat, r.peer, r.count, r.coal)) = [(0x4040, 0x212, 3, true)] ∧
    codes (run (.remoteWindowEnd 0x212 0x4040) (sWin 0)) = [] ∧ run (.remoteWindowEnd 0x213 0x4040) (sWin 3) = sWin 3 := by decide +kernel
theorem test_kfn :
    regGet (run (.kfnPost .host (BitVec.ofNat 64 (15 * 2 ^ 48 + 0x4040 * 2 ^ 32 + 0xABCD0212))) State.reset) (aMgtKfns 15) = 0x8000404000000212 ∧
    regGet (run (.kfnWithdraw .host 15) (putRegs State.reset [(aMgtKfns 15, 2 ^ 63)])) (aMgtKfns 15) = 0 := by decide +kernel

/-- Chatter on tile 8191, one repetition. -/
def chatWord : Word := BitVec.ofNat 64 (2 ^ 32 + 8191)
def sChat : State :=
  setTile { putRegs State.reset [(aMgtChata, 0x020000000000 + 0x40000 - 32)] with
    chat := some { req := chatWord, tiles := [⟨8191, 0, 0, false⟩, ⟨8190, 0, 0, false⟩] } } 8191 { chatter := true }
theorem witness_chatter :
    (let s := putRegs State.reset [(aMgtChata, 0x020000000000 + 0x40000 - 32)]
     s.chat = none ∧ fld chatWord 61 58 ≤ 5 ∧ fld chatWord 47 32 ≠ 0 ∧ bit chatWord 62 = false ∧ fld chatWord 12 0 = 8191 ∧
     rf s aMgtChata 47 0 % 32 = 0 ∧ rf s aMgtChata 47 0 + 32 * 1 ≤ 0x020000000000 + 0x40000 ∧ bit chatWord 57 = false) ∧
    ChatFree State.reset 8191 ∧
    ((getTile sChat 8191).chatter = true ∧ dieIsolated sChat (dieOf 8191) = false ∧ bit chatWord 57 = false ∧
      (0x40000 - 32) + 32 * (0 + 1) ≤ 0x40000) ∧ Awake sChat 0 := by
  refine ⟨by decide +kernel, ⟨fun _ _ => ⟨rfl, rfl, rfl, rfl⟩, by decide +kernel⟩, by decide +kernel, ⟨?_, ?_, ?_⟩⟩ <;> decide +kernel
theorem test_chatter :
    rf (run (.chatterGo .host chatWord) (putRegs State.reset [(aMgtChata, 0x020000000000 + 0x40000 - 32)])) aMgtChats 63 62 = 1 ∧
    codes (run (.chatterGo .host 8191) State.reset) = [0x10C2] ∧ run (.chatterTileDone 0 false) State.reset = State.reset := by decide +kernel

/-- Tiles 8190 and 8191, all three engines. -/
def pairWord : Word := BitVec.ofNat 64 (2 ^ 63 + 7 * 2 ^ 60 + 8191 * 2 ^ 16 + 8190)
theorem witness_pairs :
    bit pairWord 63 = true ∧ fld pairWord 12 0 ≠ fld pairWord 28 16 ∧ fld pairWord 62 60 ≠ 0 ∧
    (∀ q < 16, pairHas State.reset q 8191 = false ∧ pairHas State.reset q 8190 = false) := by decide +kernel
theorem test_pairs :
    (getEng (run (.pairEnable .host 15 pairWord) State.reset) sPusher).sig = 0xFFFFFFFFFFFFFFFF ∧
    codes (run (.pairEnable .host 15 (BitVec.ofNat 64 (2 ^ 63 + 7 * 2 ^ 60))) State.reset) = [0x10D1] ∧
    codes (run (.pairEnable .host 15 pairWord) (run (.pairEnable .host 0 pairWord) State.reset)) = [0x10D1] := by decide +kernel

theorem test_registers :
    regGet (run (.registerWrite .host (BitVec.ofNat 48 aNvsLen) 0xFFFFFFFFFFFFFFFF) State.reset) aNvsLen = 0xFFFFFFFF ∧
    (let s := run (.registerWrite .host (BitVec.ofNat 48 aNvsCtrl) 1) (putRegs State.reset [(aSecCtrl, 1)])
     codes s = [0x9020] ∧ s.reply.1 = 0x9020) ∧
    codes (run (.registerWrite (.engine cLast) (BitVec.ofNat 48 aNvsLen) 1) State.reset) = [0x9028] := by decide +kernel
theorem test_off_map :
    codes (run (.registerWrite .host 0x030016000004 1) State.reset) = [0x20F0] ∧ codes (run (.registerWrite .host 0x030040000000 1) State.reset) = [0x2001] ∧
    run (.registerWrite .host 0x030016000028 1) State.reset = State.reset := by decide +kernel
theorem witness_registers :
    (rbit (putRegs State.reset [(aSecCtrl, 1)]) aSecCtrl 0 = true ∧ rbit State.reset aSecCtrl 0 = false) ∧
    (fld (3 : Word) 1 0 ≠ fld (regGet State.reset aNvsCtrl) 1 0 ∧ fld (4 : Word) 1 0 = fld (regGet State.reset aNvsCtrl) 1 0) ∧
    ((BitVec.ofNat 48 (aMgtPairStat 15)).toNat = aMgtPairStat 15 ∧ (BitVec.ofNat 48 (aMgtDly 5)).toNat = aMgtDly 5) ∧
    ((0x030016000027 : BitVec 48).toNat % 8 ≠ 0 ∧ 0x030040000000 ≤ (0x03FFFFFFFFFF : BitVec 48).toNat) := by decide +kernel

/-- Port 3 UP with a valid delay, the site description done. -/
def sTime (root : Bool) : State :=
  putRegs State.reset [(aMgtSite, 2 ^ 62 + (if root then 2 ^ 61 else 0)), (aFabPortStatus 3, 2 ^ 60), (aMgtDly 3, 2 ^ 63 + 7)]
theorem witness_time :
    TakesPart (sTime false) 3 ∧ (∀ q, TakesPart (sTime false) q → q = 3) ∧ ¬TakesPart (sTime false) 0 ∧ (sTime false).drone.offs = [] ∧
    (sTime false).drone.everAligned = false ∧ rbit (sTime true) aMgtSite 61 = true ∧
    ((sTime false).drone.tick.toNat % 25000 = 0 ∧ rbit (sTime false) aMgtSite 62 = true) ∧ rbit State.reset aMgtSite 62 = false := by
  have h : ∀ q < 6, portUp (sTime false) q = true → q = 3 := by decide +kernel
  refine ⟨⟨by decide, by decide +kernel, by decide +kernel⟩, fun q hq => h q hq.1 hq.2.1, ?_, rfl, rfl, ?_⟩
  · rintro ⟨-, h0, -⟩; exact absurd (h 0 (by decide) h0) (by decide)
  · decide +kernel
theorem test_time :
    (run .timeAlignmentFrameSend (sTime false)).drone.sent.map Prod.fst = [3] ∧ run (.time 0 0) (sTime false) = sTime false ∧
    (run .timeAlignmentFrameSend (putRegs (sTime false) [(aBelLanes 3, 0x30 * 2 ^ 32)])).drone.sent.map (fun x => (x.1, x.2.1, x.2.2.length)) =
      [(3, 4, 72)] ∧
    rf (run (.time 3 0) (sTime true)) aDrnAlign 31 0 = 0 ∧ rf (run (.time 3 0) (sTime true)) aDrnAlign 45 40 = 8 := by decide +kernel

/-! ### Every step -/
theorem witness_front : ({ State.reset with pending := [.inputLowBand, .hello] } : State).pending = .inputLowBand :: [.hello] ∧
    ∀ v, Instr.inputLowBand ≠ .inputOvervoltage v := by
  exact ⟨rfl, by intro v h; cases h⟩
theorem test_front : step { State.reset with pending := [.inputRise46v, .hello] } =
    .next { State.reset with pending := [.hello] } := rfl
theorem witness_idle : State.reset.pending = [] ∧ State.reset.pins.drone = true ∧ sDark.pending = [] ∧ sDark.pins.drone = false := by decide
theorem test_idle :
    step { State.reset with drone := { tick := 0xFFFFFFFFFFFFF } } = .next State.reset ∧ step sDark = .next sDark := ⟨rfl, rfl⟩
/-- A cycle ends the abort of lane 3 and of queue 15, and slows the count by its share of a slew: 4096 - 5 units. -/
def sCycle : State :=
  let s := setLane (putRegs State.reset [(aHlDqCtrl 15, 3 * 2 ^ 62)]) 3 { aborting := true }
  { s with drone := { slew := -102400 } }
def sCycled : State := match step sCycle with | .next t => t | _ => sCycle
theorem test_cycle :
    (getLane sCycled 3).aborting = false ∧ dqState sCycled 15 = 0 ∧ sCycled.drone.tick.toNat * 4096 + sCycled.drone.sub.toNat = 4096 - 5 := by
  decide +kernel
/-- R54: a module named root ends a slew under way. -/
theorem test_root_slew :
    (match step { putRegs State.reset [(aMgtSite, 2 ^ 61)] with drone := { slew := -102400 } } with
     | .next t => (t.drone.slew, t.drone.tick.toNat, t.drone.sub.toNat)
     | _ => (1, 0, 0)) = (0, 1, 0) := by decide +kernel
theorem witness_invariants :
    MemoryCanonical State.reset ∧ PowerSafe State.reset ∧ (∃ t, step State.reset = .next t) := by
  refine ⟨⟨rfl, rfl, rfl⟩, ⟨fun _ => ⟨rfl, rfl, rfl, rfl⟩, fun _ => rfl⟩, _, rfl⟩

/-! ### Ill-formed commands -/
theorem test_illformed_packet : (Instr.put 0 { w0 := 0, w1 := 0, w2 := 0, w3 := 0, payload := [1] }).wf = false := by decide
theorem test_illformed_message : (Instr.tenonRd { head := BitVec.ofNat 192 (2 ^ 176), body := [1] }).wf = false ∧
    (Instr.tenonWr { head := BitVec.ofNat 192 (2 * 2 ^ 176 + 2 ^ 134), body := [] }).wf = false := by decide
theorem test_illformed_frame : (Instr.crd { w0 := 0, w1 := 0, w2 := 0, body := [1] }).wf = false ∧
    (Instr.cwr { w0 := BitVec.ofNat 64 (8 * 2 ^ 48), w1 := 0, w2 := 0 }).wf = false := by decide
theorem test_illformed_link : (Instr.tenonNak ⟨12, 0⟩ 0 0).wf = false ∧ (Instr.tenonNak ⟨0, 3⟩ 0 0).wf = false ∧
    (Instr.tenonMessageSend ⟨0, 0⟩ { head := 0, body := [1] }).wf = false := by decide
theorem test_illformed_bundles :
    (Instr.j cLast 0 { ctl := some .drain }).wf = false ∧ (Instr.agrst cLast 0 { agu := some (.rst 0) }).wf = false ∧
    (Instr.movi cLast 0 0 { scl := some (.movi 0 0) }).wf = false ∧ (Instr.czero 0 0 { op := some (.czero 0) }).wf = false := by decide
theorem test_illformed_smbus : (troff 0 3).wf = false ∧ (Instr.alertmask { addr := 0, code := 4, write := none }).wf = false := by decide
theorem test_illformed_sample : (Instr.calipersSample quiet).wf = false := by decide
theorem test_illformed_boot : (Instr.bootSequence {}).wf = false ∧ (Instr.laserMeasurement 0 []).wf = false ∧
    (Instr.lockIteration 0 []).wf = false ∧ (Instr.credit 0 []).wf = false ∧ (Instr.mgtRead { sender := 0, data := List.replicate 1233 0 }).wf = false := by decide +kernel
theorem test_illformed_numbers : (Instr.clockLoss 12).wf = false ∧ (Instr.bellRetrain .host 7).wf = false ∧ (Instr.credit 7 (List.replicate 8 0)).wf = false := by
  decide
theorem test_illformed_block :
    (Instr.laneBlock 0 0 { bseq := 0, mode := 0, start := 0, valid := 0, ctl := [], cells := [] }).wf = false := by decide

end Sys2Proof.Tests
end

section
/-! SUPPORT. Bit fields: what a read of one field finds after a write of another, after a write by the fields' types
(R11, Table 0.6), and after a reset (R13). Each is said bit by bit, and fields follow by `fld_congr`. -/

namespace Sys2Proof.Machine

/-! ### Bits of fields -/

theorem bit_beyond (w : Word) {j : Nat} (h : 64 ≤ j) : bit w j = false := BitVec.getLsbD_of_ge w j h

theorem testBit_fld (w : Word) (hi lo i : Nat) :
    (fld w hi lo).testBit i = (decide (i < hi + 1 - lo) && bit w (lo + i)) := by
  simp only [fld, Nat.testBit_mod_two_pow, Nat.testBit_div_two_pow, bit, BitVec.getLsbD, Nat.add_comm lo i]

theorem fld_lt (w : Word) (hi lo : Nat) : fld w hi lo < 2 ^ (hi + 1 - lo) := Nat.mod_lt _ (Nat.two_pow_pos _)

/-- Words that agree on a field's bits agree on the field. -/
theorem fld_congr {w v : Word} {hi lo : Nat} (h : ∀ j, lo ≤ j → j ≤ hi → bit w j = bit v j) : fld w hi lo = fld v hi lo := by
  refine Nat.eq_of_testBit_eq fun i => ?_
  rw [testBit_fld, testBit_fld]
  by_cases hi' : i < hi + 1 - lo
  · rw [h (lo + i) (by omega) (by omega)]
  · simp [hi']

theorem bit_maskW (hi lo j : Nat) : bit (maskW hi lo) j = (decide (j < 64) && decide (lo ≤ j ∧ j ≤ hi)) := by
  simp only [bit, maskW, BitVec.getLsbD_ofNat, Nat.testBit_mul_two_pow, Nat.testBit_two_pow_sub_one]
  have : lo ≤ j → (j - lo < hi + 1 - lo ↔ j ≤ hi) := by omega
  by_cases h : lo ≤ j <;> simp [h, this]

/-- A write of a field sets the field's bits and no other. -/
theorem bit_setFld (w : Word) (hi lo v : Nat) {j : Nat} (h : j < 64) :
    bit (setFld w hi lo v) j = if lo ≤ j ∧ j ≤ hi then v.testBit (j - lo) else bit w j := by
  have hm := bit_maskW hi lo j
  simp only [bit] at hm ⊢
  simp only [setFld, BitVec.getLsbD_or, BitVec.getLsbD_and, BitVec.getLsbD_not, hm, BitVec.getLsbD_ofNat,
    Nat.testBit_mul_two_pow, Nat.testBit_mod_two_pow, h, decide_true, Bool.true_and]
  have : lo ≤ j → (j - lo < hi + 1 - lo ↔ j ≤ hi) := by omega
  by_cases hl : lo ≤ j
  · by_cases hh : j ≤ hi <;> simp [hl, hh, this]
  · simp [hl]

/-- A field that takes its value from the same field of a word takes that word's bits. -/
theorem bit_setFld_fld (w v : Word) (hi lo j : Nat) :
    bit (setFld w hi lo (fld v hi lo)) j = if lo ≤ j ∧ j ≤ hi then bit v j else bit w j := by
  by_cases h : j < 64
  · rw [bit_setFld w hi lo _ h]
    split
    · rename_i hin
      rw [testBit_fld, Nat.add_sub_cancel' hin.1, decide_eq_true (by omega), Bool.true_and]
    · rfl
  · simp [bit_beyond _ (Nat.le_of_not_lt h)]

/-- A field reads back as the low bits that were written. -/
theorem fld_setFld_self (w : Word) {hi : Nat} (lo v : Nat) (h : hi < 64) :
    fld (setFld w hi lo v) hi lo = v % 2 ^ (hi + 1 - lo) := by
  refine Nat.eq_of_testBit_eq fun i => ?_
  rw [testBit_fld, Nat.testBit_mod_two_pow]
  by_cases hi' : i < hi + 1 - lo
  · rw [bit_setFld w hi lo v (by omega), if_pos (by omega), Nat.add_sub_cancel_left]
  · simp [hi']

/-- A write of a field leaves every field that shares no bit with it. -/
theorem fld_setFld_apart (w : Word) {hi lo hi' lo' : Nat} (v : Nat) (h : hi' < lo ∨ hi < lo') :
    fld (setFld w hi lo v) hi' lo' = fld w hi' lo' := by
  refine fld_congr fun j hj hj' => ?_
  by_cases h64 : j < 64
  · rw [bit_setFld w hi lo v h64, if_neg (by omega)]
  · simp [bit_beyond _ (Nat.le_of_not_lt h64)]

theorem bit_setBit_self (w : Word) {i : Nat} (b : Bool) (h : i < 64) : bit (setBit w i b) i = b := by
  rw [setBit, bit_setFld w i i _ h, if_pos ⟨Nat.le_refl i, Nat.le_refl i⟩]
  cases b <;> simp

/-! ### The fields of a register map -/

/-- Fields stand from high to low, below bit `top`, and share no bit. -/
def fieldsBelow : Nat → List RField → Bool
  | _, [] => true
  | top, f :: fs => decide (f.lo ≤ f.hi) && decide (f.hi < top) && fieldsBelow f.lo fs

theorem kindFields_below (k : Kind) : fieldsBelow 64 (kindFields k) = true := by
  cases k <;> rfl

theorem fieldsBelow_cons {top : Nat} {f : RField} {fs : List RField} :
    fieldsBelow top (f :: fs) = true ↔ f.lo ≤ f.hi ∧ f.hi < top ∧ fieldsBelow f.lo fs = true := by
  simp [fieldsBelow, and_assoc]

theorem fieldsBelow_mem {top : Nat} {fs : List RField} {f : RField} (h : fieldsBelow top fs = true) (hf : f ∈ fs) :
    f.hi < top := by
  induction fs generalizing top with
  | nil => cases hf
  | cons g fs ih =>
    obtain ⟨hg, hgt, hfs⟩ := fieldsBelow_cons.1 h
    rcases List.mem_cons.1 hf with rfl | hf
    · exact hgt
    · exact Nat.lt_of_lt_of_le (ih hfs hf) (by omega)

/-! ### Resets -/

theorem bit_resetFields_above (codes : RCode → Bool) (w0 : Word) {top j : Nat} (hj : top ≤ j) {fs : List RField}
    (h : fieldsBelow top fs = true) (w : Word) : bit (resetFields codes w0 fs w) j = bit w j := by
  induction fs generalizing top w with
  | nil => rfl
  | cons g fs ih =>
    obtain ⟨hg, hgt, hfs⟩ := fieldsBelow_cons.1 h
    rw [resetFields, ih (by omega) hfs]
    split
    · rw [bit_setFld_fld, if_neg (by omega)]
    · rfl

theorem bit_resetFields (codes : RCode → Bool) (w0 : Word) {top : Nat} {fs : List RField} (h : fieldsBelow top fs = true)
    (w : Word) {f : RField} (hf : f ∈ fs) {j : Nat} (hlo : f.lo ≤ j) (hhi : j ≤ f.hi) :
    bit (resetFields codes w0 fs w) j = if codes f.code = true then bit w0 j else bit w j := by
  induction fs generalizing top w with
  | nil => cases hf
  | cons g fs ih =>
    obtain ⟨hg, hgt, hfs⟩ := fieldsBelow_cons.1 h
    rcases List.mem_cons.1 hf with rfl | hf
    · rw [resetFields, bit_resetFields_above codes w0 hlo hfs]
      split
      · rw [bit_setFld_fld, if_pos ⟨hlo, hhi⟩]
      · rfl
    · have hlt := fieldsBelow_mem hfs hf
      have other : bit (if codes g.code = true then setFld w g.hi g.lo (fld w0 g.hi g.lo) else w) j = bit w j := by
        split
        · rw [bit_setFld_fld, if_neg (by omega)]
        · rfl
      rw [resetFields, ih hfs _ hf, other]

/-- A reset restores the fields of the given codes and leaves the others (R13). -/
theorem fld_resetFields (codes : RCode → Bool) (w0 w : Word) {k : Kind} {f : RField} (hf : f ∈ kindFields k) :
    fld (resetFields codes w0 (kindFields k) w) f.hi f.lo = if codes f.code = true then fld w0 f.hi f.lo else fld w f.hi f.lo := by
  have hb (j : Nat) := bit_resetFields codes w0 (kindFields_below k) w hf (j := j)
  split
  · rename_i hc
    exact fld_congr fun j hlo hhi => (hb j hlo hhi).trans (if_pos hc)
  · rename_i hc
    exact fld_congr fun j hlo hhi => (hb j hlo hhi).trans (if_neg hc)

/-! ### Writes by type -/

/-- The bit of a field of a type that a write leaves, from the bit `b` that stood and the bit `x` that is written (Table 0.6). -/
def bitAfter (locked : Bool) (ty : RType) (b x : Bool) : Bool :=
  match ty with
  | .rw => x
  | .ro => b
  | .wo => b
  | .w1c => b && !x
  | .rwl => if locked then b else x

theorem bit_writeField (locked : Bool) (w v : Word) (f : RField) (j : Nat) :
    bit (writeField locked w v f).1 j = if f.lo ≤ j ∧ j ≤ f.hi then bitAfter locked f.ty (bit w j) (bit v j) else bit w j := by
  have clear : bit (w &&& ~~~(v &&& maskW f.hi f.lo)) j = if f.lo ≤ j ∧ j ≤ f.hi then bit w j && !bit v j else bit w j := by
    have hm := bit_maskW f.hi f.lo j
    simp only [bit] at hm ⊢
    by_cases h64 : j < 64
    · rw [BitVec.getLsbD_and, BitVec.getLsbD_not, BitVec.getLsbD_and, hm]
      by_cases hin : f.lo ≤ j ∧ j ≤ f.hi <;> simp [h64, hin]
    · simp [BitVec.getLsbD_of_ge _ j (Nat.le_of_not_lt h64)]
  unfold writeField bitAfter
  cases f.ty with
  | rw => exact bit_setFld_fld w v f.hi f.lo j
  | ro => exact (ite_self _).symm
  | wo => exact (ite_self _).symm
  | w1c => exact clear
  | rwl =>
    cases locked with
    | true => exact (ite_self _).symm
    | false => exact bit_setFld_fld w v f.hi f.lo j

theorem bit_writeFields_above (locked : Bool) (v : Word) {top j : Nat} (hj : top ≤ j) {fs : List RField}
    (h : fieldsBelow top fs = true) (w : Word) : bit (writeFields locked v fs w).1 j = bit w j := by
  induction fs generalizing top w with
  | nil => rfl
  | cons g fs ih =>
    obtain ⟨hg, hgt, hfs⟩ := fieldsBelow_cons.1 h
    simp only [writeFields]
    rw [ih (by omega) hfs, bit_writeField, if_neg (by omega)]

theorem bit_writeFields (locked : Bool) (v : Word) {top : Nat} {fs : List RField} (h : fieldsBelow top fs = true) (w : Word)
    {f : RField} (hf : f ∈ fs) {j : Nat} (hlo : f.lo ≤ j) (hhi : j ≤ f.hi) :
    bit (writeFields locked v fs w).1 j = bitAfter locked f.ty (bit w j) (bit v j) := by
  induction fs generalizing top w with
  | nil => cases hf
  | cons g fs ih =>
    obtain ⟨hg, hgt, hfs⟩ := fieldsBelow_cons.1 h
    simp only [writeFields]
    rcases List.mem_cons.1 hf with rfl | hf
    · rw [bit_writeFields_above locked v hlo hfs, bit_writeField, if_pos ⟨hlo, hhi⟩]
    · have hlt := fieldsBelow_mem hfs hf
      rw [ih hfs _ hf, bit_writeField, if_neg (by omega)]

/-- The word that a write by type leaves in a register of a map. -/
abbrev wordAfter (locked : Bool) (k : Kind) (w v : Word) : Word := (writeFields locked v (kindFields k) w).1

/-- A field that takes what is written. -/
def takesWrite (locked : Bool) : RType → Bool
  | .rw => true
  | .rwl => !locked
  | _ => false

/-- A field that no write changes. -/
def keepsOld (locked : Bool) : RType → Bool
  | .ro => true
  | .wo => true
  | .rwl => locked
  | _ => false

theorem fld_wordAfter_new {locked : Bool} {k : Kind} {f : RField} (hf : f ∈ kindFields k) (ht : takesWrite locked f.ty = true) (w v : Word) :
    fld (wordAfter locked k w v) f.hi f.lo = fld v f.hi f.lo := by
  refine fld_congr fun j hlo hhi => (bit_writeFields locked v (kindFields_below k) w hf hlo hhi).trans ?_
  unfold bitAfter
  revert ht
  cases f.ty <;> cases locked <;> simp [takesWrite]

theorem fld_wordAfter_old {locked : Bool} {k : Kind} {f : RField} (hf : f ∈ kindFields k) (ht : keepsOld locked f.ty = true) (w v : Word) :
    fld (wordAfter locked k w v) f.hi f.lo = fld w f.hi f.lo := by
  refine fld_congr fun j hlo hhi => (bit_writeFields locked v (kindFields_below k) w hf hlo hhi).trans ?_
  unfold bitAfter
  revert ht
  cases f.ty <;> cases locked <;> simp [keepsOld]

/-- A write leaves fields that it cannot change. -/
theorem writeFields_kept {locked : Bool} (v : Word) {fs : List RField} (h : fs.all (fun f => keepsOld locked f.ty) = true) (w : Word) :
    (writeFields locked v fs w).1 = w := by
  induction fs generalizing w with
  | nil => rfl
  | cons g fs ih =>
    obtain ⟨hg, hfs⟩ := List.all_cons.symm.trans h |> Bool.and_eq_true_iff.1
    have hw : (writeField locked w v g).1 = w := by
      unfold writeField
      revert hg
      cases g.ty <;> cases locked <;> simp [keepsOld]
    simp only [writeFields, hw]
    exact ih hfs w

/-- One of the fields is of type RWL. -/
def anyLocks (fs : List RField) : Bool := fs.any (fun f => f.ty = .rwl)

/-- A write meets no lock where LOCK is 0, or no field is of type RWL. -/
theorem writeFields_unlocked {locked : Bool} (v : Word) {fs : List RField} (h : anyLocks fs = true → locked = false) (w : Word) :
    (writeFields locked v fs w).2 = false := by
  induction fs generalizing w with
  | nil => rfl
  | cons g fs ih =>
    simp only [anyLocks, List.any_cons, Bool.or_eq_true, decide_eq_true_eq] at h ih
    have hg : (writeField locked w v g).2 = false := by
      have hl := fun hty => h (Or.inl hty)
      unfold writeField
      revert hl
      cases g.ty <;> cases locked <;> simp
    simp only [writeFields, hg, Bool.false_or]
    exact ih (fun hl => h (Or.inr hl)) _

end Sys2Proof.Machine
end

section
/-! SUPPORT. Accesses to control space: what a refused access and a performed one leave, when a write finds its unit, and a
REGISTER_WRITE of a register that no rule treats apart. -/

namespace Sys2Proof.Machine

/-! ### Rows -/

theorem cases_nil (s : State) : Cases s [] := fun _ hc => absurd hc List.not_mem_nil

theorem cases_cons {s : State} {c : Instr} {p : Prop} {q : State → Prop} {rows : List Case} :
    Cases s ((c, p, q) :: rows) ↔ (p → ∃ t, exec c s = .next t ∧ q t) ∧ Cases s rows := by
  simp [Cases]

/-! ### Refused and performed accesses -/

/-- A report raises one record, with its code and unit. -/
theorem says_emit (s : State) (u code : Nat) (i : Info) : Says s (emit s u code i) code u := ⟨_, rfl, rfl, rfl⟩

/-- An access that only completes with error and reports is refused. -/
theorem refused_refuse (s : State) (u code : Nat) : Refused s (replied (refuse s u code).2 (refuse s u code).1 []) code u :=
  ⟨rfl, rfl, says_emit s u code {}⟩

/-- A register that takes a word is written, and no other. -/
theorem written_regPut (s : State) (a : Nat) (w : Word) : Written s (replied (regPut s a w) 0 []) [a] :=
  ⟨rfl, rfl, fun _ hb => regGet_regPut_ne s w (List.ne_of_not_mem_cons hb)⟩

/-- A register that takes the word it holds differs in nothing. -/
theorem onlyRegs_regPut_same (s : State) (a : Nat) : OnlyRegs s (regPut s a (regGet s a)) [] := by
  intro b _
  by_cases h : b = a
  · rw [h, regGet_regPut_self]
  · exact regGet_regPut_ne s _ h

theorem written_regPut_same (s : State) (a : Nat) : Written s (replied (regPut s a (regGet s a)) 0 []) [] :=
  ⟨rfl, rfl, onlyRegs_regPut_same s a⟩

/-! ### Whom a write reaches -/

theorem barred_normal {s : State} (h : rf s aVrxState 63 60 ≠ 1) (req : Req) (a : Nat) : barred s req a = false := by
  simp [barred, h]

/-- Control space of the Drone domain and of P0's power control answers with the core stage off (R24). -/
theorem coreSpace_upkeep {a : Nat} (h : 0x030013000000 ≤ a) : coreSpace a = false := by
  simp only [coreSpace, Bool.and_eq_false_iff, decide_eq_false_iff_not]
  omega

/-- A register of no die, outside the space that the core stage serves, is reached. -/
theorem unreached_upkeep (s : State) (req : Req) {a : Nat} (ha : 0x030013000000 ≤ a) {r : Reg} (hr : regAt a = some r)
    (hd : regDie r = none) : unreached s req a = none := by
  simp [unreached, coreSpace_upkeep ha, hr, hd]

theorem unreached_hole (s : State) (req : Req) {a : Nat} (ha : 0x030013000000 ≤ a) (hr : regAt a = none) :
    unreached s req a = none := by
  simp [unreached, coreSpace_upkeep ha, hr]

theorem reached_of {s : State} (h : rf s aVrxState 63 60 ≠ 1) {req : Req} {a : Nat} (hu : unreached s req a = none)
    (f : State → Nat × State) : reached req a f s = f s := by
  simp [reached, barred_normal h, hu]

/-- A write that the host link and the management controller alone may make goes through for them. -/
theorem hostOnly_host {s : State} (h : rf s aVrxState 63 60 ≠ 1) {req : Req} (hq : isHost req = true) {a : Nat}
    (hu : unreached s req a = none) (u code : Nat) (f : State → Nat × State) : hostOnly req u code a f s = f s := by
  simp [hostOnly, hq, reached_of h hu]

theorem hostOnly_engine (s : State) (e : At) (u code a : Nat) (f : State → Nat × State) :
    hostOnly (.engine e) u code a f s = refuse s u code := rfl

/-! ### REGISTER_WRITE -/

/-- Control space above the tiles' register windows is no tile's. -/
theorem tileAt_upkeep {a : Nat} (h : 0x03000D000000 ≤ a) : tileAt a = none := by
  simp only [tileAt, tileAreas, storeBase, imemBase, holdPhys, tileRegs, List.findSome?_cons, List.findSome?_nil]
  repeat rw [if_neg (by omega)]

theorem heldBack_upkeep (s : State) {a : Nat} (h : 0x03000D000000 ≤ a) : heldBack s (memSpan a 8) = false := by
  have hb : ¬ a + 8 ≤ hbmBytes := by simp only [hbmBytes]; omega
  simp [memSpan, hb, tileAt_upkeep h, heldBack]

/-- A write above the tiles' registers waits for nothing. -/
theorem takeWrite_upkeep (s : State) (req : Req) {a : Nat} (v : Word) (h : 0x03000D000000 ≤ a) :
    takeWrite s req a v = replied (write8 s req a v).2 (write8 s req a v).1 [] := by
  simp [takeWrite, heldBack_upkeep s h]

theorem areaOf_upkeep {a : Nat} (h : 0x03000D000000 ≤ a) (h' : a + 8 ≤ 0x030020000000) : areaOf a 8 = some .ctl := by
  have hbm : ¬a + 8 ≤ hbmBytes := by simp only [hbmBytes]; omega
  have store : ¬(storeBase ≤ a ∧ a + 8 ≤ storeEnd) := by simp only [storeBase, storeEnd]; omega
  have imem : ¬(imemBase ≤ a ∧ a + 8 ≤ imemEnd) := by simp only [imemBase, imemEnd]; omega
  have ctl : ctlBase ≤ a ∧ a + 8 ≤ ctlEnd := by simp only [ctlBase, ctlEnd]; omega
  rw [areaOf, if_neg (Nat.succ_ne_zero 7), if_neg hbm, if_neg store, if_neg imem, if_pos ctl]

theorem inWindow_upkeep {a : Nat} (h : 0x030013000000 ≤ a) : inWindow a 8 = false := by
  have : ¬a + 8 ≤ windowEnd := by simp only [windowEnd]; omega
  simp [inWindow, this]

theorem winAt_upkeep {a : Nat} (h : 0x030013000000 ≤ a) : winAt a = none := by
  have tiles : ¬(tileRegs ≤ a ∧ a < tileRegs + 8192 * 0x1000) := by simp only [tileRegs]; omega
  have groups : ¬(groupWins ≤ a ∧ a < groupWins + 64 * 0x80) := by simp only [groupWins]; omega
  have lanes : ¬(laneRegs ≤ a ∧ a < laneRegs + 4 * 0x100) := by simp only [laneRegs]; omega
  rw [winAt, if_neg tiles, if_neg groups, if_neg lanes]

/-- Eight bytes of control space among the registers of chapters 14 to 17 (MGT_ and above). -/
def inUpkeep (a : Nat) : Bool := decide (0x030013000000 ≤ a) && decide (a + 8 ≤ 0x030020000000)

/-- A REGISTER_WRITE of 8 bytes there is a write of control space, answered at once. -/
theorem exec_registerWrite (s : State) (req : Req) (a : BitVec 48) (v : Word) (h : inUpkeep a.toNat = true) :
    exec (.registerWrite req a v) s = .next (replied (ctlWrite s req a.toNat v).2 (ctlWrite s req a.toNat v).1 []) := by
  simp only [inUpkeep, Bool.and_eq_true, decide_eq_true_eq] at h
  show Host.Outcome.next (takeWrite s req a.toNat v) = _
  rw [takeWrite_upkeep s req v (by omega), write8, areaOf_upkeep (by omega) h.2]

/-- A write of an aligned register there is a write of the optics' block or of the upkeep's. -/
theorem ctlWrite_upkeep (s : State) (req : Req) {a : Nat} (v : Word) (h : inUpkeep a = true) (h8 : a % 8 = 0) {r : Reg}
    (hr : regAt a = some r) (hk : r.kind ≠ .tileGrp) :
    ctlWrite s req a v = if a < 0x030014000000 then wOptics s req r a v else wUpkeep s req r a v := by
  simp only [inUpkeep, Bool.and_eq_true, decide_eq_true_eq] at h
  obtain ⟨hlo, -⟩ := h
  simp only [ctlWrite, inWindow_upkeep hlo, winAt_upkeep hlo, h8, hr, hk, Option.isSome_none, Bool.false_eq_true, ne_eq,
    not_true_eq_false, or_self, if_false]
  rw [if_neg (by omega), if_neg (by omega), if_neg (by omega), if_neg (by omega)]

/-- A write by type that meets no lock puts the word that the types leave. -/
theorem plain_unlocked (s : State) {a : Nat} (v : Word) {r : Reg} (hr : regAt a = some r)
    (hl : anyLocks (kindFields r.kind) = true → secLocked s = false) :
    plain a v s = (0, regPut s a (wordAfter (secLocked s) r.kind (regGet s a) v)) := by
  simp [plain, typedAccess, hr, writeFields_unlocked v hl]

end Sys2Proof.Machine
end

section
/-! What a REGISTER_WRITE does to registers that no rule treats apart (R9 to R11, Table 0.6). -/

namespace Sys2Proof.Machine

/-- The register at an address of chapters 14 to 17 that a write meets by the types of its fields alone. Requesters other than
    the host link and the management controller are refused with a code of a unit. -/
structure TypedAt (a : Nat) (r : Reg) (u code : Nat) : Prop where
  upkeep : inUpkeep a = true
  aligned : a % 8 = 0
  reg : regAt a = some r
  noDie : regDie r = none
  noGroup : r.kind ≠ .tileGrp
  guarded : ∀ s req v, (if a < 0x030014000000 then wOptics s req r a v else wUpkeep s req r a v) = hostOnly req u code a (plain a v) s

theorem typedAt_nvsAddr : TypedAt aNvsAddr ⟨.nvsAddr, 0, 0⟩ unitSecurity 0x9028 := ⟨rfl, rfl, rfl, rfl, nofun, fun _ _ _ => rfl⟩
theorem typedAt_nvsLen : TypedAt aNvsLen ⟨.nvsLen, 0, 0⟩ unitSecurity 0x9028 := ⟨rfl, rfl, rfl, rfl, nofun, fun _ _ _ => rfl⟩
theorem typedAt_nvsStatus : TypedAt aNvsStatus ⟨.nvsStatus, 0, 0⟩ unitSecurity 0x9028 := ⟨rfl, rfl, rfl, rfl, nofun, fun _ _ _ => rfl⟩
theorem typedAt_nvsCtrl : TypedAt aNvsCtrl ⟨.nvsCtrl, 0, 0⟩ unitSecurity 0x9028 := ⟨rfl, rfl, rfl, rfl, nofun, fun _ _ _ => rfl⟩
theorem typedAt_secQaddr : TypedAt aSecQaddr ⟨.secQaddr, 0, 0⟩ unitSecurity 0x9028 := ⟨rfl, rfl, rfl, rfl, nofun, fun _ _ _ => rfl⟩
theorem typedAt_vrxState : TypedAt aVrxState ⟨.vrxState, 0, 0⟩ unitSecurity 0x9028 := ⟨rfl, rfl, rfl, rfl, nofun, fun _ _ _ => rfl⟩
theorem typedAt_mgtFmHi : TypedAt aMgtFmHi ⟨.mgtFmHi, 0, 0⟩ unitHostLink 0x9026 := ⟨rfl, rfl, rfl, rfl, nofun, fun _ _ _ => rfl⟩
theorem typedAt_mgtStorm : TypedAt aMgtStorm ⟨.mgtStorm, 0, 0⟩ unitFirmware 0x902A := ⟨rfl, rfl, rfl, rfl, nofun, fun _ _ _ => rfl⟩
theorem typedAt_pwrStatus : TypedAt aPwrStatus ⟨.pwrStatus, 0, 0⟩ unitFirmware 0x9027 := ⟨rfl, rfl, rfl, rfl, nofun, fun _ _ _ => rfl⟩
theorem typedAt_thmDie3 : TypedAt (aThmDie 3) ⟨.thmDie, 3, 0⟩ unitFirmware 0x9027 := ⟨rfl, rfl, rfl, rfl, nofun, fun _ _ _ => rfl⟩

/-- A family of registers of one map at indices below `n` is met by type where its addresses are, and its block's arm says so. -/
theorem typedAt_family {n : Nat} {addr : Nat → Nat} {k : Kind} {u code : Nat}
    (hplace : ∀ i, i < n → inUpkeep (addr i) = true ∧ addr i % 8 = 0 ∧ regAt (addr i) = some ⟨k, i, 0⟩)
    (hdie : ∀ i, regDie ⟨k, i, 0⟩ = none) (hgroup : k ≠ .tileGrp)
    (hguard : ∀ i, i < n → ∀ s req v, (if addr i < 0x030014000000 then wOptics s req ⟨k, i, 0⟩ (addr i) v
      else wUpkeep s req ⟨k, i, 0⟩ (addr i) v) = hostOnly req u code (addr i) (plain (addr i) v) s) {i : Nat} (hi : i < n) :
    TypedAt (addr i) ⟨k, i, 0⟩ u code :=
  have ⟨hin, h8, hr⟩ := hplace i hi
  ⟨hin, h8, hr, hdie i, hgroup, hguard i hi⟩

theorem typedAt_secNonce {k : Nat} (h : k < 4) : TypedAt (aSecNonce k) ⟨.secNonce, k, 0⟩ unitSecurity 0x9028 :=
  typedAt_family (addr := aSecNonce) (k := .secNonce) (n := 4) (by decide) (fun _ => rfl) nofun (fun i _ _ _ _ => if_neg (by simp only [aSecNonce]; omega)) h

theorem typedAt_mgtDly {k : Nat} (h : k < 6) : TypedAt (aMgtDly k) ⟨.mgtDly, k, 0⟩ unitHostLink 0x9026 :=
  typedAt_family (addr := aMgtDly) (k := .mgtDly) (n := 6) (by decide) (fun _ => rfl) nofun (fun i hi _ _ _ => if_pos (by simp only [aMgtDly]; omega)) h

theorem typedAt_mgtPairStat {k : Nat} (h : k < 16) : TypedAt (aMgtPairStat k) ⟨.mgtPairStat, k, 0⟩ unitFirmware 0x902A :=
  typedAt_family (addr := aMgtPairStat) (k := .mgtPairStat) (n := 16) (by decide) (fun _ => rfl) nofun (fun i _ _ _ _ => if_neg (by simp only [aMgtPairStat]; omega)) h

section
variable {s : State} {a : BitVec 48} {n u code : Nat} {r : Reg} (v : Word)

theorem TypedAt.ctlWrite_eq (h : TypedAt n r u code) (s : State) (req : Req) :
    ctlWrite s req n v = hostOnly req u code n (plain n v) s := by
  rw [ctlWrite_upkeep s req v h.upkeep h.aligned h.reg h.noGroup, h.guarded]

/-- A tile engine's write is refused. -/
theorem TypedAt.refuses_engine (h : TypedAt n r u code) (ha : a.toNat = n) (s : State) (e : At) :
    ∃ t, exec (.registerWrite (.engine e) a v) s = .next t ∧ Refused s t code u := by
  subst ha
  rw [exec_registerWrite s _ a v h.upkeep, h.ctlWrite_eq, hostOnly_engine]
  exact ⟨_, rfl, refused_refuse s u code⟩

/-- A write by the host link or the management controller is performed by type. -/
theorem TypedAt.exec_host (h : TypedAt n r u code) (ha : a.toNat = n) (hs : rf s aVrxState 63 60 ≠ 1) {req : Req} (hq : isHost req = true) :
    exec (.registerWrite req a v) s = .next (replied (plain n v s).2 (plain n v s).1 []) := by
  subst ha
  have hin := h.upkeep
  simp only [inUpkeep, Bool.and_eq_true, decide_eq_true_eq] at hin
  rw [exec_registerWrite s req a v h.upkeep, h.ctlWrite_eq, hostOnly_host hs hq (unreached_upkeep s req hin.1 h.reg h.noDie)]

/-- Where no locked field is met, the register takes the word that the types leave. -/
theorem TypedAt.writes (h : TypedAt n r u code) (ha : a.toNat = n) (hs : rf s aVrxState 63 60 ≠ 1) {req : Req} (hq : isHost req = true)
    (hl : anyLocks (kindFields r.kind) = true → secLocked s = false) :
    ∃ t, exec (.registerWrite req a v) s = .next t ∧ Written s t [n] ∧
      regGet t n = wordAfter (secLocked s) r.kind (regGet s n) v := by
  rw [h.exec_host v ha hs hq, plain_unlocked s v h.reg hl]
  exact ⟨_, rfl, written_regPut s n _, regGet_regPut_self s n _⟩

/-- A write of a register whose fields it cannot change, and that no lock refuses, changes no register. -/
theorem TypedAt.writes_nothing (h : TypedAt n r u code) (ha : a.toNat = n) (hs : rf s aVrxState 63 60 ≠ 1) {req : Req} (hq : isHost req = true)
    (hk : (kindFields r.kind).all (fun f => keepsOld (secLocked s) f.ty) = true)
    (hb : (writeFields (secLocked s) v (kindFields r.kind) (regGet s n)).2 = false) :
    ∃ t, exec (.registerWrite req a v) s = .next t ∧ Written s t [] := by
  have hp : plain n v s = (0, regPut s n (regGet s n)) := by
    simp [plain, typedAccess, h.reg, hb, writeFields_kept v hk]
  rw [h.exec_host v ha hs hq, hp]
  exact ⟨_, rfl, written_regPut_same s n⟩

end

/-! ### Fields -/

/-- The fields of a register map that a type test picks, by their bits. -/
def fieldsOf (k : Kind) (p : RType → Bool) : List (Nat × Nat) :=
  ((kindFields k).filter (fun f => p f.ty)).map (fun f => (f.hi, f.lo))

theorem fieldsAre_new (locked : Bool) (k : Kind) (w v : Word) : FieldsAre (wordAfter locked k w v) v (fieldsOf k (takesWrite locked)) := by
  intro f hf
  obtain ⟨g, hg, rfl⟩ := List.mem_map.1 hf
  obtain ⟨hgk, ht⟩ := List.mem_filter.1 hg
  exact fld_wordAfter_new hgk ht w v

theorem fieldsAre_old (locked : Bool) (k : Kind) (w v : Word) : FieldsAre (wordAfter locked k w v) w (fieldsOf k (keepsOld locked)) := by
  intro f hf
  obtain ⟨g, hg, rfl⟩ := List.mem_map.1 hf
  obtain ⟨hgk, ht⟩ := List.mem_filter.1 hg
  exact fld_wordAfter_old hgk ht w v

/-- The fields of a register map at a write, with LOCK 0 where it has an RWL field. -/
theorem TypedAt.writes_fields {s : State} {a : BitVec 48} {n u code : Nat} {r : Reg} (v : Word) (h : TypedAt n r u code) (ha : a.toNat = n)
    (hs : rf s aVrxState 63 60 ≠ 1) {req : Req} (hq : isHost req = true) (hl : anyLocks (kindFields r.kind) = true → secLocked s = false) :
    ∃ t, exec (.registerWrite req a v) s = .next t ∧ Written s t [n] ∧
      FieldsAre (regGet t n) v (fieldsOf r.kind (takesWrite (secLocked s))) ∧
      FieldsAre (regGet t n) (regGet s n) (fieldsOf r.kind (keepsOld (secLocked s))) := by
  obtain ⟨t, ht, hw, hg⟩ := h.writes v ha hs hq hl
  exact ⟨t, ht, hw, hg ▸ fieldsAre_new _ _ _ v, hg ▸ fieldsAre_old _ _ _ v⟩

end Sys2Proof.Machine
end

section
namespace Sys2Proof.Machine

/-! ### Addresses that hold no register -/

/-- A write of a reserved word of chapters 14 to 17 is ignored (R10). -/
theorem registerWrite_hole {s : State} (hs : rf s aVrxState 63 60 ≠ 1) {req : Req} (hq : isHost req = true) {a : BitVec 48} (v : Word)
    (h : inUpkeep a.toNat = true) (h8 : a.toNat % 8 = 0) (hr : regAt a.toNat = none) :
    exec (.registerWrite req a v) s = .next (replied s 0 []) := by
  rw [exec_registerWrite s req a v h]
  simp only [inUpkeep, Bool.and_eq_true, decide_eq_true_eq] at h
  obtain ⟨hlo, -⟩ := h
  have reserved : wReserved s req a.toNat = (0, s) := by
    simp [wReserved, hq, reached_of hs (unreached_hole s req hlo hr), holeCode, tileAt_upkeep (Nat.le_trans (by decide) hlo)]
  simp [ctlWrite, inWindow_upkeep hlo, winAt_upkeep hlo, h8, hr, reserved]

/-- A write there that is not of 8 aligned bytes is refused (R9). -/
theorem registerWrite_misaligned {s : State} (hs : rf s aVrxState 63 60 ≠ 1) (req : Req) {a : BitVec 48} (v : Word)
    (h : inUpkeep a.toNat = true) (h8 : a.toNat % 8 ≠ 0) :
    ∃ t, exec (.registerWrite req a v) s = .next t ∧ Refused s t 0x20F0 unitFirmware := by
  rw [exec_registerWrite s req a v h]
  simp only [inUpkeep, Bool.and_eq_true, decide_eq_true_eq] at h
  obtain ⟨hlo, -⟩ := h
  have refuses : ctlWrite s req a.toNat v = refuse s unitFirmware 0x20F0 := by
    simp [ctlWrite, inWindow_upkeep hlo, h8, barred_normal hs]
  rw [refuses]
  exact ⟨_, rfl, refused_refuse s unitFirmware 0x20F0⟩

theorem areaOf_offMap {a : Nat} (h : 0x030040000000 ≤ a) : areaOf a 8 = none := by
  have hbm : ¬a + 8 ≤ hbmBytes := by simp only [hbmBytes]; omega
  have store : ¬(storeBase ≤ a ∧ a + 8 ≤ storeEnd) := by simp only [storeBase, storeEnd]; omega
  have imem : ¬(imemBase ≤ a ∧ a + 8 ≤ imemEnd) := by simp only [imemBase, imemEnd]; omega
  have ctl : ¬(ctlBase ≤ a ∧ a + 8 ≤ ctlEnd) := by simp only [ctlBase, ctlEnd]; omega
  rw [areaOf, if_neg (Nat.succ_ne_zero 7), if_neg hbm, if_neg store, if_neg imem, if_neg ctl]

/-- A write by the host above the map finds nothing (Table 0.5). -/
theorem registerWrite_offMap (s : State) {a : BitVec 48} (v : Word) (h : 0x030040000000 ≤ a.toNat) :
    ∃ t, exec (.registerWrite .host a v) s = .next t ∧ Refused s t 0x2001 unitFirmware := by
  have finds : write8 s .host a.toNat v = refuse s unitFirmware 0x2001 := by
    have bytes : (wordLE v).length = 8 := natLE_length 8 _
    simp only [write8, areaOf_offMap h, memWrite, bytes]
    rfl
  refine ⟨_, congrArg Host.Outcome.next (takeWrite_upkeep s .host v (Nat.le_trans (by decide) h)), ?_⟩
  rw [finds]
  exact refused_refuse s unitFirmware 0x2001

/-! ### A locked NVS_CTRL -/

theorem fld_two_bits (w : Word) : fld w 1 0 = fld w 0 0 + 2 * fld w 1 1 := by
  simp only [fld]
  omega

/-- A write of NVS_CTRL under LOCK meets the lock where it would change one of its two bits. -/
theorem nvsCtrl_meets_lock (v w : Word) : (writeFields true v (kindFields .nvsCtrl) w).2 = decide (fld v 1 0 ≠ fld w 1 0) := by
  have hv := fld_lt v 0 0
  have hw := fld_lt w 0 0
  rw [fld_two_bits v, fld_two_bits w]
  simp only [kindFields, writeFields, writeField, if_true, Bool.or_false]
  rw [← Bool.decide_or, decide_eq_decide]
  omega

theorem nvsCtrl_kept (v w : Word) : (writeFields true v (kindFields .nvsCtrl) w).1 = w := writeFields_kept v rfl w

/-- A locked NVS_CTRL refuses another value, and stands (R469). -/
theorem registerWrite_locked {s : State} (hs : rf s aVrxState 63 60 ≠ 1) {a : BitVec 48} (ha : a.toNat = aNvsCtrl) (v : Word)
    (hl : secLocked s = true) (hc : fld v 1 0 ≠ fld (regGet s aNvsCtrl) 1 0) :
    ∃ t, exec (.registerWrite .host a v) s = .next t ∧
      t = { s with reply := (0x9020, []), regs := t.regs, rep := t.rep, free := t.free } ∧ OnlyRegs s t [] ∧ Says s t 0x9020 0x21 := by
  have raises : plain aNvsCtrl v s =
      (0x9020, report (regPut s aNvsCtrl (regGet s aNvsCtrl)) unitSecurity 0x9020) := by
    have hb := nvsCtrl_meets_lock v (regGet s aNvsCtrl)
    rw [decide_eq_true hc] at hb
    simp only [plain, typedAccess, typedAt_nvsCtrl.reg, hl, nvsCtrl_kept, hb, if_true]
  rw [typedAt_nvsCtrl.exec_host v ha hs rfl, raises]
  exact ⟨_, rfl, rfl, onlyRegs_regPut_same s aNvsCtrl, says_emit _ unitSecurity 0x9020 {}⟩

theorem mgtPairStat_miscompare (locked : Bool) (w v : Word) :
    bit (wordAfter locked .mgtPairStat w v) 63 = (bit w 63 && !bit v 63) :=
  bit_writeFields locked v (kindFields_below .mgtPairStat) w (f := ⟨63, 63, .w1c, 0, .m⟩) List.mem_cons_self (Nat.le_refl 63) (Nat.le_refl 63)

end Sys2Proof.Machine

namespace Sys2Proof.Settled
open Machine

/-- Settles O54: each named register is `TypedAt` its address, so a write is `wordAfter` by the fields' types; the rows without a
register follow the branches of `ctlWrite`. -/
theorem registerWrites : Obligations.RegisterWrites := by
  intro s v a e k hs w locked ctrl changes clears at_
  have free {κ : Kind} (h : anyLocks (kindFields κ) = false) : anyLocks (kindFields κ) = true → secLocked s = false :=
    fun h' => absurd (h.symm.trans h') Bool.false_ne_true
  -- a register all of whose writable fields are of type RW
  have fresh {n u c : Nat} {r : Reg} {req : Req} (h : TypedAt n r u c) (hq : isHost req = true) (ha : at_ n)
      (hl : anyLocks (kindFields r.kind) = true → secLocked s = false) :
      ∃ t, exec (.registerWrite req a v) s = .next t ∧ w n t (fieldsOf r.kind (takesWrite (secLocked s))) := by
    obtain ⟨t, ht, hw, hf, -⟩ := h.writes_fields v ha hs hq hl
    exact ⟨t, ht, hw, hf⟩
  -- a register that no write changes
  have nothing {n u c : Nat} {r : Reg} (h : TypedAt n r u c) (ha : at_ n)
      (hk : (kindFields r.kind).all (fun f => keepsOld (secLocked s) f.ty) = true) (hl : anyLocks (kindFields r.kind) = false) :
      ∃ t, exec (.registerWrite .host a v) s = .next t ∧ Written s t [] :=
    h.writes_nothing v ha hs rfl hk (writeFields_unlocked v (free hl) _)
  simp only [cases_cons]
  refine ⟨fun ha => fresh typedAt_nvsAddr rfl ha (free rfl), fun ha => fresh typedAt_nvsLen rfl ha (free rfl),
    fun ha => fresh typedAt_secQaddr rfl ha (free rfl), fun ha => fresh typedAt_mgtFmHi rfl ha (free rfl),
    fun ⟨ha, hk⟩ => fresh (typedAt_mgtDly hk) rfl ha (free rfl), fun ⟨ha, hk⟩ => fresh (typedAt_secNonce hk) rfl ha (free rfl),
    ?storm, ?pair, ?readOnly, ?opened, ?same, ?changed, ?engine, ?reserved, ?misaligned,
    fun ha => registerWrite_offMap s v ha, cases_nil s⟩
  case storm =>
    intro ha
    obtain ⟨t, ht, hw, hnew, hold⟩ := typedAt_mgtStorm.writes_fields v ha hs (req := .host) rfl (free rfl)
    exact ⟨t, ht, hw, hnew (47, 32) List.mem_cons_self, hold⟩
  case pair =>
    rintro ⟨ha, hk⟩
    obtain ⟨t, ht, hw, hg⟩ := (typedAt_mgtPairStat hk).writes v ha hs (req := .host) rfl (free rfl)
    refine ⟨t, ht, hw, ?_, hg ▸ fieldsAre_old _ .mgtPairStat _ v⟩
    rw [hg, mgtPairStat_miscompare]
    simp [clears]
  case readOnly =>
    rintro (ha | ha | ha | ha)
    · exact nothing typedAt_vrxState ha rfl rfl
    · exact nothing typedAt_nvsStatus ha rfl rfl
    · exact nothing typedAt_pwrStatus ha rfl rfl
    · exact nothing typedAt_thmDie3 ha rfl rfl
  case opened =>
    rintro ⟨ha, hl⟩
    have hl : secLocked s = false := Bool.eq_false_iff.2 hl
    have := fresh typedAt_nvsCtrl (req := .host) rfl ha (fun _ => hl)
    rwa [hl] at this
  case same =>
    rintro ⟨ha, hl, hc⟩
    have hl : secLocked s = true := hl
    refine typedAt_nvsCtrl.writes_nothing v ha hs rfl (by rw [hl]; rfl) ?_
    rw [hl, nvsCtrl_meets_lock]
    exact decide_eq_false hc
  case changed => exact fun ⟨ha, hl, hc⟩ => registerWrite_locked hs ha v hl hc
  case engine =>
    rintro (ha | ha | ha)
    · exact typedAt_nvsAddr.refuses_engine v ha s e
    · exact typedAt_secQaddr.refuses_engine v ha s e
    · exact typedAt_nvsCtrl.refuses_engine v ha s e
  case reserved =>
    rintro (ha | ha)
    · exact ⟨_, registerWrite_hole hs rfl v (ha ▸ rfl) (ha ▸ rfl) (ha ▸ rfl), rfl⟩
    · exact ⟨_, registerWrite_hole hs rfl v (ha ▸ rfl) (ha ▸ rfl) (ha ▸ rfl), rfl⟩
  case misaligned =>
    rintro ⟨h8, hlo, hhi⟩
    exact registerWrite_misaligned hs .host v (by simp [inUpkeep]; omega) h8

end Sys2Proof.Settled
end

section
/-! The module at a cold start (R13, R36, R452). -/

namespace Sys2Proof.Machine

/-- At a cold start no register is written yet: each holds its reset value. -/
theorem regGet_reset (a : Nat) : regGet State.reset a = resetAt a := rfl

/-- A place of flash outside the manufacture area reads erased (R455). -/
theorem flashByte_reset (a : Nat) : flashByte State.reset a = 0xFF ∨ (0x2000000 ≤ a ∧ a < 0x2100000) := by
  unfold flashByte
  split
  · exact Or.inr ‹_›
  · exact Or.inl rfl

end Sys2Proof.Machine

namespace Sys2Proof.Settled
open Machine

/-- Settles O56: nothing is listed in the tables of the reset state, so every read is of a default, which for a register is its
Reset column. -/
theorem resetValues : Obligations.ResetValues := by
  refine ⟨rfl, rfl, rfl, rfl, rfl, regGet_reset, fun _ => rfl, fun _ => rfl, fun _ _ => ⟨rfl, rfl⟩, fun _ _ => rfl, flashByte_reset,
    ?fields⟩
  -- the fields by name: each evaluates to its Reset column
  exact ⟨rfl, rfl, rfl, rfl, rfl, rfl, rfl, rfl, by decide, by decide, rfl, rfl, rfl, rfl⟩

end Sys2Proof.Settled
end

section
/-! SUPPORT. What a reset of registers, the loss of the core, and a module reset leave (R13, R24 to R26, R447, Table 16.3). -/

namespace Sys2Proof.Machine

/-! ### Resets of registers (R13) -/

theorem resetRegsIn_frame (p : Reg → Bool) (codes : RCode → Bool) (L : List (Nat × Word)) (s : State) :
    resetRegsIn p codes L s = { s with regs := (resetRegsIn p codes L s).regs } := by
  induction L generalizing s with
  | nil => rfl
  | cons x L ih =>
    obtain ⟨a, w⟩ := x
    unfold resetRegsIn
    split
    · exact ih s
    · split <;> exact ih _

/-- A reset of registers changes nothing else. -/
theorem resetRegs_frame (s : State) (p : Reg → Bool) (codes : RCode → Bool) :
    resetRegs s p codes = { s with regs := (resetRegs s p codes).regs } := resetRegsIn_frame p codes s.regs s

/-- A register that no entry of the list names stands. -/
theorem regGet_resetRegsIn_unlisted (p : Reg → Bool) (codes : RCode → Bool) {L : List (Nat × Word)} {a : Nat} (h : a ∉ L.map Prod.fst)
    (s : State) : regGet (resetRegsIn p codes L s) a = regGet s a := by
  induction L generalizing s with
  | nil => rfl
  | cons x L ih =>
    obtain ⟨b, w⟩ := x
    obtain ⟨hne, hL⟩ := (not_or.1 fun hm => h (List.mem_cons.2 hm) : a ≠ b ∧ a ∉ L.map Prod.fst)
    unfold resetRegsIn
    split
    · exact ih hL s
    · rw [ih hL]
      split
      · exact regGet_regPut_ne s _ hne
      · rfl

/-- An entry of the list that `p` picks takes the word that the reset leaves. -/
theorem regGet_resetRegsIn_listed {p : Reg → Bool} (codes : RCode → Bool) {L : List (Nat × Word)} (hL : (L.map Prod.fst).Nodup) {a : Nat}
    {w : Word} (h : (a, w) ∈ L) {r : Reg} (hr : regAt a = some r) (hp : p r = true) (s : State) :
    regGet (resetRegsIn p codes L s) a = resetFields codes (regReset r) (kindFields r.kind) w := by
  induction L generalizing s with
  | nil => cases h
  | cons x L ih =>
    obtain ⟨b, u⟩ := x
    obtain ⟨hb, hL⟩ := List.nodup_cons.1 hL
    rcases List.mem_cons.1 h with heq | h
    · cases heq
      simp only [resetRegsIn, hr, hp, if_true]
      rw [regGet_resetRegsIn_unlisted p codes hb, regGet_regPut_self]
    · unfold resetRegsIn
      split <;> exact ih hL h _

theorem tget_mem_or {d : Word} (L : Tbl Word) (a : Nat) : (a, tget d L a) ∈ L ∨ (a ∉ L.map Prod.fst ∧ tget d L a = d) := by
  induction L with
  | nil => exact Or.inr ⟨List.not_mem_nil, rfl⟩
  | cons x L ih =>
    obtain ⟨b, u⟩ := x
    unfold tget
    split
    · rename_i h; subst h; exact Or.inl List.mem_cons_self
    · rename_i h
      exact ih.imp (List.mem_cons_of_mem _) fun ⟨hn, hd⟩ => ⟨fun hm => (List.mem_cons.1 hm).elim (Ne.symm h) hn, hd⟩

/-- Every field of the given codes, of each register that `p` picks, reads its reset value, and the others stand (R13): a
    register that is listed has been visited once, and one that is not holds its reset value already. -/
theorem fld_resetRegs {s : State} (hL : ListedOnce s) {p : Reg → Bool} (codes : RCode → Bool) {a : Nat} {r : Reg} (hr : regAt a = some r)
    (hp : p r = true) {f : RField} (hf : f ∈ kindFields r.kind) :
    fld (regGet (resetRegs s p codes) a) f.hi f.lo =
      if codes f.code = true then fld (regReset r) f.hi f.lo else fld (regGet s a) f.hi f.lo := by
  rcases tget_mem_or (d := resetAt a) s.regs a with h | ⟨hn, hd⟩
  · rw [resetRegs, regGet_resetRegsIn_listed codes hL h hr hp]
    exact fld_resetFields codes _ _ hf
  · have held : regGet s a = regReset r := hd.trans (by rw [resetAt, hr])
    rw [resetRegs, regGet_resetRegsIn_unlisted p codes hn, held, ite_self]

/-! ### The loss of the core (R97, R451) -/

/-- The core of `s` is empty in a state that agrees with a wipe of the same tiles wherever a wipe acts. -/
theorem coreEmpty_of_wipe {s u t : State} (hu : u.tile = s.tile)
    (ht : t = { wipeCore u with pending := t.pending, free := t.free, reply := t.reply, regs := t.regs, drone := t.drone, rep := t.rep
                                mgt := t.mgt, pins := t.pins, thm := t.thm, sto := t.sto }) : CoreEmpty s t := by
  have tiles (n : Nat) : getTile t n = { bank := (getTile s n).bank } := by
    rw [ht, getTile, getTile, ← hu]
    exact tget_tmap {} (fun _ x => { bank := x.bank }) u.tile n rfl
  rw [ht] at tiles ⊢
  exact ⟨⟨rfl, rfl, rfl, rfl, rfl, rfl⟩, ⟨rfl, rfl, rfl, rfl, rfl, rfl, rfl, rfl, rfl, rfl⟩, tiles⟩

/-- An end of pairs reports, and changes registers (R494). -/
theorem breakPair_frame (s : State) (t : Nat) : Reported s (breakPair s t) ∧ s.rep.raised <+: (breakPair s t).rep.raised := by
  unfold breakPair
  split
  · exact ⟨rfl, [], List.append_nil _⟩
  · exact ⟨rfl, _, rfl⟩

theorem breakPairs_frame (s : State) (p : Nat → Bool) : Reported s (breakPairs s p) ∧ s.rep.raised <+: (breakPairs s p).rep.raised := by
  unfold breakPairs
  generalize List.range 16 = ks
  induction ks generalizing s with
  | nil => exact ⟨rfl, [], List.append_nil _⟩
  | cons k ks ih =>
    rw [List.foldl_cons]
    have first : ∀ u, Reported s u ∧ s.rep.raised <+: u.rep.raised →
        Reported s (ks.foldl _ u) ∧ s.rep.raised <+: (ks.foldl _ u).rep.raised :=
      fun u hu => ⟨reported_trans hu.1 (ih u).1, hu.2.trans (ih u).2⟩
    apply first
    split
    · split
      · exact breakPair_frame s _
      · split
        · exact breakPair_frame s _
        · exact ⟨rfl, [], List.append_nil _⟩
    · exact ⟨rfl, [], List.append_nil _⟩

/-! ### Alerts (R22, R418) -/

/-- An alert check can only lower ALERT_N. -/
theorem alertCheck_frame (s : State) : alertCheck s = { s with mgt := { s.mgt with alert := (alertCheck s).mgt.alert } } := by
  unfold alertCheck
  split <;> rfl

/-- With PWR_GOOD low and its condition enabled, ALERT_N goes low. -/
theorem alertCheck_pwrGood_low {s : State} (hp : s.pins.pwrGood = false) (hm : s.mgt.smbMask.getLsbD 3 = true) :
    (alertCheck s).mgt.alert = true := by
  have cond : ∀ a b c : Bool, (flagBit a 0 + flagBit b 1 + flagBit c 2 + flagBit true 3).testBit 3 = true := by decide
  have pending : alertPending s = true := by
    refine decide_eq_true fun h => ?_
    have bit3 : (alertConds s &&& s.mgt.smbMask.toNat).testBit 3 = true := by
      rw [Nat.testBit_and, alertConds, hp]
      exact Bool.and_eq_true_iff.2 ⟨cond _ _ _, hm⟩
    rw [h] at bit3
    exact absurd bit3 (by decide)
  simp [alertCheck, pending]

/-! ### The THERMAL record (R463) -/

section
variable {s t : State} (h : t.sto.flash = s.sto.flash)
include h

theorem flashByte_congr : flashByte t = flashByte s := by
  funext a
  rw [flashByte, flashByte, h]

theorem flashRead_congr : flashRead t = flashRead s := by
  funext a n
  induction n generalizing a with
  | zero => rfl
  | succ n ih => rw [flashRead, flashRead, flashByte_congr h, ih]

theorem slotLen_congr : slotLen t = slotLen s := by
  funext k b
  rw [slotLen, slotLen, flashRead_congr h]

theorem slotPayload_congr : slotPayload t = slotPayload s := by
  funext k b
  rw [slotPayload, slotPayload, slotLen_congr h, flashRead_congr h]

theorem slotValid_congr : slotValid t = slotValid s := by
  funext k b
  rw [slotValid, slotValid, slotLen_congr h, slotPayload_congr h, flashRead_congr h, flashByte_congr h]

theorem curSlot_congr : curSlot t = curSlot s := by
  funext k
  rw [curSlot, curSlot, slotValid_congr h, slotGen, slotGen, slotGen, slotGen, flashRead_congr h]

/-- The THERMAL record is a matter of flash alone. -/
theorem thermalRec_congr : thermalRec t = thermalRec s := by
  rw [thermalRec, thermalRec, curSlot_congr h, flashRead_congr h, slotPayload_congr h]

end

/-! ### The start of the core stage (R24) -/

theorem startCore_guard (s : State) :
    (s.pins.want ∧ !s.pins.core ∧ s.pins.input ∧ s.pins.drone ∧ !s.pins.powerLost ∧ !s.pins.tripLow ∧ !s.pins.rstLow ∧ !s.pins.railFail ∧
      !s.sto.commits.any (fun c => c.kind = 4 && !c.clear)) ↔
    s.pins.want = true ∧ s.pins.core = false ∧ CoreMay s s.pins := by
  simp [CoreMay]

theorem startCore_starts {s : State} (h : s.pins.want = true ∧ s.pins.core = false ∧ CoreMay s s.pins) :
    startCore s = { s with pins := { s.pins with core := true } } := if_pos ((startCore_guard s).2 h)

theorem startCore_stays {s : State} (h : ¬(s.pins.want = true ∧ s.pins.core = false ∧ CoreMay s s.pins)) :
    startCore s = s := if_neg (mt (startCore_guard s).1 h)

/-- A start of the core stage changes that pin alone. -/
theorem startCore_frame (s : State) : startCore s = { s with pins := (startCore s).pins } := by
  unfold startCore
  dsimp only
  split <;> rfl

/-! ### Module reset (R447, Table 16.3) -/

/-- With no NVS command in progress, nothing of flash is cut short. -/
theorem cutCommand_idle {s : State} (h : NoCommand s) : cutCommand s = { s with
    sto := { s.sto with cmd := none, cmdCode := 0, commits := s.sto.commits.map (fun c => { c with nvs := false }) } } := by
  unfold cutCommand
  rw [show s.sto.cmd = none from h]

/-- That a commit is no longer an NVS command's does not matter to the start of the core stage. -/
theorem thermalCommits_cut (cs : List Commit) :
    (∀ c ∈ cs.map (fun c => { c with nvs := false }), ¬(c.kind = 4 ∧ c.clear = false)) ↔ ∀ c ∈ cs, ¬(c.kind = 4 ∧ c.clear = false) := by
  simp

/-- The body of a module reset of a module whose NVS command has been cut short, field by field. -/
def bodyOf (c : State) : State :=
  { wipeCore c with
    regs := (resetRegs (wipeCore c) (fun _ => true) codeM).regs
    rep := { last := c.rep.last, sent := c.rep.sent, mgt := c.rep.mgt }
    drone := { c.drone with inRange := 0, everAligned := false, offs := [], slew := 0, ran := 0 }
    mgt := { c.mgt with smbMask := 0xF }
    thm := {}
    sto := { c.sto with meas := [], pubKey := [], secret := [], quote := none, image := [] } }

theorem resetBody_eq (s : State) : resetBody s = bodyOf (cutCommand s) := by
  unfold resetBody bodyOf
  generalize cutCommand s = c
  have frame := resetRegs_frame (wipeCore c) (fun _ => true) codeM
  dsimp only
  generalize resetRegs (wipeCore c) (fun _ => true) codeM = r at frame
  rw [frame]
  rfl

/-- Nothing but registers differs. -/
def RegsOnly (s t : State) : Prop := t = { s with regs := t.regs }

theorem regsOnly_trans {s t u : State} (h : RegsOnly s t) (k : RegsOnly t u) : RegsOnly s u := by
  unfold RegsOnly at *
  rw [k, h]

/-- The registers that a module reset sets after its body: THM_HOLD, the cause, and the boot step (Table 16.3). -/
def bootRegs (u : State) (cause : Nat) : State :=
  rset (rset (rset (loadHold u) aTenModstat 63 60 cause) aVrxState 63 60 0) aVrxState 55 52 1

theorem bootRegs_frame (u : State) (cause : Nat) : RegsOnly u (bootRegs u cause) :=
  have show_ : RegsOnly u (showRecord u) := regsOnly_trans (t := rsetb u aThmHold 62 _) rfl rfl
  have load : RegsOnly u (loadHold u) := regsOnly_trans show_ rfl
  have said : RegsOnly u (rset (loadHold u) aTenModstat 63 60 cause) := regsOnly_trans load rfl
  have booted : RegsOnly u (rset (rset (loadHold u) aTenModstat 63 60 cause) aVrxState 63 60 0) := regsOnly_trans said rfl
  regsOnly_trans booted rfl

theorem regGet_bootRegs_of (u : State) (cause : Nat) {a : Nat} (hm : a ≠ aTenModstat) (hv : a ≠ aVrxState) (ht : a ≠ aThmHold) :
    regGet (bootRegs u cause) a = regGet u a := by
  simp only [bootRegs, loadHold, showRecord, rset, rsetb]
  rw [regGet_regPut_ne _ _ hv, regGet_regPut_ne _ _ hv, regGet_regPut_ne _ _ hm, regGet_regPut_ne _ _ ht, regGet_regPut_ne _ _ ht,
    regGet_regPut_ne _ _ ht]

theorem bootRegs_cause (u : State) {cause : Nat} (hc : cause < 16) : rf (bootRegs u cause) aTenModstat 63 60 = cause := by
  have apart : aTenModstat ≠ aVrxState := by decide
  rw [rf, bootRegs, rset, rset, regGet_regPut_ne _ _ apart, regGet_regPut_ne _ _ apart, rset, regGet_regPut_self,
    fld_setFld_self _ 60 cause (by decide)]
  exact Nat.mod_eq_of_lt hc

theorem bootRegs_boots (u : State) (cause : Nat) :
    rf (bootRegs u cause) aVrxState 63 60 = 0 ∧ rf (bootRegs u cause) aVrxState 55 52 = 1 := by
  rw [rf, rf, bootRegs, rset, regGet_regPut_self, fld_setFld_apart _ _ (by decide), fld_setFld_self _ 52 1 (by decide), rset,
    regGet_regPut_self, fld_setFld_self _ 60 0 (by decide)]
  exact ⟨rfl, rfl⟩

theorem bootRegs_hold (u : State) (cause : Nat) : rbit (bootRegs u cause) aThmHold 63 = (thermalRec u).isSome := by
  rw [rbit, bootRegs, rset, regGet_regPut_ne _ _ (by decide), rset, regGet_regPut_ne _ _ (by decide), rset,
    regGet_regPut_ne _ _ (by decide), loadHold, rsetb, regGet_regPut_self, bit_setBit_self _ _ (by decide)]

/-- A module reset before the core stage may start. -/
def bootState (u : State) (cause : Nat) : State :=
  { bootRegs u cause with pins := { u.pins with core := false, pwrGood := false, want := true } }

/-- A module reset after its body. -/
def boots (u : State) (cause : Nat) : State := alertCheck (startCore (bootState u cause))

theorem moduleReset_eq (s : State) (cause : Nat) : moduleReset s cause = boots (bodyOf (cutCommand s)) cause := by
  rw [← resetBody_eq]
  rfl

/-- The start of the core stage, with its alert, changes pins and the alert. -/
theorem starts_frame (b : State) : alertCheck (startCore b) = { b with
    pins := (startCore b).pins, mgt := { b.mgt with alert := (alertCheck (startCore b)).mgt.alert } } := by
  have started := startCore_frame b
  have alerted := alertCheck_frame (startCore b)
  generalize alertCheck (startCore b) = a at alerted ⊢
  generalize startCore b = c at started alerted ⊢
  rw [alerted, started]

/-- The rest of a module reset changes registers, pins and the alert. -/
theorem boots_frame (u : State) (cause : Nat) : boots u cause = { u with
    regs := (bootRegs u cause).regs, pins := (startCore (bootState u cause)).pins, mgt := { u.mgt with alert := (boots u cause).mgt.alert } } := by
  have regs := bootRegs_frame u cause
  have frame := starts_frame (bootState u cause)
  unfold RegsOnly at regs
  unfold boots
  generalize alertCheck (startCore (bootState u cause)) = a at frame ⊢
  generalize (startCore (bootState u cause)).pins = p at frame ⊢
  unfold bootState at frame
  generalize bootRegs u cause = b at regs frame ⊢
  rw [frame, regs]

theorem regGet_boots (u : State) (cause a : Nat) : regGet (boots u cause) a = regGet (bootRegs u cause) a := by
  have regs : (boots u cause).regs = (bootRegs u cause).regs := by rw [boots_frame]
  rw [regGet, regGet, regs]

theorem coreMay_bootState {u : State} {cause : Nat} : CoreMay (bootState u cause) (bootState u cause).pins ↔ CoreMay u u.pins := by
  unfold CoreMay bootState
  rw [bootRegs_frame]

theorem boots_pins_starts {u : State} (h : CoreMay u u.pins) (cause : Nat) :
    (boots u cause).pins = { u.pins with core := true, pwrGood := false, want := true } := by
  rw [boots_frame]
  exact congrArg State.pins (startCore_starts (s := bootState u cause) ⟨rfl, rfl, coreMay_bootState.2 h⟩)

theorem boots_pins_stays {u : State} (h : ¬CoreMay u u.pins) (cause : Nat) :
    (boots u cause).pins = { u.pins with core := false, pwrGood := false, want := true } := by
  rw [boots_frame]
  exact congrArg State.pins (startCore_stays (s := bootState u cause) fun ⟨_, _, hc⟩ => h (coreMay_bootState.1 hc))

/-- The rails are not in regulation yet (R418). -/
theorem boots_alert {u : State} (hm : u.mgt.smbMask = 0xF) (cause : Nat) : (boots u cause).mgt.alert = true := by
  have low : (startCore (bootState u cause)).pins.pwrGood = false := by
    unfold startCore
    dsimp only
    split <;> rfl
  have mask : (startCore (bootState u cause)).mgt.smbMask = u.mgt.smbMask := by
    rw [startCore_frame]
    rfl
  exact alertCheck_pwrGood_low low (by rw [mask, hm]; rfl)

/-- A module reset does what Table 16.3 says (R447), once its NVS command has been cut short. -/
theorem boots_resets {c : State} (hL : ListedOnce c) {cause : Nat} (hc : cause < 16) :
    ModuleResets c (boots (bodyOf c) cause) cause (boots (bodyOf c) cause).pins where
  core := coreEmpty_of_wipe (u := c) rfl (by rw [boots_frame]; rfl)
  regs := by
    intro a r hr hp f hf
    simp only [Bool.not_eq_true', Bool.or_eq_false_iff, beq_eq_false_iff_ne] at hp
    obtain ⟨⟨hm, hv⟩, ht⟩ := hp
    rw [regGet_boots, regGet_bootRegs_of _ cause hm hv ht]
    exact fld_resetRegs (s := wipeCore c) hL codeM hr rfl hf
  cause := by rw [rf, regGet_boots]; exact bootRegs_cause _ hc
  boots := by rw [rf, rf, regGet_boots]; exact bootRegs_boots _ cause
  hold := by
    rw [rbit, regGet_boots]
    exact (bootRegs_hold _ cause).trans (congrArg Option.isSome (thermalRec_congr rfl))
  records := by rw [boots_frame]; exact ⟨rfl, rfl, rfl⟩
  counter := by rw [boots_frame]; exact ⟨rfl, rfl, rfl⟩
  heat := by rw [boots_frame]; rfl
  alert := ⟨by rw [boots_frame]; rfl, boots_alert rfl cause⟩
  flash := by rw [boots_frame]; rfl
  trust := by rw [boots_frame]; exact ⟨rfl, rfl, rfl, rfl⟩
  pins := rfl

/-- A module reset of a state is one of every state with the same tiles, registers, flash and counter. -/
theorem ModuleResets.of_agrees {s c t : State} {cause : Nat} {p : Pins} (h : ModuleResets c t cause p) (htile : c.tile = s.tile)
    (hregs : c.regs = s.regs) (hflash : c.sto.flash = s.sto.flash) (htick : c.drone.tick = s.drone.tick) : ModuleResets s t cause p where
  core := ⟨h.core.memory, h.core.units, fun n => by have := h.core.tiles n; rwa [getTile, getTile, htile] at this⟩
  regs := fun a r hr hp f hf => by have := h.regs a r hr hp f hf; rwa [regGet, regGet, hregs] at this
  cause := h.cause
  boots := h.boots
  hold := by rw [h.hold, thermalRec_congr hflash]
  records := h.records
  counter := by rw [← htick]; exact h.counter
  heat := h.heat
  alert := h.alert
  flash := by rw [h.flash, hflash]
  trust := h.trust
  pins := h.pins

/-- A reply to the requester is no part of what a module reset leaves. -/
theorem ModuleResets.replied {s t : State} {cause : Nat} {p : Pins} (h : ModuleResets s t cause p) (code : Nat) (bs : List Byte) :
    ModuleResets s (replied t code bs) cause p where
  core := ⟨h.core.memory, h.core.units, h.core.tiles⟩
  regs := h.regs
  cause := h.cause
  boots := h.boots
  hold := h.hold
  records := h.records
  counter := h.counter
  heat := h.heat
  alert := h.alert
  flash := h.flash
  trust := h.trust
  pins := h.pins

theorem coreMay_cut {s : State} (h : NoCommand s) : CoreMay (bodyOf (cutCommand s)) (bodyOf (cutCommand s)).pins ↔ CoreMay s s.pins := by
  rw [cutCommand_idle h]
  exact and_congr_right' <| and_congr_right' <| and_congr_right' <| and_congr_right' <| and_congr_right' <| and_congr_right' <|
    thermalCommits_cut s.sto.commits

section
variable {s : State} (hL : ListedOnce s) (h : NoCommand s) (q : Pins) {cause : Nat} (hc : cause < 16)
include hL h hc

/-- A module reset with no NVS command in progress, from `s` with other pins. -/
theorem moduleReset_resets :
    ModuleResets s (moduleReset { s with pins := q } cause) cause (moduleReset { s with pins := q } cause).pins := by
  rw [moduleReset_eq, cutCommand_idle (s := { s with pins := q }) h]
  exact (boots_resets (c := { s with pins := q, sto := _ }) hL hc).of_agrees rfl rfl rfl rfl

/-- It starts the core stage where nothing holds that back. -/
theorem moduleReset_starts (hm : CoreMay s q) :
    ModuleResets s (moduleReset { s with pins := q } cause) cause { q with core := true, pwrGood := false, want := true } := by
  have pins : (moduleReset { s with pins := q } cause).pins = { q with core := true, pwrGood := false, want := true } := by
    rw [moduleReset_eq, boots_pins_starts ((coreMay_cut (s := { s with pins := q }) h).2 hm), cutCommand_idle (s := { s with pins := q }) h]
    rfl
  exact pins ▸ moduleReset_resets hL h q hc

/-- Else the core stage stays off, and is to start later. -/
theorem moduleReset_stays (hm : ¬CoreMay s q) :
    ModuleResets s (moduleReset { s with pins := q } cause) cause { q with core := false, pwrGood := false, want := true } := by
  have pins : (moduleReset { s with pins := q } cause).pins = { q with core := false, pwrGood := false, want := true } := by
    rw [moduleReset_eq, boots_pins_stays fun hb => hm ((coreMay_cut (s := { s with pins := q }) h).1 hb),
      cutCommand_idle (s := { s with pins := q }) h]
    rfl
  exact pins ▸ moduleReset_resets hL h q hc

end

end Sys2Proof.Machine
end

section
/-! The core stage turned off, the reset pin, MRESET and the rails (R13, R23 to R26, R447, R451). -/

namespace Sys2Proof.Machine

/-! ### The core stage turned off -/

/-- The core stage turned off: the core is wiped, two pins fall, and beyond registers only ALERT_N can follow. -/
theorem coreOff_frame (s : State) : coreOff s = { wipeCore (breakPairs s (fun _ => true)) with
    regs := (coreOff s).regs, pins := { s.pins with core := false, pwrGood := false }, mgt := { s.mgt with alert := (coreOff s).mgt.alert } } := by
  have broken := (breakPairs_frame s (fun _ => true)).1
  have cleared := resetRegs_frame (wipeCore (breakPairs s (fun _ => true))) (fun r => !islandKind r.kind) codeM
  unfold Reported at broken
  unfold coreOff
  dsimp only
  generalize resetRegs (wipeCore (breakPairs s (fun _ => true))) (fun r => !islandKind r.kind) codeM = r at cleared ⊢
  have alerted := alertCheck_frame { r with pins := { r.pins with core := false, pwrGood := false } }
  generalize alertCheck { r with pins := { r.pins with core := false, pwrGood := false } } = a at alerted ⊢
  generalize breakPairs s (fun _ => true) = b at broken cleared ⊢
  rw [alerted, cleared, broken]
  rfl

theorem Reported.sto_eq {s t : State} (h : Reported s t) : t.sto = s.sto := by rw [h]

theorem Reported.drone_eq {s t : State} (h : Reported s t) : t.drone = s.drone := by rw [h]

theorem coreOff_empty (s : State) : CoreEmpty s (coreOff s) := by
  refine coreEmpty_of_wipe (u := breakPairs s (fun _ => true)) ?_ ?_
  · rw [(breakPairs_frame s _).1]
  · rw [coreOff_frame]

theorem coreOff_raises (s : State) : s.rep.raised <+: (coreOff s).rep.raised := by
  rw [coreOff_frame]
  exact (breakPairs_frame s (fun _ => true)).2

theorem coreOff_sto (s : State) : (coreOff s).sto = s.sto := by
  rw [coreOff_frame]
  exact (breakPairs_frame s (fun _ => true)).1.sto_eq

theorem coreOff_drone (s : State) : (coreOff s).drone = s.drone := by
  rw [coreOff_frame]
  exact (breakPairs_frame s (fun _ => true)).1.drone_eq

theorem coreOff_pins (s : State) : (coreOff s).pins = { s.pins with core := false, pwrGood := false } := by
  rw [coreOff_frame]

/-- A report leaves the core as it is. -/
theorem CoreEmpty.of_reported {s t u : State} (h : CoreEmpty s t) (k : Reported t u) : CoreEmpty s u := by
  unfold Reported at k
  rw [k]
  exact ⟨h.memory, h.units, h.tiles⟩

theorem p0Report_raises {s t : State} (h : s.rep.raised <+: t.rep.raised) (code : Nat) : SaysAmong s (p0Report t code) code unitP0Power := by
  obtain ⟨rs, hrs⟩ := h
  obtain ⟨r, hr, hcode, hunit, -⟩ := emit_raises t unitP0Power code (powerInfo 8 (rf t aPwrStatus 31 16 : Int) (rf t aPwrStatus 15 12))
  refine ⟨rs ++ [r], ?_, r, List.mem_append_right rs List.mem_cons_self, hcode, hunit⟩
  rw [← List.append_assoc, hrs]
  exact hr

/-- A rail that stays out of regulation turns the core stage off, and P0's power control says so (R24). -/
theorem railTimeout_turnsOff {s : State} (h : s.pins.core = true ∧ s.pins.pwrGood = false) :
    ∃ t, exec .railRegulationTimeout s = .next t ∧ t.pins = { s.pins with core := false, pwrGood := false, railFail := true } ∧
      CoreEmpty s t ∧ t.sto = s.sto ∧ t.drone = s.drone ∧ SaysAmong s t 0x8014 0x7008 := by
  have guard : s.pins.core = true ∧ (!s.pins.pwrGood) = true := by simp [h.1, h.2]
  have empty := coreOff_empty s
  have failed : CoreEmpty s { coreOff s with pins := { (coreOff s).pins with railFail := true } } := ⟨empty.memory, empty.units, empty.tiles⟩
  refine ⟨_, if_pos guard, ?_, failed.of_reported (report_frame _ _ _ _), coreOff_sto s, coreOff_drone s,
    p0Report_raises (coreOff_raises s) 0x8014⟩
  show { (coreOff s).pins with railFail := true } = _
  rw [coreOff_pins]

theorem railTimeout_idle {s : State} (h : ¬(s.pins.core = true ∧ s.pins.pwrGood = false)) : exec .railRegulationTimeout s = .next s := by
  refine if_neg (fun hg => h ?_)
  simpa using hg

/-- A rail out of regulation lowers PWR_GOOD alone, and ALERT_N with it where bit 3 is enabled (R22, R418). -/
theorem railOut_effect (s : State) :
    ∃ t, exec .railOutOfRegulation s = .next t ∧
      t = { s with pins := { s.pins with pwrGood := false }, mgt := { s.mgt with alert := t.mgt.alert } } ∧
      (s.mgt.smbMask.getLsbD 3 = true → t.mgt.alert = true) :=
  ⟨_, rfl, alertCheck_frame _, fun hm => alertCheck_pwrGood_low rfl hm⟩

/-! ### The reset pin -/

/-- MOD_RESET_N taken as low resets the module, unless it runs on hold-up (R23, R26). -/
theorem resetLow_resets {s : State} (hd : s.pins.drone = true) (hp : s.pins.powerLost = false) :
    exec .modResetNLow s = .next (moduleReset { s with pins := { s.pins with rstLow := true, tripLow := false, railFail := false } } 1) := by
  show Host.Outcome.next (resetLow s) = _
  simp [resetLow, hd, hp]

theorem resetLow_holdUp {s : State} (hd : s.pins.drone = true) (hp : s.pins.powerLost = true) :
    exec .modResetNLow s = .next { s with pins := { s.pins with rstLow := true } } := by
  show Host.Outcome.next (resetLow s) = _
  simp [resetLow, hd, hp]

theorem resetLow_dark {s : State} (hd : s.pins.drone = false) : exec .modResetNLow s = .next s := by
  show Host.Outcome.next (resetLow s) = _
  simp [resetLow, hd]

/-- MOD_RESET_N taken as high starts the core stage where nothing else holds it back. -/
theorem resetHigh_starts {s : State} (hd : s.pins.drone = true) :
    exec .modResetNHigh s = .next (startCore { s with pins := { s.pins with rstLow := false } }) := by
  show Host.Outcome.next (resetHigh s) = _
  simp [resetHigh, hd]

theorem resetHigh_dark {s : State} (hd : s.pins.drone = false) : exec .modResetNHigh s = .next s := by
  show Host.Outcome.next (resetHigh s) = _
  simp [resetHigh, hd]

/-! ### MRESET -/

/-- A write of MRESET by the host resets the module with cause 2 (R447). -/
theorem mreset_host {s : State} (hs : rf s aVrxState 63 60 ≠ 1) : exec (.mreset .host) s = .next (replied (moduleReset s 2) 0 []) := by
  have reg : regAt aMgtCtrl = some ⟨.mgtCtrl, 0, 0⟩ := rfl
  show answered (hostOnly .host unitHostLink 0x9026 aMgtCtrl (fun s => wMgtCtrl s 1) s) = _
  rw [hostOnly_host hs rfl (unreached_upkeep s .host (by decide) reg rfl)]
  rfl

theorem mreset_engine (s : State) (e : At) : ∃ t, exec (.mreset (.engine e)) s = .next t ∧ Refused s t 0x9026 1 :=
  ⟨_, rfl, refused_refuse s unitHostLink 0x9026⟩

end Sys2Proof.Machine

namespace Sys2Proof.Settled
open Machine

/-- Settles O44: a module reset is its body on the cut-short state (`moduleReset_eq`), and what starts the core stage is
`CoreMay` (`startCore_starts`, `startCore_stays`). -/
theorem moduleReset : Obligations.ModuleReset := by
  intro s e hL hN p off
  simp only [cases_cons]
  refine ⟨?low, ?lowHoldUp, fun hd => ⟨_, resetLow_dark hd, rfl⟩, ?highStarts, ?highStays, fun hd => ⟨_, resetHigh_dark hd, rfl⟩,
    ?mresetStarts, ?mresetStays, fun _ => mreset_engine s e, fun hc => ⟨_, if_pos hc, rfl⟩, ?railsDark, fun h => railTimeout_turnsOff h,
    fun h => ⟨_, railTimeout_idle h, rfl⟩, fun _ => railOut_effect s, cases_nil s⟩
  case low =>
    rintro ⟨hd, hp⟩
    refine ⟨_, resetLow_resets hd hp, ?_⟩
    have held : ¬CoreMay s { p with rstLow := true, tripLow := false, railFail := false } := by
      rintro ⟨-, -, -, -, hr, -⟩
      exact Bool.noConfusion hr
    exact moduleReset_stays hL hN _ (by decide) held
  case lowHoldUp => exact fun ⟨hd, hp⟩ => ⟨_, resetLow_holdUp hd hp, rfl⟩
  case highStarts =>
    rintro ⟨hw, hc, hm⟩
    exact ⟨_, resetHigh_starts hm.2.1, startCore_starts ⟨hw, hc, hm⟩⟩
  case highStays =>
    rintro ⟨hd, hn⟩
    exact ⟨_, resetHigh_starts hd, startCore_stays hn⟩
  case mresetStarts =>
    exact fun ⟨hs, hm⟩ => ⟨_, mreset_host hs, (moduleReset_starts hL hN p (by decide) hm).replied 0 [], rfl⟩
  case mresetStays =>
    exact fun ⟨hs, hm⟩ => ⟨_, mreset_host hs, (moduleReset_stays hL hN p (by decide) hm).replied 0 [], rfl⟩
  case railsDark =>
    intro hc
    exact ⟨_, if_neg (by simpa using hc), rfl⟩

end Sys2Proof.Settled
end

section
/-! SUPPORT. Fields of the state's registers: what a read of one finds after a write of another. -/

namespace Sys2Proof.Machine

theorem rf_rset_self (s : State) (a : Nat) {hi : Nat} (lo v : Nat) (h : hi < 64) : rf (rset s a hi lo v) a hi lo = v % 2 ^ (hi + 1 - lo) := by
  rw [rf, rset, regGet_regPut_self, fld_setFld_self _ _ _ h]

theorem rf_rset_apart (s : State) (a : Nat) {hi lo hi' lo' : Nat} (v : Nat) (h : hi' < lo ∨ hi < lo') :
    rf (rset s a hi lo v) a hi' lo' = rf s a hi' lo' := by
  rw [rf, rset, regGet_regPut_self, fld_setFld_apart _ _ h, ← rf]

theorem rf_rsetb_apart (s : State) (a : Nat) {i hi lo : Nat} (b : Bool) (h : hi < i ∨ i < lo) : rf (rsetb s a i b) a hi lo = rf s a hi lo :=
  rf_rset_apart s a _ h

theorem rbit_rset_apart (s : State) (a : Nat) {hi lo i : Nat} (v : Nat) (hi64 : i < 64) (h : i < lo ∨ hi < i) :
    rbit (rset s a hi lo v) a i = rbit s a i := by
  rw [rbit, rset, regGet_regPut_self, bit_setFld _ _ _ _ hi64, if_neg (by omega), ← rbit]

theorem rbit_rsetb_self (s : State) (a : Nat) {i : Nat} (b : Bool) (h : i < 64) : rbit (rsetb s a i b) a i = b := by
  rw [rbit, rsetb, regGet_regPut_self, bit_setBit_self _ _ h]

theorem rbit_rsetb_apart (s : State) (a : Nat) {i j : Nat} (b : Bool) (hj : j < 64) (h : j ≠ i) : rbit (rsetb s a i b) a j = rbit s a j :=
  rbit_rset_apart s a _ hj (by omega)

theorem rbit_regPut_ne (s : State) {a b : Nat} (w : Word) (i : Nat) (h : b ≠ a) : rbit (regPut s a w) b i = rbit s b i := by
  rw [rbit, regGet_regPut_ne s w h, ← rbit]

theorem rf_congr {s t : State} (h : t.regs = s.regs) (a hi lo : Nat) : rf t a hi lo = rf s a hi lo := by
  rw [rf, rf, regGet, regGet, h]

theorem rbit_congr {s t : State} (h : t.regs = s.regs) (a i : Nat) : rbit t a i = rbit s a i := by
  rw [rbit, rbit, regGet, regGet, h]

/-- A field whose bits agree in two states agrees. -/
theorem rf_eq_of_bits {s t : State} {a hi lo : Nat} (h : ∀ i, lo ≤ i → i ≤ hi → rbit t a i = rbit s a i) : rf t a hi lo = rf s a hi lo :=
  fld_congr h

/-- A local report leaves every register. -/
theorem report_local_regs (s : State) (u code : Nat) (i : Info) (h : i.remote = false) : (report s u code i).regs = s.regs := by
  rw [report_local s u code i h]
  rfl

/-- What is reported depends on the records raised before and after alone. -/
theorem Says.of_raised {s s' t t' : State} {code unit : Nat} (h : Says s t code unit) (hs : s.rep.raised = s'.rep.raised)
    (ht : t'.rep.raised = t.rep.raised) : Says s' t' code unit := by
  unfold Says at *
  rwa [ht, ← hs]

end Sys2Proof.Machine
end

section
/-! Time alignment (R51 to R55): frames that leave and arrive, and what an exchange does to the count and to DRN_ALIGN. -/

namespace Sys2Proof.Machine

/-! ### Frames sent (R51) -/

/-- One time-alignment frame leaves on a link, with a fresh stamp of its router port. -/
def sendTimeFrame (s : State) (p : Nat) : State :=
  { (takeStamp s (unitOfPort p)).2 with
    drone := { s.drone with sent := (p, timeLane s p, timeBytes (takeStamp s (unitOfPort p)).1) :: s.drone.sent } }

theorem sendAlignment_due {s : State} (ht : s.drone.tick.toNat % 25000 = 0) (hd : rbit s aMgtSite 62 = true) :
    sendAlignment s = ((List.range 6).filter (portUp (exchange s s.drone.offs))).foldl sendTimeFrame (exchange s s.drone.offs) := by
  unfold sendAlignment
  rw [if_neg (by simp [ht, hd])]
  rfl

theorem sendAlignment_quiet {s : State} (h : s.drone.tick.toNat % 25000 ≠ 0 ∨ rbit s aMgtSite 62 = false) : sendAlignment s = s :=
  if_pos (by simpa using h)

/-- Frames have left on the links `ps`, and nothing else has happened: each carries a stamp on its link's lane. -/
structure FramesSent (s t : State) (ps : List Nat) : Prop where
  frame : t = { s with drone := { s.drone with sent := t.drone.sent }, rep := t.rep, free := t.free }
  quiet : t.rep.raised = s.rep.raised
  count : t.drone.sent.length = s.drone.sent.length + ps.length
  earlier : ∀ f ∈ s.drone.sent, f ∈ t.drone.sent
  each : ∀ p ∈ ps, ∃ st, (p, timeLane s p, timeBytes st) ∈ t.drone.sent

theorem framesSent_foldl (ps : List Nat) (s : State) : FramesSent s (ps.foldl sendTimeFrame s) ps := by
  induction ps generalizing s with
  | nil => exact ⟨rfl, rfl, rfl, fun _ h => h, nofun⟩
  | cons p ps ih =>
    obtain ⟨frame, quiet, count, earlier, each⟩ := ih (sendTimeFrame s p)
    rw [List.foldl_cons]
    refine ⟨frame, quiet, ?_, fun f hf => earlier f (List.mem_cons_of_mem _ hf), fun q hq => ?_⟩
    · rw [count, sendTimeFrame, List.length_cons, List.length_cons]
      omega
    · rcases List.mem_cons.1 hq with rfl | hq
      · exact ⟨_, earlier _ List.mem_cons_self⟩
      · exact each q hq

/-- The lane of a frame is the lowest-numbered one in service, where there is one (R356). -/
theorem timeLane_lowest {s : State} {q : Nat} (h : ∃ k < 32, (rf s (aBelLanes q) 63 32).testBit k = true) : LowestLane s q (timeLane s q) := by
  obtain ⟨l, hl⟩ : ∃ l, (List.range 32).find? ((rf s (aBelLanes q) 63 32).testBit ·) = some l := by
    obtain ⟨k, hk, hb⟩ := h
    exact Option.isSome_iff_exists.1 (List.find?_isSome.2 ⟨k, List.mem_range.2 hk, hb⟩)
  obtain ⟨hb, hm, hlow⟩ := List.find?_range_eq_some.1 hl
  rw [timeLane, hl]
  exact ⟨hb, fun k hk => by simpa using hlow k hk⟩

/-! ### Frames received (R51, R52) -/

theorem inAlignment_iff {s : State} {p : Nat} : inAlignment s p = true ∧ p < 6 ↔ TakesPart s p := by
  simp [inAlignment, TakesPart, and_comm]

theorem mem_alignLinks {s : State} {p : Nat} : p ∈ alignLinks s ↔ TakesPart s p := by
  rw [← inAlignment_iff, alignLinks, List.mem_filter, List.mem_range, and_comm]

/-- The offset that a frame with stamp `tx` shows on link `p` (R51). -/
def frameOffset (s : State) (p : Nat) (tx : Word) : Int :=
  (tx + BitVec.ofNat 64 (rf s (aMgtDly p) 31 0) - (takeStamp s (unitOfPort p)).1).toInt

/-- The state in which link `p` has its offset. -/
def offsetTaken (s : State) (p : Nat) (tx : Word) : State :=
  { (takeStamp s (unitOfPort p)).2 with drone := { s.drone with offs := tinsert s.drone.offs p (frameOffset s p tx) } }

theorem offsetTaken_first {s : State} (hr : s.drone.offs = []) (p : Nat) (tx : Word) :
    (offsetTaken s p tx).drone = { s.drone with offs := [(p, frameOffset s p tx)] } := by
  rw [offsetTaken, hr]
  rfl

theorem takeTime_apart {s : State} {p : Nat} (h : ¬TakesPart s p) (tx : Word) : takeTime s p tx = s := by
  refine if_pos ?_
  rw [← inAlignment_iff] at h
  cases hin : inAlignment s p
  · exact Or.inl rfl
  · exact Or.inr (Nat.le_of_not_lt fun hp => h ⟨hin, hp⟩)

theorem takeTime_takes {s : State} {p : Nat} (h : TakesPart s p) (tx : Word) :
    takeTime s p tx = if (alignLinks s).all (fun l => (tfind (offsetTaken s p tx).drone.offs l).isSome) = true
      then exchange (offsetTaken s p tx) (offsetTaken s p tx).drone.offs else offsetTaken s p tx := by
  obtain ⟨hin, hp⟩ := inAlignment_iff.2 h
  exact if_neg (by simp [hin, hp])

theorem takeTime_first {s : State} {p : Nat} (h : TakesPart s p) (hr : s.drone.offs = []) (tx : Word) :
    takeTime s p tx = if (alignLinks s).all (fun l => decide (l = p)) = true
      then exchange (offsetTaken s p tx) [(p, frameOffset s p tx)] else offsetTaken s p tx := by
  have found : (fun l => (tfind [(p, frameOffset s p tx)] l).isSome) = fun l => decide (l = p) := by
    funext l
    by_cases hl : l = p
    · simp [tfind, hl]
    · simp [tfind, hl, Ne.symm hl]
  rw [takeTime_takes h, offsetTaken_first hr, ← found]

/-- The exchange waits for the other links that take part. -/
theorem takeTime_waits {s : State} {p : Nat} (h : TakesPart s p) (hr : s.drone.offs = []) (hn : ¬∀ q, TakesPart s q → q = p) (tx : Word) :
    takeTime s p tx = offsetTaken s p tx := by
  rw [takeTime_first h hr, if_neg]
  simpa [mem_alignLinks] using hn

/-- A link that takes part alone makes an exchange of its own. -/
theorem takeTime_alone {s : State} {p : Nat} (h : TakesPart s p) (hr : s.drone.offs = []) (ha : ∀ q, TakesPart s q → q = p) (tx : Word) :
    takeTime s p tx = exchange (offsetTaken s p tx) [(p, frameOffset s p tx)] := by
  rw [takeTime_first h hr, if_pos]
  simpa [mem_alignLinks] using ha

/-! ### An exchange of one link (R52 to R55) -/

/-- The state that has noted an exchange of link `p` alone and its target in DRN_ALIGN (Table 2.7). -/
def exchangeNoted (s : State) (p : Nat) (t : Int) : State :=
  rset (rset { s with drone := { s.drone with offs := [] } } aDrnAlign 45 40 (2 ^ p)) aDrnAlign 31 0
    (low 32 (iclamp (-(2 ^ 31 - 1)) (2 ^ 31 - 1) t))

theorem isRoot_exchangeNoted (s : State) (p : Nat) (t : Int) : isRoot (exchangeNoted s p t) = isRoot s := by
  have apart : aMgtSite ≠ aDrnAlign := by decide
  rw [isRoot, exchangeNoted, rset, rbit_regPut_ne _ _ _ apart, rset, rbit_regPut_ne _ _ _ apart]
  rfl

/-- The exchange notes its target, applies it unless the module is the root, and judges ALIGNED by it. -/
theorem exchange_one (s : State) (p : Nat) {o t : Int} (ht : (if isRoot s = true then 0 else o) = t) :
    exchange s [(p, o)] = alignTarget (if isRoot s = true then exchangeNoted s p t else applyTarget (exchangeNoted s p t) t) t := by
  have mean : (([(p, o)].map (fun o => o.2)).foldl (· + ·) 0 / (([(p, o)] : Tbl Int).length : Int)) = o := by simp
  have mask : laneMask ([(p, o)].map (fun o => o.1)) = 2 ^ p := by simp [laneMask]
  unfold exchange
  rw [if_neg (show ¬([(p, o)] : Tbl Int).isEmpty = true from Bool.false_ne_true)]
  dsimp only
  rw [mean, mask, ht]
  show alignTarget (if isRoot (exchangeNoted s p t) = true then exchangeNoted s p t else applyTarget (exchangeNoted s p t) t) t = _
  rw [isRoot_exchangeNoted]

/-- A module that is not the root takes the offset as its target. -/
theorem exchange_takes {s : State} (hr : isRoot s = false) (p : Nat) (o : Int) :
    exchange s [(p, o)] = alignTarget (applyTarget (exchangeNoted s p o) o) o := by
  have other : ¬isRoot s = true := by simp [hr]
  rw [exchange_one s p (if_neg other), if_neg other]

/-- The root takes a target of 0, and keeps its time (R54; log entry 58). -/
theorem exchange_root {s : State} (hr : isRoot s = true) (p : Nat) (o : Int) : exchange s [(p, o)] = alignTarget (exchangeNoted s p 0) 0 := by
  rw [exchange_one s p (if_pos hr), if_pos hr]

theorem low_lt (n : Nat) (v : Int) : low n v < 2 ^ n := by
  have pos : (0 : Int) < ((2 ^ n : Nat) : Int) := Int.natCast_pos.2 (Nat.two_pow_pos n)
  exact (Int.toNat_lt (Int.emod_nonneg _ (Int.ne_of_gt pos))).2 (Int.emod_lt_of_pos _ pos)

theorem exchangeNoted_links (s : State) {p : Nat} (hp : p < 6) (t : Int) : rf (exchangeNoted s p t) aDrnAlign 45 40 = 2 ^ p := by
  rw [exchangeNoted, rf_rset_apart _ _ _ (by decide), rf_rset_self _ _ _ _ (by decide)]
  exact Nat.mod_eq_of_lt (Nat.pow_lt_pow_right (by decide) hp)

theorem exchangeNoted_target (s : State) (p : Nat) (t : Int) :
    rf (exchangeNoted s p t) aDrnAlign 31 0 = low 32 (iclamp (-(2 ^ 31 - 1)) (2 ^ 31 - 1) t) := by
  rw [exchangeNoted, rf_rset_self _ _ _ _ (by decide)]
  exact Nat.mod_eq_of_lt (low_lt 32 _)

theorem exchangeNoted_high (s : State) (p : Nat) (t : Int) {i : Nat} (hi : 46 ≤ i) (h64 : i < 64) :
    rbit (exchangeNoted s p t) aDrnAlign i = rbit s aDrnAlign i := by
  rw [exchangeNoted, rbit_rset_apart _ _ _ h64 (by omega), rbit_rset_apart _ _ _ h64 (by omega)]
  rfl

theorem exchangeNoted_rep (s : State) (p : Nat) (t : Int) : (exchangeNoted s p t).rep = s.rep := rfl

/-! ### ALIGNED (R55) -/

/-- The state in which a target beyond 1 µs has cleared ALIGNED. -/
def alignedLost (s : State) : State := rsetb { s with drone := { s.drone with inRange := 0 } } aDrnAlign 63 false

/-- What a correction target does to ALIGNED (R55): the row of exchanges within 10 ns grows or ends, the sixteenth sets the bit,
and a target beyond 1 µs clears it. -/
structure Judged (s u : State) (t : Int) : Prop where
  drone : u.drone = { s.drone with
    inRange := if -1024 ≤ t ∧ t ≤ 1024 then s.drone.inRange + 1 else 0, everAligned := u.drone.everAligned }
  others : ∀ i < 63, rbit u aDrnAlign i = rbit s aDrnAlign i
  aligned : rbit u aDrnAlign 63 = true ↔
    (-1024 ≤ t ∧ t ≤ 1024 ∧ 15 ≤ s.drone.inRange) ∨ (aligned s = true ∧ -102400 ≤ t ∧ t ≤ 102400)
  raises : s.rep.raised <+: u.rep.raised

theorem judged_lost {s : State} {t : Int} (far : ¬(-1024 ≤ t ∧ t ≤ 1024)) (beyond : t < -102400 ∨ 102400 < t) :
    Judged s (report (alignedLost s) (openUnit 0x40C0) 0x40C0) t := by
  have regs : (report (alignedLost s) (openUnit 0x40C0) 0x40C0).regs = (alignedLost s).regs := report_local_regs _ _ _ _ rfl
  obtain ⟨r, raised, -⟩ := emit_raises (alignedLost s) (openUnit 0x40C0) 0x40C0 {}
  refine ⟨?_, fun i hi => ?_, ?_, ⟨_, raised.symm⟩⟩
  · rw [if_neg far, (report_frame _ _ _ _).drone_eq]
    rfl
  · rw [rbit_congr regs]
    exact rbit_rsetb_apart _ _ _ (by omega) (by omega)
  · rw [rbit_congr regs, alignedLost, rbit_rsetb_self _ _ _ (by decide)]
    exact iff_of_false Bool.false_ne_true (by omega)

theorem judged_alignTarget (s : State) (t : Int) : Judged s (alignTarget s t) t := by
  unfold alignTarget frac10ns fracUs aligned
  dsimp only
  split
  · rename_i near
    split
    · rename_i sixteen
      refine ⟨by rw [if_pos near]; rfl, fun i hi => rbit_rsetb_apart _ _ _ (by omega) (by omega), ?_, ⟨[], List.append_nil _⟩⟩
      rw [rbit_rsetb_self _ _ _ (by decide)]
      exact iff_of_true rfl (Or.inl ⟨near.1, near.2, by omega⟩)
    · rename_i fewer
      refine ⟨by rw [if_pos near], fun _ _ => rfl, ?_, ⟨[], List.append_nil _⟩⟩
      exact ⟨fun h => Or.inr ⟨h, by omega, by omega⟩, fun h => h.elim (fun h => absurd h.2.2 (by omega)) And.left⟩
  · rename_i far
    split
    · rename_i lost
      exact judged_lost far lost.1
    · rename_i kept
      refine ⟨by rw [if_neg far], fun _ _ => rfl, ?_, ⟨[], List.append_nil _⟩⟩
      have within (h : rbit s aDrnAlign 63 = true) : ¬(t < -102400 ∨ 102400 < t) := fun ho => kept ⟨ho, h⟩
      exact ⟨fun h => Or.inr ⟨h, by have := within h; omega, by have := within h; omega⟩,
        fun h => h.elim (fun h => absurd ⟨h.1, h.2.1⟩ far) And.left⟩

/-! ### The target applied (R52) -/

theorem satAt_eq_min (m n : Nat) : satAt m n = Nat.min m n := by
  show (if n ≤ m then n else m) = min m n
  rw [Nat.min_comm, Nat.min_def]

/-- The state in which the count has moved by a target at once, and STEPS has counted it. -/
def countStepped (s : State) (t : Int) : State :=
  rcount { (takeStamp s unitFirmware).2 with drone := { s.drone with
    tick := s.drone.tick + BitVec.ofInt 52 ((s.drone.sub + t) / 4096), sub := (s.drone.sub + t) % 4096, slew := 0, ran := 0 } } aDrnAlign 55 48 1

/-- What a step forward reports of itself: the stamps before and after (R52). -/
def stepInfo (s : State) (t : Int) : Info :=
  { a0 := (takeStamp s unitFirmware).1, a1 := (takeStamp s unitFirmware).1 + BitVec.ofInt 64 t }

theorem stepForward_eq (s : State) (t : Int) : stepForward s t = report (countStepped s t) (openUnit 0x40C1) 0x40C1 (stepInfo s t) := rfl

theorem countStepped_steps (s : State) (t : Int) : rf (countStepped s t) aDrnAlign 55 48 = Nat.min 255 (rf s aDrnAlign 55 48 + 1) := by
  rw [countStepped, rcount, rf_rset_self _ _ _ _ (by decide), satAt_eq_min]
  exact Nat.mod_eq_of_lt (Nat.lt_of_le_of_lt (Nat.min_le_left _ _) (by decide))

theorem countStepped_apart (s : State) (t : Int) {i : Nat} (h64 : i < 64) (h : i < 48 ∨ 55 < i) :
    rbit (countStepped s t) aDrnAlign i = rbit s aDrnAlign i := by
  rw [countStepped, rcount, rbit_rset_apart _ _ _ h64 h]
  rfl

/-- A step forward: the count and its part of a tick move by the target, STEPS counts it, and 0x4_0C1 tells of it (R52). -/
structure SteppedForward (s u : State) (t : Int) : Prop where
  drone : u.drone = { s.drone with
    tick := s.drone.tick + BitVec.ofInt 52 ((s.drone.sub + t) / 4096), sub := (s.drone.sub + t) % 4096, slew := 0, ran := 0 }
  steps : rf u aDrnAlign 55 48 = Nat.min 255 (rf s aDrnAlign 55 48 + 1)
  others : ∀ i < 64, i ≠ 61 → i < 48 ∨ 55 < i → rbit u aDrnAlign i = rbit s aDrnAlign i
  told : Says s u 0x40C1 (openUnit 0x40C1)

theorem stepForward_emits (s : State) (t : Int) : stepForward s t = emit (countStepped s t) (openUnit 0x40C1) 0x40C1 (stepInfo s t) := by
  rw [stepForward_eq, report_local _ _ _ _ rfl]

theorem steppedForward_of_emit (s : State) (t : Int) (i : Info) :
    SteppedForward s (rsetb (emit (countStepped s t) (openUnit 0x40C1) 0x40C1 i) aDrnAlign 61 false) t where
  drone := rfl
  steps := by
    have regs : (emit (countStepped s t) (openUnit 0x40C1) 0x40C1 i).regs = (countStepped s t).regs := rfl
    rw [rf_rsetb_apart _ _ _ (by decide), rf_congr regs, countStepped_steps]
  others j h64 h61 hj := by
    have regs : (emit (countStepped s t) (openUnit 0x40C1) 0x40C1 i).regs = (countStepped s t).regs := rfl
    rw [rbit_rsetb_apart _ _ _ h64 h61, rbit_congr regs, countStepped_apart s t h64 hj]
  told := (says_emit (countStepped s t) _ _ _).of_raised rfl rfl

theorem applyTarget_steps {s : State} {t : Int} (he : s.drone.everAligned = false) (ht : 102400 < t) : SteppedForward s (applyTarget s t) t := by
  have now : applyTarget s t = rsetb (stepForward s t) aDrnAlign 61 false := if_pos ⟨by simp [he], ht⟩
  rw [now, stepForward_emits]
  exact steppedForward_of_emit s t _

/-- A target within ±1 µs, or any once the module has been aligned, starts a slew by as much of it as R52 allows. -/
theorem applyTarget_slews {s : State} {t : Int} (h : s.drone.everAligned = true ∨ t ≤ 102400) :
    applyTarget s t = rsetb { s with drone := { s.drone with slew := iclamp (-102400) 102400 t, ran := 0 } } aDrnAlign 61
      (decide (iclamp (-102400) 102400 t = 102400 ∨ iclamp (-102400) 102400 t = -102400)) := by
  refine if_neg ?_
  rintro ⟨he, ht⟩
  rcases h with h | h
  · simp [h] at he
  · exact absurd ht (Int.not_lt.2 h)

/-- What a target applied leaves alone: the row of exchanges, the offsets, and DRN_ALIGN but SLEW and STEPS. -/
structure TargetApplied (s u : State) : Prop where
  drone : u.drone.inRange = s.drone.inRange ∧ u.drone.offs = s.drone.offs
  others : ∀ i < 64, i ≠ 61 → i < 48 ∨ 55 < i → rbit u aDrnAlign i = rbit s aDrnAlign i

theorem targetApplied (s : State) (t : Int) : TargetApplied s (applyTarget s t) := by
  by_cases h : s.drone.everAligned = true ∨ t ≤ 102400
  · rw [applyTarget_slews h]
    exact ⟨⟨rfl, rfl⟩, fun i h64 h61 _ => rbit_rsetb_apart _ _ _ h64 h61⟩
  · rw [not_or, Bool.not_eq_true, Int.not_le] at h
    obtain ⟨drone, -, others, -⟩ := applyTarget_steps h.1 h.2
    exact ⟨by simp [drone], others⟩

/-! ### What an exchange leaves (R52 to R55, Table 2.7) -/

/-- An exchange of link `p` with offset `o` stands in DRN_ALIGN, and ALIGNED is judged by it. -/
structure ExchangeStands (s u : State) (p : Nat) (o : Int) : Prop where
  links : rf u aDrnAlign 45 40 = 2 ^ p
  offset : rf u aDrnAlign 31 0 = low 32 (iclamp (-(2 ^ 31 - 1)) (2 ^ 31 - 1) o)
  ended : u.drone.offs = []
  aligned : rbit u aDrnAlign 63 = true ↔
    (-1024 ≤ o ∧ o ≤ 1024 ∧ 15 ≤ s.drone.inRange) ∨ (aligned s = true ∧ -102400 ≤ o ∧ o ≤ 102400)

theorem exchangeStands {s : State} (hr : isRoot s = false) {p : Nat} (hp : p < 6) (o : Int) : ExchangeStands s (exchange s [(p, o)]) p o := by
  obtain ⟨drone, low, high, -⟩ := judged_alignTarget (applyTarget (exchangeNoted s p o) o) o
  obtain ⟨⟨inRange, offs⟩, others⟩ := targetApplied (exchangeNoted s p o) o
  have kept {i : Nat} (hi : i < 63) (h61 : i ≠ 61) (hs : i < 48 ∨ 55 < i) :
      rbit (exchange s [(p, o)]) aDrnAlign i = rbit (exchangeNoted s p o) aDrnAlign i := by
    rw [exchange_takes hr, low i hi, others i (by omega) h61 hs]
  constructor
  case links => rw [rf_eq_of_bits fun i _ _ => kept (by omega) (by omega) (by omega), exchangeNoted_links s hp]
  case offset => rw [rf_eq_of_bits fun i _ _ => kept (by omega) (by omega) (by omega), exchangeNoted_target]
  case ended => rw [exchange_takes hr, drone, offs]; rfl
  case aligned =>
    have same : aligned (applyTarget (exchangeNoted s p o) o) = aligned s := by
      rw [aligned, others 63 (by omega) (by omega) (by omega), exchangeNoted_high s p o (by decide) (by decide), ← aligned]
    rw [exchange_takes hr, high, inRange, same]
    rfl

/-- A target that only slews: the count runs on, the slew starts, and SLEW says whether R52 has limited it. -/
structure SlewStarts (s u : State) (o : Int) : Prop where
  tick : u.drone.tick = s.drone.tick
  slew : u.drone.slew = iclamp (-102400) 102400 o
  ran : u.drone.ran = 0
  limited : rbit u aDrnAlign 61 = true ↔ iclamp (-102400) 102400 o = 102400 ∨ iclamp (-102400) 102400 o = -102400
  inRange : u.drone.inRange = if -1024 ≤ o ∧ o ≤ 1024 then s.drone.inRange + 1 else 0

theorem exchange_slews {s : State} (hr : isRoot s = false) (p : Nat) {o : Int} (h : s.drone.everAligned = true ∨ o ≤ 102400) :
    SlewStarts s (exchange s [(p, o)]) o := by
  obtain ⟨drone, others, -, -⟩ := judged_alignTarget (applyTarget (exchangeNoted s p o) o) o
  rw [exchange_takes hr]
  have slews := applyTarget_slews (s := exchangeNoted s p o) h
  constructor
  case tick => rw [drone, slews]; rfl
  case slew => rw [drone, slews]; rfl
  case ran => rw [drone, slews]; rfl
  case limited => rw [others 61 (by decide), slews, rbit_rsetb_self _ _ _ (by decide), decide_eq_true_iff]
  case inRange => rw [drone, slews]; rfl

theorem exchange_steps {s : State} (hr : isRoot s = false) (p : Nat) {o : Int} (he : s.drone.everAligned = false) (ho : 102400 < o) :
    let u := exchange s [(p, o)]
    u.drone.tick = s.drone.tick + BitVec.ofInt 52 ((s.drone.sub + o) / 4096) ∧ u.drone.sub = (s.drone.sub + o) % 4096 ∧ u.drone.slew = 0 ∧
    rf u aDrnAlign 55 48 = Nat.min 255 (rf s aDrnAlign 55 48 + 1) ∧ SaysAmong s u 0x40C1 (openUnit 0x40C1) := by
  obtain ⟨drone, others, -, ⟨more, raised⟩⟩ := judged_alignTarget (applyTarget (exchangeNoted s p o) o) o
  obtain ⟨stepped, steps, -, ⟨r, told, code, unit⟩⟩ := applyTarget_steps (s := exchangeNoted s p o) he ho
  rw [exchange_takes hr]
  refine ⟨by rw [drone, stepped]; rfl, by rw [drone, stepped]; rfl, by rw [drone, stepped], ?_, r :: more, ?_, r, List.mem_cons_self, code, unit⟩
  · rw [rf_eq_of_bits fun i _ _ => others i (by omega), steps,
      rf_eq_of_bits fun i _ _ => exchangeNoted_high s p o (by omega) (by omega)]
  · rw [← raised, told, exchangeNoted_rep, List.append_assoc, List.singleton_append]

theorem exchange_root_keeps {s : State} (hr : isRoot s = true) (p : Nat) (o : Int) :
    let u := exchange s [(p, o)]
    u.drone.tick = s.drone.tick ∧ u.drone.slew = s.drone.slew ∧ rf u aDrnAlign 31 0 = 0 := by
  obtain ⟨drone, others, -, -⟩ := judged_alignTarget (exchangeNoted s p 0) 0
  rw [exchange_root hr]
  refine ⟨by rw [drone]; rfl, by rw [drone]; rfl, ?_⟩
  rw [rf_eq_of_bits fun i _ _ => others i (by omega), exchangeNoted_target]
  rfl

end Sys2Proof.Machine

namespace Sys2Proof.Settled
open Machine

/-- Settles O55: a link that takes part alone makes an exchange of its own (`takeTime_alone`); what that leaves is its note in
DRN_ALIGN (`exchangeStands`) and a slew or a step (`exchange_slews`, `exchange_steps`), at the root neither (`exchange_root_keeps`). -/
theorem timeAlignment : Obligations.TimeAlignment := by
  intro s port tx p quietly off alone ranged rest noted
  have root {b : Bool} (h : rbit s aMgtSite 61 = b) : isRoot (offsetTaken s p tx) = b := h
  have stands (h : TakesPart s p) (hr : rbit s aMgtSite 61 = false) : noted (exchange (offsetTaken s p tx) [(p, off)]) := by
    obtain ⟨links, offset, ended, aligned⟩ := exchangeStands (root hr) h.1 off
    exact ⟨links, offset, ended, aligned⟩
  simp only [cases_cons]
  refine ⟨fun h => ⟨_, rfl, sendAlignment_quiet h⟩, ?sends, fun h => ⟨_, rfl, takeTime_apart h tx⟩,
    ?waits, ?slews, ?first, ?root, cases_nil s⟩
  case sends =>
    rintro ⟨due, hr⟩
    rw [not_or, Classical.not_not, Bool.not_eq_false] at due
    have none : exchange s s.drone.offs = s := by rw [hr]; rfl
    have sent := sendAlignment_due due.1 due.2
    rw [none] at sent
    obtain ⟨frame, quiet, count, -, each⟩ := framesSent_foldl ((List.range 6).filter (portUp s)) s
    rw [← sent] at frame quiet count each
    refine ⟨_, rfl, frame, quiet, count, fun q hq up => ?_⟩
    obtain ⟨st, hst⟩ := each q (List.mem_filter.2 ⟨List.mem_range.2 hq, up⟩)
    exact ⟨timeLane s q, st, hst, timeLane_lowest⟩
  case waits =>
    rintro ⟨h, hr, hn⟩
    refine ⟨_, congrArg Host.Outcome.next (takeTime_waits h hr hn tx), ?_, rfl⟩
    have drone : (offsetTaken s p tx).drone = { s.drone with offs := [(p, off)] } := offsetTaken_first hr p tx
    rw [← drone]
    rfl
  case slews =>
    rintro ⟨h, hr, ha, hroot, he⟩
    obtain ⟨tick, slew, ran, limited, inRange⟩ := exchange_slews (root hroot) p (o := off) (Or.inl he)
    exact ⟨_, congrArg Host.Outcome.next (takeTime_alone h hr ha tx), tick, slew, ran, stands h hroot, limited, inRange⟩
  case first =>
    rintro ⟨h, hr, ha, hroot, he⟩
    refine ⟨_, congrArg Host.Outcome.next (takeTime_alone h hr ha tx), stands h hroot, fun ho => ?_, fun ho => ?_⟩
    · exact exchange_steps (root hroot) p he ho
    · obtain ⟨tick, slew, -, -, -⟩ := exchange_slews (root hroot) p (o := off) (Or.inr ho)
      exact ⟨tick, slew⟩
  case root =>
    rintro ⟨h, hr, ha, hroot⟩
    exact ⟨_, congrArg Host.Outcome.next (takeTime_alone h hr ha tx), exchange_root_keeps (root hroot) p off⟩

end Sys2Proof.Settled
end

section
/-! One cycle on an empty queue, and an abort that ends while its channel retrains (R238, R268). -/

namespace Sys2Proof.Machine

/-- Reed 0 aborts with nothing outstanding, and its channel retrains. -/
def abortingInRetrain : State := rset (rset State.reset (aReedStatus 0) 63 60 4) (aHbmChStatus 0) 63 60 1

/-- The Reed leaves ABORTING for PAUSED, since its channel retrains (R268, Table 8.5). -/
theorem refCycle_abortingInRetrain : reedState (refCycle abortingInRetrain) 0 = 2 := by decide +kernel

end Sys2Proof.Machine

namespace Sys2Proof.Settled
open Machine

/-- Refutes O57: a Reed whose channel retrains leaves ABORTING for PAUSED (2), as R268 asks, where the statement has every Reed
with no delivery outstanding go IDLE (0). -/
theorem not_emptyQueueTicks : ¬ Obligations.EmptyQueueTicks := by
  rintro ⟨cycle, -⟩
  obtain ⟨-, powered⟩ := cycle abortingInRetrain rfl
  obtain ⟨t, -, unheld, -, -, -, -, -, -, -, -, -, reeds, -⟩ := powered rfl
  have ht : refCycle abortingInRetrain = t := Host.Outcome.next.inj (unheld rfl)
  have aborting : reedState abortingInRetrain 0 = 4 ∧ (getReed abortingInRetrain 0).blocks = [] := ⟨by decide +kernel, rfl⟩
  have idle := reeds 0 (by decide)
  rw [← ht, refCycle_abortingInRetrain, if_pos aborting] at idle
  exact absurd idle (by decide)

end Sys2Proof.Settled
end
